-- ==== Sys2Proof/Word.lean ====
section
/-! DEFINITION. The word types of the QP820 model and the sparse register map that holds configuration space.
The manual's registers are 32 bits wide (R6). -/
namespace Sys2Proof

/-- A configuration register's value (R6: registers are 32 bits wide). -/
abbrev Word := BitVec 32

/-- One byte of a stream, a descriptor payload or a record. -/
abbrev Byte := BitVec 8

/-- A sparse map from an index (a register address, a window word, a column) to its word, in one canonical form:
indexes strictly rising, no entry holding zero.  An index that is not listed holds zero. -/
abbrev RegMap := List (Nat × Word)

end Sys2Proof
end

