-- ==== Sys2Proof/Machine/Num.lean ====
section
/-! DEFINITION. Bit fields, sign handling, saturating sums, sparse maps and indexed updates used by every block. -/
namespace Sys2Proof.Machine

/-- Bits [lo + w − 1 : lo] of a number. -/
def bits (v lo w : Nat) : Nat := (v >>> lo) % 2 ^ w

/-- `v` with bits [lo + w − 1 : lo] replaced by the low `w` bits of `x`. -/
def insBits (v lo w x : Nat) : Nat := v - bits v lo w * 2 ^ lo + (x % 2 ^ w) * 2 ^ lo

/-- The two's-complement reading of a `w`-bit field. -/
def sgn (w v : Nat) : Int :=
  let u := v % 2 ^ w
  if u * 2 < 2 ^ w then (u : Int) else (u : Int) - (2 ^ w : Nat)

/-- The `w`-bit two's-complement code of an integer. -/
def twos (w : Nat) (i : Int) : Nat := (i % (2 ^ w : Nat)).toNat

/-- `x` held between `lo` and `hi`. -/
def clampI (lo hi x : Int) : Int := if x < lo then lo else if hi < x then hi else x

/-- `x` held between `lo` and `hi`. -/
def clampN (lo hi x : Nat) : Nat := if x < lo then lo else if hi < x then hi else x

/-- `a + b`, saturating at the largest value of a `w`-bit counter. -/
def satAdd (w a b : Nat) : Nat := min (2 ^ w - 1) (a + b)

/-- R5: a print line index, 48 bits. -/
def pl (n : Nat) : Nat := n % 2 ^ 48

/-- R5: lines from print line `a` on to print line `b`, modulo 2^48. -/
def lineDist (a b : Nat) : Nat := (b + (2 ^ 48 - pl a)) % 2 ^ 48

/-- R5: print line `a` comes before print line `b`: the distance between them is less than half the range. -/
def lineBefore (a b : Nat) : Bool := decide (0 < lineDist a b) && decide (lineDist a b < 2 ^ 47)

/-- R5: lines from `a` on to `b`; none when `b` comes before `a`. -/
def lineSpan (a b : Nat) : Nat := if lineBefore b a then 0 else lineDist a b

/-- Ceiling division; 0 for a zero divisor. -/
def cdiv (a b : Nat) : Nat := if b = 0 then 0 else (a + b - 1) / b

/-- Integer division rounded to nearest, halves away from zero. -/
def rdivI (a : Int) (b : Nat) : Int :=
  if b = 0 then 0 else if 0 ≤ a then (2 * a + b) / (2 * b) else -((2 * (-a) + b) / (2 * b))

/-- Division truncating towards zero. -/
def tdivI (a : Int) (b : Int) : Int := Int.tdiv a b

/-- Natural square root by bisection on the result's bits: `isqrtAux k n r` settles bits `k − 1 … 0` of the root. -/
def isqrtAux : Nat → Nat → Nat → Nat
  | 0, _, r => r
  | k + 1, n, r => if (r + 2 ^ k) * (r + 2 ^ k) ≤ n then isqrtAux k n (r + 2 ^ k) else isqrtAux k n r

/-- ⌊√n⌋ for n below 2^240. -/
def isqrt (n : Nat) : Nat := isqrtAux 120 n 0

/-- The value a sparse map holds at index `a`. -/
def rget : RegMap → Nat → Word
  | [], _ => 0
  | (k, v) :: t, a => if k = a then v else rget t a

/-- The entries of `m` whose index satisfies `p`. -/
def rfilter (p : Nat → Bool) (m : RegMap) : RegMap := m.filter (fun e => p e.1)

/-- A sparse map with a value other than zero put at index `a`. -/
def rput : RegMap → Nat → Word → RegMap
  | [], a, v => [(a, v)]
  | (k, w) :: t, a, v =>
    if a < k then (a, v) :: (k, w) :: t else if a = k then (a, v) :: t else (k, w) :: rput t a v

/-- A sparse map with index `a` set to `v`, kept in canonical form: zero is not listed. -/
def rset (m : RegMap) (a : Nat) (v : Word) : RegMap := if v = 0 then rfilter (· != a) m else rput m a v

/-- Every entry of `src` written into `dst`. -/
def rmerge (src dst : RegMap) : RegMap := src.foldr (fun e m => rset m e.1 e.2) dst

/-- `dst` with every index of `p` taken from `src` (unlisted in `src`: zero). -/
def rcopy (p : Nat → Bool) (src dst : RegMap) : RegMap := rmerge (rfilter p src) (rfilter (fun a => !p a) dst)

/-- Indexes rise strictly above the bound. -/
def RisesFrom : Nat → RegMap → Bool
  | _, [] => true
  | b, (k, v) :: t => decide (b ≤ k) && decide (v ≠ 0) && RisesFrom (k + 1) t

/-- The canonical form of a sparse map: strictly rising indexes, no zero entry. -/
def RegMap.wf (m : RegMap) : Bool := RisesFrom 0 m

/-- Element `i` of a vector replaced. -/
def vset {α : Type} {n : Nat} (v : Vector α n) (i : Fin n) (x : α) : Vector α n := v.set i.val x i.isLt

/-- Element `i` of a vector changed by `f`. -/
def vmod {α : Type} {n : Nat} (v : Vector α n) (i : Fin n) (f : α → α) : Vector α n := v.set i.val (f v[i]) i.isLt

/-- Element `i` of a vector, or `d` past its end. -/
def vgetD {α : Type} {n : Nat} (v : Vector α n) (i : Nat) (d : α) : α := if h : i < n then v[i] else d

/-- Element `i` of a vector replaced; unchanged past its end. -/
def vsetN {α : Type} {n : Nat} (v : Vector α n) (i : Nat) (x : α) : Vector α n := if h : i < n then v.set i x h else v

/-- Element `i` of a vector changed by `f`; unchanged past its end. -/
def vmodN {α : Type} {n : Nat} (v : Vector α n) (i : Nat) (f : α → α) : Vector α n :=
  if h : i < n then v.set i (f v[i]) h else v

/-- The little-endian number a list of bytes spells. -/
def leNat : List Byte → Nat
  | [] => 0
  | b :: t => b.toNat + 256 * leNat t

/-- The `n` little-endian bytes of a number. -/
def leBytes : Nat → Nat → List Byte
  | 0, _ => []
  | n + 1, v => BitVec.ofNat 8 v :: leBytes n (v / 256)

/-- `n` bytes from offset `o` of a list, read little-endian. -/
def leAt (l : List Byte) (o n : Nat) : Nat := leNat ((l.drop o).take n)

/-- One CRC-32C step over a bit already folded into the register (R82: polynomial 0x1EDC_6F41 reflected). -/
def crc32cBit (c : Nat) : Nat := if c % 2 = 1 then (c / 2) ^^^ 0x82F63B78 else c / 2

/-- The CRC-32C register after one more byte. -/
def crc32cByte (c : Nat) (b : Byte) : Nat :=
  crc32cBit (crc32cBit (crc32cBit (crc32cBit (crc32cBit (crc32cBit (crc32cBit (crc32cBit (c ^^^ b.toNat))))))))

/-- The CRC-32C register after a list of bytes. -/
def crc32cReg (c : Nat) (l : List Byte) : Nat := l.foldl crc32cByte c

/-- R82: CRC-32C, initial value 0xFFFF_FFFF, final XOR 0xFFFF_FFFF. -/
def crc32c (l : List Byte) : Nat := crc32cReg 0xFFFFFFFF l ^^^ 0xFFFFFFFF

/-- The numbers `0 … n − 1`. -/
def upto (n : Nat) : List Nat := List.range n

/-- A flag as a bit at `n`. -/
def bitAt (n : Nat) (b : Bool) : Nat := if b then 2 ^ n else 0

end Sys2Proof.Machine
end

