-- ==== Sys2Proof/Values.lean ====
section
/-! DEFINITION. The values commands carry: descriptors, images and calibration sets, capability pages and blocks, error and
statistics records, and the records of the forwarding stream. -/
namespace Sys2Proof

/-- The roles of R8 and R48, nested operator < installer < maker. -/
inductive Role | operator | installer | maker
deriving DecidableEq, Repr

/-- Who performs a register access: one of the management sessions 0–4 (R48), or the host through PCIe BAR0 (R69). -/
inductive Port
  | session (n : Fin 5)
  | host
deriving DecidableEq, Repr

/-- The islands of R10. -/
inductive Island
  | sup | ing | bar (b : Fin 8) | ltm | lnk | tbl | mem | vis | chl | mot | thm
deriving DecidableEq, Repr

/-- The commit groups of R353. -/
inductive Group
  | lyrCtl (b : Fin 8) | tonOfs (b : Fin 8) | nzmGeom (b : Fin 8) | nzmCfg (b : Fin 8)
  | encSrc | encCfg (ch : Fin 4)
  | ltmGeom | ltmTiming | ltmGov
  | lnkCfg (n : Fin 40)
  | memCtl
  | visAce | visCam (k : Fin 8) | visSens (k : Fin 8)
  | chlLaw
  | motCfg (a : Fin 16)
  | lmpCfg
  | timPulse (k : Fin 4)
  | padCfg
deriving DecidableEq, Repr

/-- A ring descriptor (R71). -/
structure Desc where
  /-- Bytes 0–7: payload address in host memory. -/
  addr : BitVec 64 := 0
  /-- Bytes 8–11: payload length. -/
  len : Nat := 0
  /-- Bytes 12–13: job handle. -/
  handle : BitVec 16 := 0
  /-- Bytes 14–15: object number. -/
  obj : Nat := 0
  /-- Byte 16: operation code. -/
  op : Byte := 0
  /-- Byte 17: FLAGS. -/
  flags : Byte := 0
deriving DecidableEq, Repr

/-- G5-DDR population of the device or of an image header (R41, R193). -/
structure Population where
  /-- Bit c: channel c carries devices. -/
  chans : BitVec 8 := 0
  /-- Ranks of each channel, 1 or 2. -/
  ranks : Vector Nat 8 := Vector.replicate 8 1
  /-- Density of one device of each channel, in Gbit. -/
  gbit : Vector Nat 8 := Vector.replicate 8 16
deriving DecidableEq, Repr

/-- The channels of a population, ascending. -/
def Population.list (p : Population) : List (Fin 8) := (List.finRange 8).filter (fun c => p.chans.getLsbD c.val)

/-- R194: every channel named has the same ranks and density. -/
def Population.equal (p : Population) : Bool :=
  p.list.all (fun c => p.list.all (fun d => p.ranks[c] == p.ranks[d] && p.gbit[c] == p.gbit[d]))

/-- A calibration set (R44), as data.  Registers are keyed by their configuration address. -/
structure CalSet where
  /-- Sequence number (R45). -/
  seq : Word := 0
  /-- True when the copy's CRC-32C holds. -/
  crcOk : Bool := true
  /-- Factory diode offset in 1/16 °C. -/
  diodeOfs : Int := 0
  /-- Factory ADC gains and DAC trims. -/
  factory : RegMap := []
  /-- Equaliser starting points, lanes 0–39 Barchan, 40–51 Table: factory trims. -/
  eqStart : RegMap := []
  /-- Lane equaliser adaptation results, by the same numbers. -/
  eq : RegMap := []
  /-- Per bar: correction entry of each column. -/
  corr : Vector RegMap 8 := Vector.replicate 8 []
  /-- Per bar: tone offsets O[0..16], as `TON_OFS` fields. -/
  tone : Vector RegMap 8 := Vector.replicate 8 []
  /-- Per bar: fire delay trim C[b], signed, in 1/64 line. -/
  trim : Vector Int 8 := Vector.replicate 8 0
  /-- Encoder offset, gain and phase registers by address. -/
  enc : RegMap := []
  /-- Per camera: white reference, per column. -/
  white : Vector RegMap 8 := Vector.replicate 8 []
  /-- Light-sensor gains by register address. -/
  ls : RegMap := []
  /-- Temperature of each unit's last calibration, 1/16 °C in 32 bits, by item × 64 + unit (R240). -/
  tlast : RegMap := []
  /-- Whole size in bytes. -/
  bytes : Nat := 0
deriving DecidableEq, Repr

/-- A configuration image (R41), as data: the sections the manual lists, with the outcome of the two CRC checks. -/
structure Image where
  hdrCrcOk : Bool := true
  bodyCrcOk : Bool := true
  /-- Format version. -/
  format : Nat := 1
  part : Nat := 0x0820
  die : Nat := 2
  /-- Whole size in bytes. -/
  bytes : Nat := 0
  seq : Word := 0
  pop : Population := {}
  /-- Press limits checked against R2: bars, heads per bar, groups per head, nozzles per group. -/
  bars : Nat := 8
  heads : Nat := 40
  groups : Nat := 42
  nozzles : Nat := 64
  /-- Salt and hash of the operator, installer and maker keys; absent keys cannot be logged into. -/
  keyOp : Option (BitVec 128 × BitVec 256) := none
  keyIn : Option (BitVec 128 × BitVec 256) := none
  keyMk : Option (BitVec 128 × BitVec 256) := none
  /-- Supervisor firmware. -/
  firmware : List Byte := []
  /-- Register image: address–value pairs of every field whose reset is "Image". -/
  regs : RegMap := []
  /-- Head-type descriptor window, by word index. -/
  desc : RegMap := []
  /-- Screening matrices, per bar, by word index. -/
  matrix : Vector RegMap 8 := Vector.replicate 8 []
  /-- Tone curves, per bar, by word index. -/
  tone : Vector RegMap 8 := Vector.replicate 8 []
  /-- Motion segment tables, per axis, by word index. -/
  seg : Vector RegMap 16 := Vector.replicate 16 []
  /-- Linearisation curves, per camera, by knot (R222). -/
  curve : Vector RegMap 8 := Vector.replicate 8 []
  /-- G5-DDR delay sets, with values for every channel (R201): key ((set × 8 + channel) × 0x2000 + offset in the channel's block). -/
  delay : RegMap := []
deriving DecidableEq, Repr

/-- What the serial NOR flash reports at `BOOT` (R39): its size in MiB and its erase block in KiB. -/
structure NvmDev where
  sizeMiB : Nat := 64
  eraseKiB : Nat := 64
deriving DecidableEq, Repr

/-- R39: the size and the erase block of the flashes that are supported. -/
def NvmDev.fits (d : NvmDev) : Bool :=
  (decide (d.sizeMiB = 64) || decide (d.sizeMiB = 128) || decide (d.sizeMiB = 256)) && decide (d.eraseKiB = 64)

/-- What `BOOT` finds outside the device (R37, R39, R42, R44, R304). -/
structure BootEnv where
  /-- What the flash reports; none: it does not answer. -/
  nvm : Option NvmDev := some {}
  /-- G5-DDR devices fitted. -/
  pop : Population := {}
  /-- R194: ranks (channel, rank) that do not return the pattern, and ranks that raise a command/address parity alert during
  initialisation and again after one repeat. -/
  noPattern : List (Nat × Nat) := []
  alerts : List (Nat × Nat) := []
  /-- Raw diode reading and on-die bandgap reference, in 1/16 °C (R304). -/
  diode : Int := 0
  bandgap : Int := 0
  /-- Encoder ADC offsets measured, per channel: SIN, COS. -/
  encAdc : Vector (Int × Int × Int) 4 := Vector.replicate 4 (0, 0, 0)
  /-- Lamp photodiode dark levels measured. -/
  psDark : Vector Nat 16 := Vector.replicate 16 0
  /-- Objects of the layer store that read otherwise than they were written: tag, object number, the bytes read (R33). -/
  store : List (Nat × Nat × List Byte) := []
deriving DecidableEq, Repr

/-- The service functions a `SYS_MODE_REQ` code 0x5 starts (R24, R26): mechanics (purge, wipe, capping), a calibration
print, or a lane test. -/
inductive ServiceFn | mechanics | calPrint | laneTest
deriving DecidableEq, Repr

/-- The head-drive module's two capability pages (R169). -/
structure ModPages where
  version : Byte := 1
  modId : Word := 0
  serial : Word := 0
  heads : Fin 9 := 0
  rates : BitVec 3 := 7
  maxRate : Word := 0
  depth : BitVec 16 := 0
  prep : BitVec 16 := 0
  patErr : Word := 0
  types : Vector (BitVec 16) 8 := Vector.replicate 8 0
deriving DecidableEq, Repr

/-- The other seat's capability page on a Table lane (R280). -/
structure SeatPage where
  version : Byte := 1
  seat : Bool := false
  imgSeq : Word := 0
  part : Nat := 0x0820
  die : Nat := 2
  deal : BitVec 32 := 0
  twin : Bool := true
deriving DecidableEq, Repr

/-- The capability pages a lane receives. -/
inductive CapPages
  | module (p : ModPages)
  | seat (p : SeatPage)
deriving DecidableEq, Repr

/-- The header symbol of a received block (R165, R166): the block kinds, K30.7, and anything else. -/
inductive RxHdr
  | idle | line | timing | status | control | training | capability | reserved | invalid
deriving DecidableEq, Repr

/-- An upstream head status block (R178). -/
structure StatusBlock where
  /-- SUB: heads 0–3, or 4–7. -/
  upper : Bool := false
  dAcc : BitVec 32 := 0
  active : Bool := true
  fault : Bool := false
  /-- T and V of four heads. -/
  tv : Vector (BitVec 16 × BitVec 16) 4 := Vector.replicate 4 (0x8000, 0xFFFF)
  lastRec : Word := 0
deriving DecidableEq, Repr

/-- An upstream report (R178). -/
structure ModReport where
  dAcc : BitVec 32 := 0
  active : Bool := true
  /-- KIND: 1 record rejected, 2 timing set rejected, 3 gap rule; others do not occur. -/
  kind : Fin 4 := 1
  mask : Byte := 0
  index : Word := 0
  seq : Byte := 0
  count : BitVec 16 := 0
deriving DecidableEq, Repr

/-- An access that needed correction (R204). -/
structure CorrErr where
  /-- Channel-local address of the access of 128 B. -/
  ofs : BitVec 36 := 0
  /-- The errors of its beats, in order: the bits of each 80-bit beat that differ from the code word written; beats not listed
  have none. -/
  beats : List (BitVec 80) := []
  /-- 0 request, 1 scrub, 2 rebuild. -/
  src : Fin 3 := 0
deriving DecidableEq, Repr

/-- An uncorrectable error (R206): a data error, or a command/address parity alert. -/
structure UncorrErr where
  /-- Channel-local address of the access, or of the command in flight. -/
  ofs : BitVec 36 := 0
  parity : Bool := false
  subch : Bool := false
  src : Fin 3 := 0
  /-- The errors of its beats, as in `CorrErr`. -/
  beats : List (BitVec 80) := []
  /-- The command in flight: 0 read, 1 write, 2 activate, 3 precharge, 4 refresh, 5 mode register. -/
  cmd : Fin 6 := 0
deriving DecidableEq, Repr

/-- What the code of R203 makes of one beat: no error, one symbol corrected, or an error it cannot correct. -/
inductive BeatVerdict | clean | fixed (k : Fin 20) | bad
deriving DecidableEq, Repr, Inhabited

/-- An event record (R9). -/
structure EventRec where
  code : Nat := 0
  bar : Nat := 15
  line : Nat := 0
  ns : Nat := 0
  sec : Nat := 0
  arg : Nat := 0
deriving DecidableEq, Repr

/-- One lane record: the screened data of the lane's heads for one print line (R57, R129). -/
structure LaneRec where
  /-- Print line index. -/
  line : Nat := 0
  /-- Record bytes, head by head. -/
  data : List Byte := []
deriving DecidableEq, Repr

/-- A piece of screened data for the print-record archive (R84, R129). -/
structure ArchPiece where
  tag : Nat := 0
  bar : Nat := 0
  line : Nat := 0
  data : List Byte := []
  /-- Last piece of the line. -/
  last : Bool := false
deriving DecidableEq, Repr

/-- A patch entry (R226, KIND 0x1). -/
structure PatchEnt where
  roi : Nat := 0
  ch : Nat := 0
  v : Nat := 0
  w : Nat := 0
  d : Nat := 0
  dev : Nat := 0
  pixels : Nat := 0
  sat : Nat := 0
deriving DecidableEq, Repr

/-- A strip entry (R226, KIND 0x2): D, offset in 1/16 pixel, OUT_SUSPECT, CLIPPED. -/
structure StripEnt where
  d : Nat := 0
  ofs : Int := 0
  suspect : Bool := false
  clipped : Bool := false
deriving DecidableEq, Repr

/-- A mark entry (R226, KIND 0x3), offsets in 1/16 pixel. -/
structure MarkEnt where
  roi : Nat := 0
  bar : Nat := 0
  dx : Int := 0
  dy : Int := 0
  pixels : Nat := 0
deriving DecidableEq, Repr

/-- The payload of a statistics record, by KIND (R226). -/
inductive StatBody
  | frame (sec ns g exps sat errs : Nat)
  | patch (l : List PatchEnt)
  | strip (roi bar col0 : Nat) (l : List StripEnt)
  | mark (l : List MarkEnt)
  /-- VERDICT (0 PASS, 1 FAIL, 2 NONE), windows checked, lowest counts, window pixels, best shift. -/
  | ace (verdict windows : Nat) (mis pix : Nat × Nat) (dx dy : Int)
deriving DecidableEq, Repr

/-- FLAGS [5:0] of a statistics record (R219, R226). -/
structure GrpFlags where
  missing : Bool := false
  late : Bool := false
  short : Bool := false
  long : Bool := false
  crcErr : Bool := false
  portRet : Bool := false
deriving DecidableEq, Repr

/-- A statistics record of 1,024 bytes (R226), as data. -/
structure StatRec where
  cam : Nat := 0
  flags : GrpFlags := {}
  /-- FLAGS [6] LAST and [7] STRIP_OK. -/
  last : Bool := false
  stripOk : Bool := false
  frame : Nat := 0
  handle : BitVec 16 := 0
  seq : Nat := 0
  /-- IDX0; all ones: unknown. -/
  idx0 : Nat := 0
  lines : Nat := 0
  setId : Nat := 0
  /-- WAIT in 10 µs. -/
  wait : Nat := 0
  rep : Nat := 0
  body : StatBody
deriving DecidableEq, Repr

/-- A segment of a raw camera frame in queues 48–51: the frame lines that end in it. -/
structure FrameSeg where
  cam : Nat := 0
  frame : Nat := 0
  exp : Nat := 0
  rows : List (List Nat) := []
  last : Bool := false
deriving DecidableEq, Repr

/-- What one lamp frame brings in (R264, R269): the status words from `LMP_SDO`, highest channel of the last device first
turned to channel order; the photodiode means over the frame; the readings of the light and temperature sensors (none: not
acknowledged). -/
structure LampIn where
  status : List (BitVec 24) := []
  pd : Vector (BitVec 12) 16 := Vector.replicate 16 0
  ls : Vector (Option (Vector (BitVec 16) 3)) 16 := Vector.replicate 16 none
  ts : Vector (Option (BitVec 16)) 15 := Vector.replicate 15 none
deriving DecidableEq, Repr

/-- What a calibration run found (R241): a lane's equaliser point and eye; a light sensor's mean counts per colour.  An
encoder's run and a white reference are computed from what the seat itself has sampled. -/
inductive CalFound
  | own
  | lane (eq : Word) (phases : BitVec 64) (volts : BitVec 128)
  | light (mean : Vector (BitVec 16) 3)
deriving DecidableEq, Repr

/-- One entry of a Caravan queue (R56). -/
inductive Entry
  | lane (r : LaneRec)
  | chunk (bytes : List Byte)
  | frame (f : FrameSeg)
  | stats (r : StatRec)
  | arch (p : ArchPiece)
  | evt (e : EventRec)
deriving DecidableEq, Repr

/-- A request of `SYS_MODE_REQ` (R26). -/
structure ModeReq where
  code : Nat := 0
  handle : BitVec 16 := 0
  fn : ServiceFn := .mechanics
  /-- The session that wrote it, and its role; none: a pin or the device itself. -/
  who : Option (Nat × Role) := none
deriving DecidableEq, Repr

/-- A colour hold act as the holder forwards it (R237). -/
inductive HoldAct
  | gain (bar col entry : Nat)
  | knot (bar i : Nat) (val : Int)
  | trim (bar : Nat) (val : Int)
  | out (bar col : Nat)
deriving DecidableEq, Repr

/-- What a forwarding record carries (R290). -/
inductive FwdItem
  | desc (ring : Fin 8) (d : Desc) (payload : List Byte)
  /-- A job event: kinds 1 to 3 of R72, and 4 for an object that became unusable. -/
  | job (handle : BitVec 16) (kind status obj : Nat)
  | write (by_ : Nat) (role : Role) (addr : Nat) (data : Word) (line : Nat)
  | request (r : ModeReq) (g : Nat)
  | commit (g : Group) (line : Nat)
  | hold (a : HoldAct) (line : Nat)
  | stats (r : StatRec)
  | white (cam : Nat) (vals : RegMap) (frame : Nat)
  | lamp (chain : Fin 4) (i : LampIn)
  | gpio (pin : Nat) (level : Bool) (g : Nat)
  | front (lines : List Nat)
  | mode (m : Nat) (cold : Bool)
deriving DecidableEq, Repr

/-- A record of the forwarding stream (R282). -/
structure FwdRec where
  fseq : BitVec 32 := 0
  item : FwdItem
deriving DecidableEq, Repr

end Sys2Proof
end

