-- ==== Sys2Proof/Machine/Blocks.lean ====
section
/-! DEFINITION. The blocks of a seat's state: every register, queue, buffer, counter, mode and pin the manual gives the
QP820, block by block, as plain data. -/
namespace Sys2Proof.Machine

/-! ### Modes, requests and stops (R24–R28) -/

/-- The operating modes of R24. -/
inductive Mode | boot | idle | standby | ready | print | service | halt | frozen
deriving DecidableEq, Repr

/-- The three stops of R18, from least to most severe. -/
inductive StopKind | haltRamp | orderly | emergency
deriving DecidableEq, Repr

/-- A stop in force: its ramp and its HALT_CAUSE code (R25). -/
structure Stop where
  kind : StopKind
  cause : Nat
deriving DecidableEq, Repr

/-- What the sequences of R261 are being run for. -/
inductive Flow
  /-- Nothing. -/
  | none
  /-- Entry to `READY`: UNCAP, then LOWER. -/
  | enter
  /-- Leaving `READY` or `SERVICE` for `IDLE/WARM`: LIFT, then CAP. -/
  | leave
  /-- An orderly stop: LIFT, then CAP. -/
  | stop
  /-- After an emergency ramp, in `HALT`: LIFT, then CAP. -/
  | halt
deriving DecidableEq, Repr

/-- How far a run of sequences is. -/
inductive SeqStep | none | uncap | lower | waitLift | lift | waitCap | cap | over
deriving DecidableEq, Repr

/-- A job bound on its bars, from the bind until it is unbound, retires or fails (R357). -/
structure BJob where
  handle : BitVec 16 := 0
  /-- Bars of the job, fixed at the bind. -/
  bars : BitVec 8 := 0
  /-- `LTM_JOB_GAP` latched at the bind (R150). -/
  gap : Nat := 0
  /-- First print line S, once known (R150). -/
  start : Option Nat := none
  /-- Job lines each bar has composed. -/
  done : Vector Nat 8 := Vector.replicate 8 0
deriving DecidableEq, Repr

/-- SYS: modes, requests, stops, boot and reset status (R24–R38). -/
structure Sys where
  /-- Supplies valid (R315). -/
  powered : Bool := true
  /-- `RESET_N` held low after a recognised low (R347). -/
  inReset : Bool := false
  /-- R25 MODE. -/
  mode : Mode := .boot
  /-- R25 COLD. -/
  cold : Bool := false
  /-- Entry to `IDLE/COLD` deferred until a running calibration completes (R28). -/
  coldPend : Bool := false
  /-- A wake from `IDLE/COLD` is in progress (R30). -/
  waking : Bool := false
  /-- Accesses that complete after the wake (R30): session, address, and the word of a write. -/
  afterWake : List (Fin 5 × Nat × Option Word) := []
  /-- R25 SHADOW, on a standby, and whether it is COLD. -/
  shadow : Mode := .boot
  shadowCold : Bool := false
  /-- The model's own mark: a standby computes unseen what the holder's mode makes it compute; no EVT_MODE is raised. -/
  unseen : Bool := false
  /-- R25 HALT_CAUSE. -/
  haltCause : Nat := 0
  /-- R25 FROZEN_CH. -/
  frozenCh : BitVec 8 := 0
  /-- Stops in force, first to come into force first (R18, R25). -/
  stops : List Stop := []
  /-- R25 STOPPING. -/
  stopping : Bool := false
  /-- Firing ends at the next line boundary of bar 0. -/
  endFiring : Bool := false
  /-- An uncorrectable error waits for the line boundary at which the seat enters `FROZEN` (R20). -/
  freezePend : Bool := false
  /-- A request accepted and not yet acted on (R25 REQ_PEND, R27). -/
  req : Option ModeReq := none
  /-- Jobs bound on their bars, oldest first (R26, R357). -/
  jobs : List BJob := []
  /-- What the sequences of R261 are run for, and how far they are. -/
  flow : Flow := .none
  seqStep : SeqStep := .none
  /-- Service function running (R24). -/
  svc : Option ServiceFn := none
  /-- `SYS_BOOT_STAT` PHASE, ERR, DIR_BAD. -/
  phase : Nat := 0
  bootErr : Nat := 0
  dirBad : Nat := 0
  /-- This `BOOT` follows a hard reset, so the directory is rebuilt (R33). -/
  hardBoot : Bool := false
  /-- `SYS_RESET_CAUSE` KIND and ISLAND. -/
  resetKind : Nat := 0
  resetIsland : Nat := 0
  /-- 64-bit die serial from factory fuses (`SYS_SERIAL_LO`, `_HI`). -/
  serial : BitVec 64 := 0
  /-- The word the last read returned to its session. -/
  resp : Word := 0
deriving DecidableEq, Repr

/-! ### Sessions, flash and audit (R39–R55) -/

/-- A run of table-window writes that audits as one burst (R50). -/
structure Burst where
  first : Nat := 0
  next : Nat := 0
  count : Nat := 0
  crc : Nat := 0xFFFFFFFF
  role : Role := .installer
deriving DecidableEq, Repr

/-- A management session (R48). -/
structure Session where
  role : Option Role := none
  /-- Logins within 1 s of a failed one are ignored. -/
  locked : Bool := false
  /-- HI words latched by this session's last LO reads, by HI address (R354). -/
  latch : RegMap := []
  /-- HI addresses whose LO word this session has read since it took its role. -/
  latched : List Nat := []
  burst : Option Burst := none
deriving DecidableEq, Repr

/-- An audit record (R51), without its CRC, which is computed over these fields. -/
structure AuditRec where
  seq : Nat := 0
  sec : Nat := 0
  nsec : Nat := 0
  kind : Nat := 0
  who : Nat := 0
  addr : Nat := 0
  a : Nat := 0
  b : Nat := 0
deriving DecidableEq, Repr

/-- A record of the flash's record pool (R46). -/
structure PoolRec where
  kind : Nat := 0
  seq : Nat := 0
  body : RegMap := []
  /-- The record's CRC-32C holds. -/
  crcOk : Bool := true
deriving DecidableEq, Repr

/-- A 64 KiB block of the record pool: header and records (R46). -/
structure PoolBlock where
  /-- Record type of the block's header; 0: erased. -/
  kind : Nat := 0
  erases : Nat := 0
  seq : Nat := 0
  recs : List PoolRec := []
deriving DecidableEq, Repr

/-- A calibration commit in progress (R45): the set being written, the copy it goes to, who started it. -/
structure CalRun where
  set : CalSet := {}
  copy : Fin 2 := 0
  who : Nat := 0
  /-- The snapshot is taken: in `PRINT` it waits for the line boundary of bar 0. -/
  taken : Bool := false
  verified : Bool := false
deriving DecidableEq, Repr

/-- CFG: sessions, the serial NOR flash and the audit ring (R39–R52). -/
structure Cfg where
  sess : Vector Session 5 := Vector.replicate 5 {}
  /-- Image banks A and B; none: erased or partly written. -/
  banks : Vector (Option Image) 2 := Vector.replicate 2 none
  /-- Image banks that a transfer was writing when it was cut short (R47). -/
  part : Vector Bool 2 := Vector.replicate 2 false
  /-- Calibration copies A and B; none: erased. -/
  copies : Vector (Option CalSet) 2 := Vector.replicate 2 none
  /-- Size of the flash in MiB (R39, R40). -/
  nvmMiB : Nat := 64
  /-- Record pool. -/
  pool : List PoolBlock := []
  /-- Records, by type and number, whose writing may not be over (R46). -/
  recOpen : List (Nat × Nat) := []
  /-- Image loaded at `BOOT`. -/
  image : Image := {}
  bank : Fin 2 := 0
  fallback : Bool := false
  /-- EVT_IMG_FALLBACK is due once `IDLE` is reached (R42). -/
  fbPend : Bool := false
  inactValid : Bool := false
  selPend : Bool := false
  /-- Calibration set durable in NVM, and values not held by registers. -/
  cal : CalSet := {}
  /-- Calibration commit running. -/
  run : Option CalRun := none
  /-- Image transfer written into the inactive bank and not yet verified. -/
  xfer : Option Image := none
  /-- Image transfer waiting behind a calibration commit (R47). -/
  xferQ : Option Image := none
  /-- A calibration set transferred into staging through the management protocol (R45). -/
  staged : Option CalSet := none
  /-- `CFG_NVM_STAT` OP and RESULT, and `SYS_NVM_BUSY`. -/
  op : Nat := 0
  result : Nat := 0
  busy : Bool := false
  /-- A calibration commit is due at the next job retire (R45). -/
  autoDue : Bool := false
  /-- Audit ring, oldest first, and staging area (R52). -/
  ring : List AuditRec := []
  staging : List AuditRec := []
  /-- Records that found the staging area full and wait for room in it (R52). -/
  auditWait : List AuditRec := []
  /-- Writes held while the staging area is full (R52): session, address, word. -/
  heldWrites : List (Fin 5 × Nat × Word) := []
  /-- Burst of forwarded window writes, and the session that wrote them on the holder (R50). -/
  fwdBurst : Option (Nat × Burst) := none
  /-- Sequence number of the next audit record. -/
  auditSeq : Nat := 0
  /-- `CFG_AUDIT_HEAD`. -/
  auditHead : Nat := 0
deriving DecidableEq, Repr

/-- Configuration registers, keyed by byte address: values written (RW), the three sets of R53 (RWG), and the registers
hardware writes (counters, flags, captures). -/
structure Regs where
  rw : RegMap := []
  shadow : RegMap := []
  pend : RegMap := []
  act : RegMap := []
  hw : RegMap := []
  /-- Groups with PEND = 1. -/
  pending : List Group := []
deriving DecidableEq, Repr

/-! ### Caravan queues (R56–R66) -/

/-- One Caravan queue, each part oldest entry first. -/
structure Queue where
  crest : List Entry := []
  dune : List Entry := []
  tail : List Entry := []
  /-- The entry a stalled producer holds (R59). -/
  held : Option Entry := none
  /-- Records dropped and not yet reported (R59). -/
  lost : Nat := 0
  /-- `CVQ_STAT`.RING_BAD (R66). -/
  ringBad : Bool := false
  /-- Level notices signalled to the supervisor (R61). -/
  signals : Nat := 0
deriving DecidableEq, Repr

/-! ### Ingest, jobs, Dune streams and archives (R67–R86) -/

/-- A completion entry (R72). -/
structure Cpl where
  handle : BitVec 16 := 0
  obj : Nat := 0xFFFF
  kind : Nat := 0
  status : Nat := 0
  detail : Nat := 0
  phase : Bool := true
  index : Nat := 0
deriving DecidableEq, Repr

/-- A descriptor fetched and not yet completed. -/
structure Fetched where
  idx : Nat := 0
  d : Desc := {}
  /-- Handle of its completion entry. -/
  handle : BitVec 16 := 0
  /-- Tag of the job a DATA descriptor feeds. -/
  tag : Nat := 0
  /-- Payload bytes not yet handed to the decompressor. -/
  left : Nat := 0
  /-- Stream position of its payload's end, in its object. -/
  upTo : Nat := 0
  /-- Status and DETAIL of its completion. -/
  status : Nat := 0
  detail : Nat := 0
  /-- It begins a new stream of an object whose stream before it is still being decompressed. -/
  again : Bool := false
  /-- Nothing is left to do for it but its completion entry. -/
  done : Bool := false
  /-- It came on the forwarding stream: no completion entry is this seat's to write (R68). -/
  fwd : Bool := false
  /-- Entries that follow its completion directly (R72). -/
  after : List Cpl := []
deriving DecidableEq, Repr

/-- The decompressor's state for one object. -/
structure Decoder where
  /-- Stream bytes taken from the queue and not yet decoded. -/
  buf : List Byte := []
  /-- Stream bytes pulled so far, and decoded so far. -/
  pulled : Nat := 0
  pos : Nat := 0
  /-- LAST_SEG marks counted. -/
  segs : Nat := 0
  /-- An end block has been decoded: total and CRC it carries. -/
  fin : Option (Nat × Nat) := none
  /-- The payload with LAST has been described. -/
  last : Bool := false
  /-- Decompression waits for reservation space (R77). -/
  wait : Bool := false
deriving DecidableEq, Repr

/-- One ring (R69, R70). -/
structure Ring where
  base : BitVec 64 := 0
  log2 : Nat := 4
  cplBase : BitVec 64 := 0
  vector : Nat := 0
  prod : BitVec 16 := 0
  cons : BitVec 16 := 0
  ack : BitVec 16 := 0
  en : Bool := false
  err : Bool := false
  code : Nat := 0
  /-- Next descriptor index to fetch. -/
  fetch : BitVec 16 := 0
  /-- Descriptors fetched and not yet completed, oldest first. -/
  out : List Fetched := []
  /-- Completion entries written since the completion ring (re)started. -/
  written : Nat := 0
  /-- Completion entries written and not yet acknowledged, oldest first. -/
  cpl : List Cpl := []
  /-- Completion entries that wait for room or for the host to enable the ring (R34, R70). -/
  owed : List Cpl := []
  /-- Payload chunks pulled or to be pulled again that wait for room in the ingest queue (R59, R64). -/
  pull : List (List Byte) := []
deriving DecidableEq, Repr

/-- Job states of R76. -/
inductive JobState | free | opened | staged | bound | printing | ending | failed | aborted
deriving DecidableEq, Repr

/-- An object of a job (R79). -/
structure Obj where
  num : Nat := 0
  /-- 1 arriving, 2 usable, 3 unusable. -/
  st : Nat := 1
  err : Nat := 0
  /-- Failed its CRC-32C or its seal. -/
  crcBad : Bool := false
  cls : Nat := 0
  crc : Nat := 0
  /-- Raw bytes in the layer store. -/
  bytes : List Byte := []
  /-- Offset within the reservation. -/
  ofs : Nat := 0
  /-- Ring its payload uses. -/
  ring : Nat := 0
  /-- Freed after its last use (R77, R98). -/
  freed : Bool := false
  dec : Decoder := {}
deriving DecidableEq, Repr

/-- A run record of the trailer (R84): status 0 printed and archived, 1 void, 2 UNARCHIVED, 3 not printed. -/
structure Run where
  bar : Nat := 0
  first : Nat := 0
  count : Nat := 0
  status : Nat := 0
deriving DecidableEq, Repr

/-- A job (R73–R76, R79). -/
structure Job where
  tag : Nat := 0
  gen : Nat := 0
  st : JobState := .opened
  streaming : Bool := false
  arch : Nat := 0
  status : Nat := 0
  /-- Reservation in MiB. -/
  resMiB : Nat := 0
  archAddr : BitVec 64 := 0
  archSize : Nat := 0
  /-- Length in lines, once known. -/
  lines : Option Nat := none
  printed : Nat := 0
  archBytes : Nat := 0
  ring : Nat := 0
  objs : List Obj := []
  runs : List Run := []
deriving DecidableEq, Repr

/-- A block of an archive stream, as it was written (R80, R83): TYPE, FLAGS, the raw bytes it stands for (of an end block its
payload), and the bytes of its payload.  Which commands a coded block holds the manual leaves to the compressor. -/
structure ArchBlock where
  type : Nat := 1
  flush : Bool := false
  lastSeg : Bool := false
  raw : List Byte := []
  cod : Nat := 0
deriving DecidableEq, Repr

/-- A compressor context (R83). -/
structure CmpCtx where
  tag : Nat := 0
  active : Bool := false
  verify : Bool := false
  /-- Raw bytes of the block being filled. -/
  fill : List Byte := []
  /-- Bytes in and out beyond whole MiB already counted. -/
  inRem : Nat := 0
  outRem : Nat := 0
  /-- Raw length and CRC-32C register of the stream. -/
  raw : Nat := 0
  crc : Nat := 0xFFFFFFFF
  /-- Block written last. -/
  blk : Option ArchBlock := none
deriving DecidableEq, Repr

/-- ING and CMP: link, rings, job directory, compressor (R67–R86). -/
structure Ing where
  gen : Nat := 0
  width : Nat := 0
  mps : Nat := 0
  /-- Bus Master Enable (R67). -/
  bme : Bool := false
  rings : Vector Ring 8 := Vector.replicate 8 {}
  /-- Jobs outside FREE, by rising tag. -/
  jobs : List Job := []
  /-- Generation of every tag, and final status of the job that had it last, by tag. -/
  gens : RegMap := []
  finals : RegMap := []
  /-- Layer store refused because it extends beyond CAP. -/
  lsBad : Bool := false
  ctx : Vector CmpCtx 6 := Vector.replicate 6 {}
  /-- Trailer written last (R84): job and its runs. -/
  trailer : Option (BitVec 16 × List Run) := none
  /-- MSI-X vectors signalled, oldest first. -/
  irqs : List Nat := []
deriving DecidableEq, Repr

/-! ### Bar engines (R87–R130) -/

/-- Results of a slewer visit that wait for line N + 16 (R120). -/
structure Flight where
  block : Nat := 0
  /-- Print line index at whose start the results apply. -/
  due : Nat := 0
  /-- GAIN and OFFSET computed, by column. -/
  vals : RegMap := []
  /-- A write reached the block after the read. -/
  touched : Bool := false
deriving DecidableEq, Repr

/-- A line whose step 4 waits for a donor's sideband entry (R126): what was in force at the line's start. -/
structure MidLine where
  /-- Print line and job line. -/
  line : Nat := 0
  job : Nat := 0
  handle : BitVec 16 := 0
  /-- Values after step 2, by column. -/
  v2 : List Nat := []
  /-- Columns out under R124. -/
  out : List Bool := []
  /-- Head that prints each column. -/
  pick : List Nat := []
  /-- `NZM_COMP` in force. -/
  comp : Word := 0
  /-- The wait has been counted. -/
  counted : Bool := false
deriving DecidableEq, Repr

/-- R126: what a donor writes for one line: print line, substitute bar, SUB_GAIN, columns and values. -/
structure SideEntry where
  line : Nat := 0
  sub : Nat := 0
  gain : Nat := 0
  cols : List (Nat × Nat) := []
deriving DecidableEq, Repr

/-- One bar engine (R87–R130). -/
structure Bar where
  /-- Tone curves, word index curve × 2,048 + knot. -/
  tone : RegMap := []
  /-- Screening matrix window, by word index. -/
  matrix : RegMap := []
  /-- Target and in-force correction tables, by column. -/
  tgt : RegMap := []
  inf : RegMap := []
  /-- Dirty blocks of 1,024 columns. -/
  dirty : List Nat := []
  /-- Tone-offset knots in force, `TON_OFS_NOW`. -/
  oNow : Vector Int 17 := Vector.replicate 17 0
  flight : List Flight := []
  /-- Window writes (column, word, session, role) and colour-hold entries and knots that wait for the next line begun (R119,
  R116). -/
  winQ : List (Nat × Word × Nat × Role) := []
  holdQ : List (Nat × Nat) := []
  knotQ : List (Nat × Int) := []
  /-- Columns whose OUT_LO the colour hold unit sets at the next line begun (R238). -/
  autoQ : List Nat := []
  /-- Job being composed and the job line, `LYR_JOB` and `LYR_LINE`. -/
  job : BitVec 16 := 0
  line : Nat := 0
  /-- Print line whose wait is counted, and the object awaited there (R98). -/
  waitLine : Option Nat := none
  waitObj : Option Nat := none
  /-- Print line whose wait for a slewer read is counted. -/
  slewWait : Option Nat := none
  /-- Bad reference already raised in a slot: first line and object (R97). -/
  bad : Vector (Option (Int × Nat)) 13 := Vector.replicate 13 none
  /-- A line that waits for the sideband. -/
  mid : Option MidLine := none
  /-- Sideband entries written as a donor, oldest line first (R126). -/
  side : List SideEntry := []
  /-- Print line whose wait for the substitute bar is counted. -/
  sideWait : Option Nat := none
  /-- `NZM_STAT`.OUT_COLS is counted from `inf`; this is the run of Ace failures of BAR0 (R109). -/
  aceRun : Nat := 0
  /-- `NZM_STAT`.SUB_OVF. -/
  subOvf : Bool := false
  /-- Lane and archive entries of the line composed that wait for queue room: queue and entry. -/
  outQ : List (Nat × Entry) := []
  /-- F of the last line completed, and bytes fetched and skipped beyond whole MiB (R110). -/
  lastF : Nat := 0
  fetchRem : Nat := 0
  skipRem : Nat := 0
deriving DecidableEq, Repr

/-! ### Encoders (R131–R145) -/

/-- What a calibration run has collected (R138): periods, and of the uncorrected samples the extremes, sums and radii. -/
structure EncRun where
  /-- A period boundary has been seen since the run (re)started. -/
  begun : Bool := false
  periods : Nat := 0
  count : Nat := 0
  maxS : Int := 0
  minS : Int := 0
  maxC : Int := 0
  minC : Int := 0
  sumS : Int := 0
  sumC : Int := 0
  sumSC : Int := 0
  /-- Radius in 1/256 code. -/
  rMax : Nat := 0
  rMin : Nat := 0
  rSum : Nat := 0
deriving DecidableEq, Repr

/-- The calibration of a channel (R138). -/
inductive EncCal
  | none
  | collect (r : EncRun)
  /-- Slewing to SIN_OFS, COS_OFS, GAIN and PHASE; samples since the last step. -/
  | slew (so co gain phase : Int) (n : Nat)
deriving DecidableEq, Repr

/-- An encoder channel (R131–R142). -/
structure EncCh where
  /-- Number of the sampling instant of the last sample (R132). -/
  k : Nat := 0
  /-- A sample has been taken since the channel restarted. -/
  seen : Bool := false
  /-- MOT has been gated since the last sample (R140). -/
  woken : Bool := false
  a : Bool := false
  b : Bool := false
  idx : Bool := false
  /-- Period count, quadrant, phase within it, and what an index or POS_SET added (R136, R139). -/
  n : Int := 0
  q : Nat := 0
  f : Nat := 0
  ofs : Int := 0
  held : Bool := false
  ampFault : Bool := false
  ampBad : Nat := 0
  ampGood : Nat := 0
  ref : Bool := false
  armed : Bool := false
  errSince : Bool := false
  /-- Last direction is backward. -/
  back : Bool := false
  /-- Last step of q: 1, −1, or 0 for none yet. -/
  step : Int := 0
  /-- The direction has changed since the last period boundary. -/
  turned : Bool := false
  /-- The periods timed were timed backward (R142). -/
  timedBack : Bool := false
  /-- POS_SET was applied since the last sample (R145). -/
  posSet : Bool := false
  /-- Radius r in codes. -/
  amp : Nat := 0
  /-- Times of period boundaries since the history cleared, newest first, ns. -/
  marks : List Nat := []
  /-- Periods that must be timed before the speed is valid. -/
  need : Nat := 2
  /-- Last period timed, ns. -/
  period : Nat := 0
  /-- No boundary within `ENC_STILL_TMO`. -/
  still : Bool := false
  cal : EncCal := .none
deriving DecidableEq, Repr

/-- ENC: channels and the web source (R131–R145). -/
structure Enc where
  ch : Vector EncCh 4 := Vector.replicate 4 {}
  /-- Number of the last sampling instant: all channels sample together, every 250 ns (R131, R132). -/
  tick : Nat := 0
  /-- ADC offsets of SIN, COS and IDX measured at power-up (R131). -/
  adc : Vector (Int × Int × Int) 4 := Vector.replicate 4 (0, 0, 0)
  /-- `ENC_WEB_STAT`. -/
  act : Fin 4 := 0
  onAlt : Bool := false
  lost : Bool := false
  /-- P_web in steps, and its fraction carried in 1/65,536 step (R143). -/
  pweb : Int := 0
  frac : Int := 0
  /-- P_max (R141), and whether its limit has been exceeded since entry to `PRINT`. -/
  pmax : Int := 0
  rev : Bool := false
  /-- Jump to be passed to line timing with the next sample (R139). -/
  jump : Int := 0
  /-- Positions on their way to line timing, oldest first: sampling instant in ns, P_web, jump (R132). -/
  fly : List (Nat × Int × Int) := []
deriving DecidableEq, Repr

/-! ### Line timing (R146–R163) -/

/-- What LTM holds for one head (R153–R157). -/
structure LHead where
  /-- Fine delay in force, 1/64 line. -/
  e : Nat := 0
  clamped : Bool := false
  /-- T (1/16 °C) and V (mV) of the last status block, once one has arrived. -/
  tv : Option (Int × Nat) := none
  /-- Lines since the last status block. -/
  since : Nat := 0
  stale : Bool := false
  /-- Widths of levels 1–3 at the last commit. -/
  w : Vector Nat 3 := Vector.replicate 3 0
deriving DecidableEq, Repr

/-- A committed grid line (R148). -/
structure Commit where
  /-- Base fire instant, ns. -/
  f : Rat := 0
  /-- Trigger instant, ns. -/
  trig : Rat := 0
  /-- Line period fixed at the commit, ns. -/
  tline : Rat := 0
  late : Bool := false
deriving DecidableEq, Repr

/-- LTM (R146–R163). -/
structure Ltm where
  /-- Grid line counter. -/
  g : BitVec 48 := 0
  /-- High-water mark H: whole steps and remainder in 1/DEN. -/
  h : Int := 0
  hrem : Nat := 0
  /-- Lines may fire: `PRINT`, a calibration print or a lane test. -/
  armed : Bool := false
  /-- Last samples, newest first: instant in ns, position, jump passed since the sample before. -/
  hist : List (Rat × Int × Int) := []
  fPrev : Option Rat := none
  commit : Option Commit := none
  /-- Limit passed to the web axis, in 10⁻⁶ mm/s; none: no limit. -/
  gov : Option Nat := none
  fill : Nat := 0
  govLane : Nat := 0
  clamp : Bool := false
  late : Bool := false
  defer : Bool := false
  heads : Vector LHead 320 := Vector.replicate 320 {}
  /-- C[b] as received from the colour hold unit. -/
  trim : Vector Int 8 := Vector.replicate 8 0
  /-- The Trump was taken, or LTM reset, and no trigger has come since (R297). -/
  fresh : Bool := false
  /-- Fire points already passed at the next sample become void (R163, R297). -/
  catchUp : Bool := false
  /-- Time of the last sample or trigger in LTM, ns. -/
  now : Rat := 0
deriving DecidableEq, Repr

/-! ### Barchan lanes (R164–R192) -/

/-- The lane states of R167. -/
inductive LaneSt
  | disabled | detect | train | bitlock | symlock | blocklock | cap | active | test | retired
deriving DecidableEq, Repr

/-- An error injection (R190): kind, block type, symbol position, bit, and blocks still to spoil. -/
structure Inject where
  left : Nat := 0
  kind : Nat := 0
  blk : Nat := 0
  pos : Nat := 1
  bit : Nat := 0
deriving DecidableEq, Repr

/-- A block of a lane (R165): header code, the bytes that follow it, the injection that spoiled it, and, once sent, its 32 code
groups (R164). -/
structure Block where
  hdr : Byte
  body : List Byte
  spoiled : Option Inject := none
  code : List (BitVec 10) := []
deriving DecidableEq, Repr

/-- A record on its way out (R175): its print line, the line-data blocks still to send, its RECORD_END. -/
structure OutRec where
  line : Nat
  data : List Block
  fin : Block
deriving DecidableEq, Repr

/-- What a lane has pending at its next block boundary (R177). -/
structure Pend where
  fire : List Block := []
  width : List Block := []
  recs : List OutRec := []
  ctl : List Block := []
deriving DecidableEq, Repr

/-- The raw pattern of a test (R189): PAT, INV and the user pattern in force. -/
structure RawPat where
  pat : Nat
  inv : Bool
  user : Nat
deriving DecidableEq, Repr

/-- One lane: Barchan lanes 0–39, and Table lanes 0–11 as 40–51 (R167, R280). -/
structure Lane where
  st : LaneSt := .disabled
  /-- A receiver answers on the transmit pair. -/
  present : Bool := false
  /-- Detection waits 1 ms for its retry. -/
  retryWait : Bool := false
  /-- The bring-up under way follows a loss of lock in ACTIVE. -/
  relock : Bool := false
  /-- One bring-up has failed (R289). -/
  failedOnce : Bool := false
  /-- Both capability pages of the far end have arrived since CAP was entered. -/
  pages : Bool := false
  capBad : Bool := false
  capErr : Nat := 0
  /-- VERSION of the module page. -/
  version : Nat := 0
  dealAhead : Bool := false
  modActive : Bool := false
  /-- Consecutive status blocks that report this port not active at the seat's own deal (R287). -/
  inactive : Nat := 0
  /-- Running count of the last report (R178). -/
  reports : Option Nat := none
  /-- Validity of the last headers received, newest first, up to 64 (R166). -/
  hdrs : List Bool := []
  /-- A record of a bound job has been sent on the lane (R167). -/
  sent : Bool := false
  /-- Last print line a standby's lane is to take from its crest (R292). -/
  want : Nat := 0
  /-- Record sent last: print line and the instant its RECORD_END ends, in LTM time. -/
  recEnd : Option (Nat × Rat) := none
  /-- Blocks pending (R177), the instant the lane has run to, in LTM time, and the phase of its block boundaries in 0.1 ns. -/
  pend : Pend := {}
  ran : Rat := 0
  phase : Nat := 0
  /-- Running disparity of the transmitter, positive or not (R164). -/
  rd : Bool := false
  /-- The lane's own equaliser has settled (R167, R168). -/
  eqDone : Bool := false
  /-- MAX_RATE of the module page (R169). -/
  maxRate : Nat := 0
  /-- The raw pattern that replaces the lane's traffic (R189). -/
  raw : Option RawPat := none
  inj : Inject := {}
  /-- Eye scan (R191): asked for and not over, its DWELL, and what the last one found. -/
  eyeBusy : Bool := false
  eyeDwell : Nat := 0
  eyeValid : Bool := false
  eyeW : Nat := 0
  eyeH : Nat := 0
  /-- `LNK_PAT_STAT`.SYNC. -/
  patSync : Bool := false
  /-- In the group of R281 (Table lanes). -/
  inGroup : Bool := false
  /-- Blocks put by the last command that sent on the lane, in order. -/
  tx : List Block := []
deriving DecidableEq, Repr

/-- LNK (R164–R192) and the lanes of TBL (R280). -/
structure Lnk where
  /-- Head-type descriptor window, word index type × 64 + word (R171). -/
  desc : RegMap := []
  lanes : Vector Lane 52 := Vector.replicate 52 {}
  /-- Equaliser points in force, by lane (R241, item 0). -/
  eq : RegMap := []
deriving DecidableEq, Repr

/-! ### G5-DDR (R193–R211) -/

/-- The channel states of `MEM_CH_STAT`. -/
inductive MemSt | off | init | active | quiesced | selfRefresh | frozen | retired
deriving DecidableEq, Repr

/-- Where an access lies in a channel (R196). -/
structure DramAddr where
  col : Nat
  bg : Nat
  bank : Nat
  rank : Nat
  row : Nat
deriving DecidableEq, Repr

/-- A request in a channel's queues (R197): a read or a write of n bytes at a channel-local address, its class, and the device time
in ns at which it arrived. -/
structure MemReq where
  write : Bool
  l : Nat
  n : Nat
  cls : Nat
  since : Nat
deriving DecidableEq, Repr

/-- An open row and the device time in ns of its last use (R197). -/
structure OpenRow where
  rank : Nat
  bg : Nat
  bank : Nat
  row : Nat
  used : Nat
deriving DecidableEq, Repr

/-- A G5-DDR channel (R193–R211). -/
structure MemCh where
  st : MemSt := .off
  /-- Delay set in force, and the one a quiesced channel loads. -/
  dly : Nat := 0
  loading : Nat := 0
  /-- Refresh rate in force: 0 1×, 1 2×, 2 4×. -/
  ref : Nat := 0
  /-- Refreshes postponed (R199). -/
  postponed : Nat := 0
  /-- Highest rate the devices demand. -/
  mr4 : Nat := 0
  hot : Bool := false
  /-- Device time in ns of the last EVT_MEM_CE. -/
  ceAt : Option Nat := none
  /-- Accesses of 128 B scrubbed in this pass, and passes done. -/
  scrub : Nat := 0
  passes : Nat := 0
  /-- Requests queued, in order of arrival (R197), and the write drain. -/
  q : List MemReq := []
  drain : Bool := false
  /-- Rows open (R197). -/
  rows : List OpenRow := []
  /-- R200: the LFSR stepped at every activate. -/
  lfsr : BitVec 32 := 0
deriving DecidableEq, Repr

/-- MEM (R193–R211). -/
structure Mem where
  ch : Vector MemCh 8 := Vector.replicate 8 {}
  /-- Band whose delay set every active channel holds. -/
  band : Nat := 0
  /-- The zero fill of a retirement runs; the channels it retires, and the device time in ns at which it was asked for. -/
  fill : List (Fin 8) := []
  fillAt : Nat := 0
  /-- Device time in ns at which an uncorrectable error took the seat into `FROZEN` (R211). -/
  frozeAt : Option Nat := none
deriving DecidableEq, Repr

/-! ### Cameras and vision (R212–R230) -/

/-- A sensor settings set (R218): SET_ID, the first frame it is in force for, exposure times and saturation level. -/
structure SensSet where
  id : Nat := 0
  first : Nat := 0
  time : Vector Nat 3 := Vector.replicate 3 1
  sat : Nat := 0
deriving DecidableEq, Repr

/-- A frame group (R215, R216). -/
structure Grp where
  frame : Nat := 0
  handle : BitVec 16 := 0
  /-- IDX0; none: unknown. -/
  idx0 : Option Nat := none
  rep : Nat := 0xFFFFFFFF
  /-- G and device time at the trigger or, in mode 0, at the frame start. -/
  g : Nat := 0
  sec : Nat := 0
  ns : Nat := 0
  /-- Registers of group VIS_CAM in force when the group opened (R230). -/
  cfg : RegMap := []
  set : SensSet := {}
  /-- Exposures received; the last one's frame is still open. -/
  starts : Nat := 0
  arriving : Bool := false
  /-- Closed: no more frames are expected. -/
  closed : Bool := false
  /-- Lines received per exposure, first exposure first. -/
  lines : List Nat := []
  /-- Exposure and line of every line with a checksum error. -/
  errs : List (Nat × Nat) := []
  /-- Device time in ns of the last exposure's frame start. -/
  came : Nat := 0
  /-- Bytes in the segment being filled, and the lines that end in it. -/
  fill : Nat := 0
  rows : List (List Nat) := []
  /-- Dropped under R221. -/
  dropped : Bool := false
  late : Bool := false
  /-- Wait of R220 in µs. -/
  wait : Nat := 0
  /-- Its pipeline works on it; what the pipeline has taken from the raw queue. -/
  busy : Bool := false
  data : List FrameSeg := []
deriving DecidableEq, Repr

/-- A camera (R212–R218). -/
structure Cam where
  /-- Frame number of the latest group opened. -/
  frame : Nat := 0
  /-- Groups open or waiting, oldest first. -/
  grps : List Grp := []
  /-- Last four settings sets, newest first, and the latest SET_ID committed. -/
  sets : List SensSet := []
  setId : Nat := 0
  /-- A sequence is not yet sent completely; a set sent and waiting for the first frame start after it. -/
  pend : Bool := false
  sent : Option SensSet := none
  /-- Frame whose segments are discarded because its raw queue was full when it came in from outside a group (R59). -/
  cutFrame : Option Nat := none
  /-- Linearisation curve by knot, and white reference by column × 3 + channel (R222). -/
  curve : RegMap := []
  white : RegMap := []
deriving DecidableEq, Repr

/-- VIS (R212–R230). -/
structure Vis where
  cam : Vector Cam 8 := Vector.replicate 8 {}
  /-- Bytes of the last sequence sent on each port's sensor bus. -/
  i2c : Vector (List (List Byte)) 4 := Vector.replicate 4 []
  /-- Cameras of each port whose sequences wait, in commit order (R217). -/
  sensQ : Vector (List Nat) 4 := Vector.replicate 4 []
  /-- Statistics records that wait for room: queue and record. -/
  outQ : List (Nat × StatRec) := []
deriving DecidableEq, Repr

/-! ### Colour hold and calibration (R231–R244) -/

/-- CHL (R231–R244). -/
structure Chl where
  /-- Column accumulators by column: ē in 32-bit two's complement, n, RUN. -/
  colE : Vector RegMap 8 := Vector.replicate 8 []
  colN : Vector RegMap 8 := Vector.replicate 8 []
  run : Vector RegMap 8 := Vector.replicate 8 []
  /-- Knot and trim accumulators: ē and n. -/
  knot : Vector (Vector (Int × Nat) 17) 8 := Vector.replicate 8 (Vector.replicate 17 (0, 0))
  trimAcc : Vector (Int × Nat) 8 := Vector.replicate 8 (0, 0)
  /-- C[b] as the unit has decided it. -/
  trim : Vector Int 8 := Vector.replicate 8 0
  /-- Settle lines (R236): by block, per bar, per bar; and what is not settled yet. -/
  blkSettle : Vector (List (Nat × Nat)) 8 := Vector.replicate 8 []
  toneSettle : Vector Nat 8 := Vector.replicate 8 0
  regSettle : Vector Nat 8 := Vector.replicate 8 0
  blkWait : Vector (List Nat) 8 := Vector.replicate 8 []
  toneWait : Vector Bool 8 := Vector.replicate 8 false
  regWait : Vector Bool 8 := Vector.replicate 8 false
  /-- `CHL_STAT`.BLIND. -/
  blind : BitVec 8 := 0
  /-- Records of the group being read, per camera. -/
  gather : Vector (List StatRec) 8 := Vector.replicate 8 []
  /-- Temperature of each unit's last run, by item × 64 + unit; units due and running (R240, R325). -/
  tlast : RegMap := []
  due : List (Nat × Nat) := []
  running : List (Nat × Nat) := []
  /-- White references: means of the groups taken so far in a run, and the values a finished run moves towards. -/
  whites : Vector (List RegMap) 8 := Vector.replicate 8 []
  /-- A finished run's reference, beside the one it replaces (R241). -/
  whiteGoal : Vector (Option (RegMap × RegMap)) 8 := Vector.replicate 8 none
deriving DecidableEq, Repr

/-! ### Lamps (R263–R276) -/

/-- A lamp chain (R263–R266). -/
structure LampChain where
  /-- Words latched in the devices, channel 0 first, and those the latch before gave. -/
  latched : List (BitVec 24) := []
  before : List (BitVec 24) := []
  /-- `LMP_EN` low. -/
  dark : Bool := true
  /-- Status codes by channel, less UNVERIFIED modulo 4; consecutive frames OPEN or SHORT. -/
  stat : RegMap := []
  bad : RegMap := []
deriving DecidableEq, Repr

/-- A lamp (R267–R275). -/
structure Lamp where
  d : Nat := 0
  on : Bool := false
  failed : Bool := false
  /-- Failed in `PRINT` under POLICY 1: the stop waits for the running job's last line. -/
  stopAtEnd : Bool := false
  hot : Bool := false
  openLoop : Bool := false
  e : Int := 0
  t : Int := 0
  /-- Frames for which it has been on and read UNVERIFIED; frames since its last stretch. -/
  unver : Nat := 0
  sinceStretch : Nat := 0
  /-- Seconds at full duty, and the part of a second in 1/(4096 × 10⁹). -/
  secs : Nat := 0
  frac : Nat := 0
deriving DecidableEq, Repr

/-- LMP (R263–R276). -/
structure Lmp where
  chain : Vector LampChain 4 := Vector.replicate 4 {}
  lamp : Vector Lamp 32 := Vector.replicate 32 {}
  /-- Last photodiode means, light-sensor and temperature readings, consecutive missed reads, dark levels. -/
  pd : Vector Nat 16 := Vector.replicate 16 0
  ls : Vector (Vector Nat 3) 16 := Vector.replicate 16 (Vector.replicate 3 0)
  lsMiss : Vector Nat 16 := Vector.replicate 16 0
  ts : Vector Int 15 := Vector.replicate 15 0
  tsMiss : Vector Nat 15 := Vector.replicate 15 0
  dark : Vector Nat 16 := Vector.replicate 16 0
  /-- Gains in force; of a finished run the gains it replaces and its own (R273). -/
  gain : Vector (Vector Nat 3) 16 := Vector.replicate 16 (Vector.replicate 3 0)
  gainGoal : Vector (Option (Vector (Nat × Nat) 3)) 16 := Vector.replicate 16 none
  /-- Dark since `ESTOP_N` or an immediate stop, until `HALT` is cleared (R266). -/
  stopped : Bool := false
deriving DecidableEq, Repr

/-! ### Motion (R245–R262) -/

/-- What an axis is doing. -/
inductive AxisRun
  /-- At rest or held. -/
  | none
  /-- A position move under R247. -/
  | move
  /-- Stopping at DEC under R248 or R260; after a position move, its abandoned target. -/
  | stop (tgt : Option Int)
  /-- A segment run: segment number, µs elapsed in it, and the position and velocity it started from. -/
  | seg (n t : Nat) (p0 v0 : Int)
  /-- Waiting at a SYNC segment's end. -/
  | sync (n : Nat)
deriving DecidableEq, Repr

/-- One phase of a chopper (R255–R258). -/
structure Phase where
  /-- On-time running. -/
  on : Bool := false
  /-- Off-time running. -/
  off : Bool := false
  /-- Device time in ns at which the running on-time or off-time began. -/
  since : Nat := 0
  shortRun : Nat := 0
  openRun : Nat := 0
  /-- Held off for 1 ms after a short. -/
  heldOff : Bool := false
deriving DecidableEq, Repr

/-- One axis (R245–R258).  Position in units of 2⁻⁸ × 10⁻¹² step and velocity in 2⁻⁸ × 10⁻⁶ step/s, so that a tick of
1 µs adds exactly the velocity to the position. -/
structure Axis where
  pos : Int := 0
  vel : Int := 0
  target : Int := 0
  run : AxisRun := .none
  ramp : Bool := false
  clampEvt : Bool := false
  atTarget : Bool := false
  /-- Sequence that holds the axis. -/
  seq : Option (Fin 5) := none
  /-- µs at rest, saturating. -/
  restUs : Nat := 0
  parked : Bool := false
  /-- Velocity changed in the last tick (R257). -/
  accel : Bool := false
  /-- Current scale I in force. -/
  cur : Nat := 0
  /-- µs since I last moved. -/
  curUs : Nat := 0
  /-- Level selected in the last tick, and whether I may move towards it: an on-time has begun since (R257). -/
  level : Nat := 0
  curGo : Bool := true
  /-- Integer position that the emitted STEP pulses make (axes 12–15), and DIR. -/
  stepPos : Int := 0
  dir : Bool := false
  /-- 5 ns cycles of the next tick in which no STEP pulse may come yet (R251). -/
  stepFree : Nat := 0
  /-- The 5 ns cycles of the last tick at which STEP pulses rose on the pad (R24, R251). -/
  pulses : List Nat := []
  pa : Phase := {}
  pb : Phase := {}
deriving DecidableEq, Repr

/-- One of the five sequences (R259–R261). -/
structure Seq where
  running : Bool := false
  done : Bool := false
  fail : Bool := false
  /-- Axes still running. -/
  axes : List Nat := []
  /-- Axes of it that wait for rest to start (R250). -/
  starts : List Nat := []
deriving DecidableEq, Repr

/-- MOT: axes, web axis, sequences (R245–R262). -/
structure Mot where
  ax : Vector Axis 16 := Vector.replicate 16 {}
  /-- Web command w in 10⁻⁶ mm/s. -/
  w : Nat := 0
  /-- Binding limit: 0 operator, 1 governor, 2 overspeed clamp, 3 stop. -/
  src : Nat := 0
  /-- Stop in force on the web axis and its deceleration in mm/s². -/
  stop : Option StopKind := none
  dec : Nat := 0
  /-- µs for which w has been 0, up to 10 000. -/
  zeroUs : Nat := 10000
  /-- R254 REST. -/
  rest : Bool := true
  seqs : Vector Seq 5 := Vector.replicate 5 {}
  /-- "LIFT done since the last LOWER", "UNCAP done since the last CAP" (R259, always-on domain). -/
  liftDone : Bool := false
  uncapDone : Bool := false
  /-- Segment tables, per axis, by word index. -/
  seg : Vector RegMap 16 := Vector.replicate 16 []
deriving DecidableEq, Repr

/-! ### The checkpoint of a join (R299) -/

/-- What the holder sends a joining seat: the layer store and job directory, every register value in force, each bar at its
composition front, LTM, every axis, the lamp loops, the colour hold unit and the cameras' frame numbers. -/
structure Checkpoint where
  mode : Mode := .idle
  cold : Bool := false
  bound : List BJob := []
  jobs : List Job := []
  gens : RegMap := []
  rw : RegMap := []
  shadow : RegMap := []
  pend : RegMap := []
  act : RegMap := []
  pending : List Group := []
  desc : RegMap := []
  bars : Vector Bar 8 := Vector.replicate 8 {}
  ltm : Ltm := {}
  mot : Mot := {}
  chl : Chl := {}
  lmp : Lmp := {}
  frames : Vector Nat 8 := Vector.replicate 8 0
  /-- Next FSEQ of the forwarding stream. -/
  fseq : BitVec 32 := 0
  /-- Stops in force and what the sequences are run for. -/
  stops : List Stop := []
  stopping : Bool := false
  endFiring : Bool := false
  flow : Flow := .none
  seqStep : SeqStep := .none
  svc : Option ServiceFn := none
deriving DecidableEq, Repr

/-! ### Twin operation (R277–R302) -/

/-- A block as a seat sends it on the Table link (R281): LEASE, YIELD, REVERT, ACK, REPLAY, DIGEST, FILL, SUSPECT, TIME,
LEFT, line events and forwarding records. -/
inductive TBlock
  | lease (seat : Bool) (mode : Nat) (deal : BitVec 32) (g : Nat)
  | yield (deal : BitVec 32) (g : Nat)
  | revert (deal : BitVec 32)
  | ack (fseq : BitVec 32)
  | replay (fseq : BitVec 32)
  | digest (lane line : Nat) (vals : List (Option Nat))
  | fill (lines : Nat) (latched : Bool)
  | suspect (cause : Nat)
  | time
  | left (cause : Nat)
  | lineEvt (g : Nat) (f : Nat) (void : Bool) (deal : BitVec 32) (fseq : BitVec 32)
  | fwd (r : FwdRec)
  | checkpoint (line : Nat) (c : Checkpoint)
deriving DecidableEq, Repr

/-- A digest waiting for its pair (R293): lane, print line, own side, value (none: ABSENT). -/
structure Dig where
  lane : Nat := 0
  line : Nat := 0
  own : Bool := true
  val : Option Nat := none
  /-- Sent to the other seat. -/
  sent : Bool := false
deriving DecidableEq, Repr

/-- A line event (R281). -/
structure LEvt where
  g : Nat := 0
  f : Nat := 0
  void : Bool := false
  deal : BitVec 32 := 0
  fseq : BitVec 32 := 0
deriving DecidableEq, Repr

/-- A position comparison of R294 that waits for the standby's own samples: base instant in LTM time and own fire point;
`first`: it sets the grid reference. -/
structure PosCmp where
  first : Bool := false
  f : Rat := 0
  x : Rat := 0
deriving DecidableEq, Repr

/-- TBL: Trump, Table link, forwarding, step (R277–R302). -/
structure Tbl where
  holder : Bool := false
  inStep : Bool := false
  joining : Bool := false
  /-- Deal of this seat while it holds, otherwise the last deal seen. -/
  deal : BitVec 32 := 0
  /-- Own last deal, and the last deal seen from the other seat. -/
  ownDeal : BitVec 32 := 0
  otherDeal : BitVec 32 := 0
  /-- Level of the hold output (R278), and renewal seen on the hold input within LEASE. -/
  holdOut : Bool := false
  holdAct : Bool := false
  /-- A renewal has been seen since the lease last expired. -/
  renewed : Bool := false
  left : Nat := 0
  take : Nat := 0
  /-- Next FSEQ to send, next expected, highest acknowledged. -/
  txSeq : BitVec 32 := 0
  rxSeq : BitVec 32 := 0
  /-- Unacknowledged records, oldest first, and their bytes. -/
  replay : List FwdRec := []
  replayBytes : Nat := 0
  /-- Records received in order and not yet applied by line (standby). -/
  fronts : Vector Nat 8 := Vector.replicate 8 0
  /-- Items that wait for the line index they carry (standby). -/
  later : List FwdItem := []
  /-- Digests not yet paired. -/
  digs : List Dig := []
  /-- Standby's fill and ESTOP latch as last reported (holder). -/
  otherFill : Option Nat := none
  otherLatched : Bool := false
  /-- Consecutive position mismatches (R294), and whether a line event has come since this seat is in step. -/
  posRun : Nat := 0
  gridSet : Bool := false
  /-- A yield decided and waiting for its line g: 1 a retirement, 2 handover, 3 revert, 4 test. -/
  yieldFor : Option Nat := none
  /-- This seat handed over in a test and gets the Trump back (R301); this seat has sent REVERT (R300). -/
  testing : Bool := false
  revertSent : Bool := false
  /-- s of qualification elapsed in step (R300); none: not counting. -/
  qual : Option Nat := none
  revertDue : Bool := false
  /-- s since this seat last held the Trump; none: not since reset. -/
  idleS : Option Nat := none
  resync : Nat := 0
  lat : Nat := 0
  /-- Blocks on their way out, oldest first. -/
  tx : List TBlock := []
  /-- Line events that wait for records (R292). -/
  evts : List LEvt := []
  /-- Position comparisons that wait for samples (R294). -/
  cmps : List PosCmp := []
  /-- Link time less LTM time in ns, as the last TIME exchange found it (R281). -/
  linkOfs : Int := 0
  /-- The copy of a join is done and its checkpoint waits for bar 0's line boundary (R299). -/
  cpDue : Bool := false
  /-- TBL renewal stopped by an island reset on the holder (R11). -/
  stopped : Bool := false
deriving DecidableEq, Repr

/-! ### Temperature (R303–R317) -/

/-- THM (R303–R313). -/
structure Thm where
  /-- Last 16 raw readings, newest first, 1/16 °C. -/
  raws : List Int := []
  /-- Last raw as measured; none: the ADC did not respond. -/
  raw : Option Int := some 0
  band : Nat := 0
  sAbs : Nat := 0
  sRate : Bool := false
  step : Nat := 0
  /-- Readings (100 µs) for which T has been 2 °C below the threshold of S_abs. -/
  absDwell : Nat := 0
  /-- History samples (100 ms) for which ρ has been below 3/4 of WARN. -/
  rateDwell : Nat := 0
  /-- T stored every 100 ms, newest first, up to 41. -/
  hist : List Int := []
  /-- ρ in 1/64 °C/s. -/
  rho : Int := 0
  /-- 0 none, 1 orderly stop running, 2 immediate stop taken. -/
  stop : Nat := 0
  /-- 100 ms periods of the orderly stop elapsed. -/
  elapsed : Nat := 0
  /-- Consecutive raw readings at or above 158 °C. -/
  hot : Nat := 0
  sensorBad : Bool := false
  ofsBad : Bool := false
  ofsDiff : Int := 0
  /-- EVT_THM_OFS is due once `IDLE` is reached (R304). -/
  ofsPend : Bool := false
  /-- An orderly stop is due (R309). -/
  due : Bool := false
  /-- Clocks of the bar engines, VIS and CHL gated by an immediate stop (R311). -/
  gated : Bool := false
  /-- An orderly or immediate stop fell due in `BOOT` (R312). -/
  bootStop : Nat := 0
deriving DecidableEq, Repr

/-! ### Faults and background work (R318–R327) -/

/-- One scoreboard (R319). -/
structure Board where
  /-- Sixteen buckets, current first. -/
  buckets : List Nat := List.replicate 16 0
  perm : Bool := false
  retired : Bool := false
  pend : Bool := false
deriving DecidableEq, Repr

/-- FLT: scoreboards, nozzle counts, telemetry (R318–R327). -/
structure Flt where
  boards : Vector Board 84 := Vector.replicate 84 {}
  /-- Whole units of 2²⁰ drops, by head × 42 + group. -/
  noz : RegMap := []
  /-- Drops not yet carried, by head × 42 + group. -/
  frac : RegMap := []
  /-- Upsets on all scoreboards since the last telemetry record. -/
  telUpsets : Nat := 0
  /-- Layer fetch per bar since the last telemetry record, in bytes. -/
  telFetch : Vector Nat 8 := Vector.replicate 8 0
  /-- Channels whose retirement is due, by scoreboard index, oldest first. -/
  due : List Nat := []
deriving DecidableEq, Repr

/-! ### Time (R328–R334) -/

/-- One time pulse generator (R333). -/
structure PulseGen where
  /-- Next due instant in ns of device time; none: nothing to come. -/
  due : Option Nat := none
  missed : Bool := false
  high : Bool := false
  /-- Instant at which a high pulse ends, and a schedule committed while it is high. -/
  ends : Nat := 0
  again : Bool := false
  /-- Last due instant issued, so that a backward step issues no single pulse twice. -/
  issued : Option Nat := none
deriving DecidableEq, Repr

/-- TIM: device time and the IEEE 1588 client (R328–R334). -/
structure Tim where
  sec : Nat := 0
  ns : Nat := 0
  /-- Part of a nanosecond gained by the rate adjustment, in 10⁻⁹ ns. -/
  frac : Int := 0
  /-- 0 UNSYNCED, 1 LOCKED, 2 REFUSED, 3 HOLDOVER. -/
  st : Nat := 0
  jumpPend : Bool := false
  masterChg : Bool := false
  offset : Int := 0
  rate : Int := 0
  master : Option Nat := none
  /-- Announced masters and their data set rank, best first. -/
  masters : List (Nat × Nat) := []
  /-- Sync: master's time and own receive time, ns. -/
  sync : Option (Int × Int) := none
  /-- Own transmit time of Delay_Req, ns. -/
  reqSent : Option Int := none
  /-- Consecutive offsets within the threshold in REFUSED. -/
  good : Nat := 0
  /-- The next offset is stepped (accepted jump). -/
  accept : Bool := false
  /-- Offsets are judged from HOLDOVER as from LOCKED. -/
  gens : Vector PulseGen 4 := Vector.replicate 4 {}
deriving DecidableEq, Repr

/-! ### Pads (R335–R350) -/

/-- PAD: general-purpose pins, straps, `ESTOP_N`, pad hold (R335–R350). -/
structure Pad where
  /-- Filtered pin levels after INV. -/
  gpio : BitVec 32 := 0
  seatId : Bool := false
  testEn : Bool := false
  /-- Filtered level of `ESTOP_N`. -/
  estop : Bool := true
  latched : Bool := false
  /-- Pad hold running (R288), and released to high impedance. -/
  held : Bool := false
  released : Bool := true
  /-- ACE_REJECT pulse high; camera trigger pulses high. -/
  reject : Bool := false
  camTrig : BitVec 8 := 0
  /-- Levels that the gates, the DIR outputs and `LMP_EN` keep during a pad hold (R266, R288). -/
  gates : Vector (Bool × Bool) 24 := Vector.replicate 24 (false, false)
  dirs : Vector Bool 4 := Vector.replicate 4 false
  lampEn : Vector Bool 4 := Vector.replicate 4 false
deriving DecidableEq, Repr


end Sys2Proof.Machine
end

