-- ==== Sys2Proof/Syntax.lean ====
section
/-! DEFINITION. The commands of the QP820 block: one constructor per row of spec/opcode_table.json, with the operands the
row's rule gives it.  A command is what the outside world, a sender behind a link, or one of the device's own timers does;
each changes the state. -/
namespace Sys2Proof

/-- Every command of the QP820, one constructor per row of spec/opcode_table.json, in the table's order. -/
inductive Instr
  | registerWrite (by_ : Port) (addr : BitVec 24) (data : Word)
  | readClear (ses : Fin 5) (addr : BitVec 24)
  | loReadLatch (ses : Fin 5) (addr : BitVec 24)
  | powerOn
  | powerLoss
  | supplyDip
  | resetNLow (ns : Nat)
  | resetNRise (seatId testEn : Bool)
  | bootDone (env : BootEnv)
  | postResetCompletions (r : Fin 8)
  | reqIdleWarm (ses : Fin 5)
  | reqIdleCold (ses : Fin 5)
  | reqBindJob (ses : Fin 5) (handle : BitVec 16)
  | reqRun (ses : Fin 5)
  | reqEnterService (ses : Fin 5) (fn : ServiceFn)
  | reqStop (ses : Fin 5)
  | reqClearHalt (ses : Fin 5)
  | reqJoinStandby (ses : Fin 5)
  | reqLeaveService (ses : Fin 5)
  | requestTimeout
  | pendingRequestApply
  | idleTimerExpiry
  | idleColdEntry
  | coldWakeComplete
  | warmReset (ses : Fin 5) (confirm : Byte)
  | islandReset (ses : Fin 5) (island confirm : Byte)
  | hardResetCommand (ses : Fin 5) (confirm : Byte)
  | stopComplete
  | calCommit (ses : Fin 5) (confirm : Byte)
  | activateImageBank (ses : Fin 5) (confirm : Byte)
  | commitStagedCalSet (ses : Fin 5) (confirm : Byte) (staged : Option CalSet)
  | calAutoCommit
  | calCopyVerified (ok : Bool)
  | calOldCopyErased
  | imageTransfer (ses : Fin 5) (img : Image)
  | imageTransferDequeue
  | imageBankVerify
  | nozzleUseRecord
  | freeBlockErase (block : Nat)
  | login (ses : Fin 5) (role : Role) (key : List Byte)
  | loginLockoutExpiry (ses : Fin 5)
  | logout (ses : Fin 5)
  | sessionTimeout (ses : Fin 5)
  | auditBurstEnd (ses : Fin 5)
  | auditPageProgram
  | commitGo (ses : Fin 5) (g : Group)
  | commitDiscard (ses : Fin 5) (g : Group)
  | commitTakeEffect (g : Group)
  | queueEntryWrite (q : Fin 64) (e : Entry)
  | moverTransfer (q : Fin 64)
  | queueEntryConsume (q : Fin 64)
  | producerResume (q : Fin 64)
  | evqLostInsert (q : Fin 4)
  | queuePointerMismatch (q : Fin 64)
  | duneRingWrite (ses : Fin 5) (q : Fin 64) (size : Bool) (data : Word)
  | ringDoorbell (r : Fin 8) (prod : BitVec 16)
  | ringEnable (r : Fin 8) (en : Bool)
  | ringReset (r : Fin 8)
  | cplAckWrite (r : Fin 8) (ack : BitVec 16)
  | functionLevelReset
  | busMasterDisable
  | pcieReadError (r : Fin 8)
  | open_ (r : Fin 8) (d : Desc) (payload : List Byte)
  | data (r : Fin 8) (d : Desc) (payload : List Byte)
  | close (r : Fin 8) (d : Desc) (payload : List Byte)
  | abort (r : Fin 8) (d : Desc)
  | duneBlockDecode (r : Fin 8)
  | objectEndVerify (r : Fin 8)
  | dataDescriptorComplete (r : Fin 8)
  | decompressResume (r : Fin 8)
  | jobEndingComplete (tag : Nat)
  | jobDrained (tag : Nat)
  | archiveExhausted (tag : Nat)
  | compressFlushTimeout (c : Fin 6)
  | barComposeLine (b : Fin 8)
  | slewerWriteback (b : Fin 8)
  | idleTableUpdate (b : Fin 8) (block : Nat)
  | correctionWindowWrite (ses : Fin 5) (addr : BitVec 24) (data : Word)
  | toneCurveWindowWrite (ses : Fin 5) (addr : BitVec 24) (data : Word)
  | matrixWindowWrite (ses : Fin 5) (addr : BitVec 24) (data : Word)
  | descriptorWindowWrite (ses : Fin 5) (addr : BitVec 24) (data : Word)
  | segmentTableWrite (ses : Fin 5) (addr : BitVec 24) (data : Word)
  | aceVerdict (handle : BitVec 16) (rep : Word) (verdict : Fin 3)
  | aceRejectPulseEnd
  | encoderSample (ch : Fin 4) (sin cos idx : BitVec 14)
  | encArm (ses : Fin 5) (ch : Fin 4)
  | encPosSet (ses : Fin 5) (ch : Fin 4)
  | encCal (ses : Fin 5) (ch : Fin 4)
  | encCalComplete (ch : Fin 4)
  | encCalTimeout (ch : Fin 4)
  | encStillTimeout (ch : Fin 4)
  | ltmSampleArrival
  | lineTrigger
  | governorSample
  | laneReceiverDetect (n : Fin 52)
  | laneDetectTimeout (n : Fin 52)
  | laneDetectRetry (n : Fin 52)
  | laneClockRecovered (n : Fin 52)
  | laneCommaAligned (n : Fin 52)
  | laneBlockLock (n : Fin 52)
  | laneTrainingDone (n : Fin 52)
  | capPageSend (n : Fin 52)
  | laneCapPagesReceived (n : Fin 52) (p : CapPages)
  | laneCapTimeout (n : Fin 52)
  | laneTrainingTimeout (n : Fin 52)
  | laneLockLost (n : Fin 52)
  | blockReceive (n : Fin 52) (h : RxHdr) (codeErrs : Fin 32) (crcOk : Bool)
  | moduleStatusBlock (n : Fin 40) (b : StatusBlock)
  | moduleReport (n : Fin 40) (r : ModReport)
  | patternTestGo (ses : Fin 5) (n : Fin 40)
  /-- The bits received during the test: `lead`, then `body` again and again, `times` times. -/
  | laneTestEnd (n : Fin 40) (lead body : List Bool) (times : Nat)
  | errorInject (ses : Fin 5) (n : Fin 40) (kind : Fin 4) (blk : Fin 8) (pos : Fin 32) (bit : Fin 16) (count confirm : Byte)
  | eyeScanGo (ses : Fin 5) (n : Fin 52) (dwell : Fin 16)
  | eyeScanStop (ses : Fin 5) (n : Fin 52)
  | eyeScanComplete (n : Fin 52) (phases : BitVec 64) (volts : BitVec 128)
  | refreshDue (c : Fin 8) (busy : Bool)
  | mr4Poll (c : Fin 8) (rate : Fin 4)
  | delaySetLoadDone
  | correctedError (c : Fin 8) (e : CorrErr)
  | uncorrectableError (c : Fin 8) (e : UncorrErr)
  | diagRead (ses : Fin 5) (data : BitVec 64) (check : BitVec 16)
  | scrubRead (c : Fin 8)
  | channelRetirement
  | retirementFillDone
  | frameStart (p : Fin 4) (vc : Fin 4) (hdrOk first : Bool)
  | linePacket (p : Fin 4) (vc : Fin 4) (dt : Fin 64) (hdrOk crcOk : Bool) (pix : List (BitVec 14))
  | frameEnd (p : Fin 4) (vc : Fin 4) (hdrOk : Bool)
  | frameTimeout (k : Fin 8)
  | triggerTimeout (k : Fin 8)
  | cameraTriggerEnd (k : Fin 8)
  | sensorSequenceSend (k : Fin 8) (ack : Bool)
  | pipelineGroupStart (i : Fin 2)
  | pipelineGroupDone (i : Fin 2)
  | statsRecord (p : Fin 4)
  | blindTimeout (k : Fin 8)
  | calTempCheck
  | chlCalCmd (ses : Fin 5) (items : BitVec 4)
  | calRunStart
  | calRunComplete (item : Fin 4) (found : CalFound)
  | generatorTick
  | webAtRest
  | parkSelect (a : Fin 12)
  | motGo (ses : Fin 5) (a : Fin 16)
  | motStop (ses : Fin 5) (a : Fin 16)
  | targetWrite (ses : Fin 5) (a : Fin 16) (hi : BitVec 16)
  | chopperTrip (a : Fin 12) (phaseB : Bool) (atMaskEnd : Bool)
  | chopperOnMax (a : Fin 12) (phaseB : Bool)
  | chopperOffEnd (a : Fin 12) (phaseB : Bool)
  | shortHoldEnd (a : Fin 12) (phaseB : Bool)
  | seqCommand (ses : Fin 5) (seq : Nat)
  | sequenceDone (i : Fin 5)
  | sequenceTimeout (i : Fin 5)
  | lampFrame (c : Fin 4) (i : LampIn)
  | trumpRenew
  | renewalReceived (hold : Bool) (deal : Option (BitVec 32)) (mode : Nat)
  | leaseExpiry
  | startupTrumpTake
  | yield_ (deal : BitVec 32) (g : BitVec 48)
  | handover (ses : Fin 5) (confirm : Byte)
  | testTakeover (ses : Fin 5) (confirm : Byte)
  | testHoldExpiry
  | revertQualified
  | revert (deal : BitVec 32)
  | padHoldExpiry
  | forwardRecord (r : FwdRec) (crcOk : Bool)
  | replay (fseq : BitVec 32)
  | ack (fseq : BitVec 32)
  | ackSend
  | lineEvent (g : BitVec 48) (f : Nat) (void : Bool) (deal fseq : BitVec 32)
  | digest (lane line : Nat) (vals : List (Option Nat))
  | fill (lines : Nat) (latched : Bool)
  | fillSend
  | suspect (cause : Nat)
  | left (cause : Nat)
  | timeExchange (lat : BitVec 12) (ofs : Int)
  | standbySilence
  | resyncCopyDone (cp : Option Machine.Checkpoint)
  | autoJoin
  | diodeReading (raw : Option Int)
  | riseHistorySample
  | throttleStepDown
  | scoreboardBucket (kind : Fin 7)
  | telemetryInterval
  | ptpAnnounce (domain : Nat) (master : BitVec 64) (rank : Nat)
  | ptpSync (domain : Nat) (master : BitVec 64) (t1 : Int)
  | ptpDelayResp (domain : Nat) (master : BitVec 64) (t4 : Int)
  | ptpDelayReqSend
  | announceTimeout
  | timeAccept (ses : Fin 5) (confirm : Byte)
  | clrChg (ses : Fin 5) (confirm : Byte)
  | timeMark
  | timePulseDue (k : Fin 4)
  | timePulseEnd (k : Fin 4)
  | estop (ns : Nat)
  | runReq (pin : Fin 32)
  | stopReq (pin : Fin 32)
  | gpIn (pin : Fin 32) (level : Bool)
  | estopRelease
  | timePulseWake (k : Fin 4)
  | busMasterEnable
deriving DecidableEq, Repr

end Sys2Proof
end

