-- ==== Sys2Proof/Config.lean ====
section
/-! DEFINITION. The values an implementation fixes or the manual leaves free.  Every free value is an opaque constant
without a body: nothing in Lean can evaluate it, so a proved claim holds whatever it is. -/
namespace Sys2Proof

/-- A free choice between two outcomes the manual leaves open, applied to State's own counter (log entry 1). -/
opaque Config.freeBit : Nat → Bool

/-- A free number the manual leaves open, applied to State's own counter (log entry 1). -/
opaque Config.freeNat : Nat → Nat

/-- R41, R48: the salted SHA-256 hash of a role key.  The manual gives neither the place of the salt nor its length, so
the hash is a free function of the salt and the key (log entry 2). -/
opaque Config.keyHash : BitVec 128 → List Byte → BitVec 256

/-- R51: the CRC-32C of a calibration set.  The manual lays out no bytes of a set: a free function of what it holds (log entry 2). -/
opaque Config.setCrc : CalSet → Word

/-- R51: the CRC-32C of an image.  The manual lays out no bytes of its sections: a free function of what it holds (log entry 2). -/
opaque Config.imgCrc : Image → Word

/-- R190: the invalid code group that an injection of kind symbol sends; the manual names none (log entry 60). -/
opaque Config.invalidGroup : BitVec 10

/-- R169: what the 20 bits of `LNK_MOD_RATE` show of a MAX_RATE that does not fit them (log entry 60). -/
opaque Config.rateShown : Nat → BitVec 20

/-- R203, R205: what the code makes of an error in three or more symbols of a beat; the manual guarantees nothing (log entry 61). -/
opaque Config.wideError : BitVec 80 → BeatVerdict

/-- R203: the 16-bit syndrome of an error.  The manual gives the code's distance, not its check matrix (log entry 61). -/
opaque Config.syndrome : BitVec 80 → BitVec 16

/-- R331: the proportional-integral law of the time servo.  The manual gives no gains: the rate in ppb is a free function
of the offset and of the counter (log entry 3). -/
opaque Config.servoRate : Int → Nat → Int

end Sys2Proof
end

