-- ==== Sys2Proof/Machine/Reg.lean ====
section
/-! DEFINITION. The register fields the model's rules name, by the manual's own names: `F.<REGISTER>_<FIELD>` gives the
address, place, width and access type that the register tables of spec/ state; array registers take their indexes. -/
namespace Sys2Proof.Machine

/-- The access types of R7. -/
inductive Acc | ro | rw | rwg | w1c | wo | rc
deriving DecidableEq, Repr

/-- A register field: byte address, lowest bit, width, access type. -/
structure Fld where
  addr : Nat
  lo : Nat
  w : Nat
  acc : Acc
deriving DecidableEq, Repr

def F.SYS_IDLE_CFG_COLD_AUTO : Fld := ⟨0x108, 0, 1, .rw⟩
def F.SYS_REQ_REJ_COUNT : Fld := ⟨0x10C, 0, 16, .rc⟩
def F.SYS_RESET_CAUSE_COUNT : Fld := ⟨0x114, 16, 16, .rc⟩
def F.CFG_NVM_STAT_REJ : Fld := ⟨0x10014, 8, 8, .rc⟩
def F.CFG_NVM_CFG_CAL_AUTO_H : Fld := ⟨0x1001C, 16, 8, .rw⟩
def F.CFG_AUDIT_IDX_SEQ : Fld := ⟨0x10040, 0, 32, .rw⟩
def F.CVQ_LVL_FLAG_FLAG (i : Nat) : Fld := ⟨0x20000 + 4 * i, 0, 32, .w1c⟩
def F.CVQ_LVL_IE_IE (i : Nat) : Fld := ⟨0x20008 + 4 * i, 0, 32, .rw⟩
def F.CVQ_LEVEL_LEVEL (i : Nat) : Fld := ⟨0x20104 + 32 * i, 0, 28, .rw⟩
def F.CVQ_DUNE_BASE_BASE (i : Nat) : Fld := ⟨0x20108 + 32 * i, 0, 20, .rw⟩
def F.CVQ_DUNE_SIZE_SIZE (i : Nat) : Fld := ⟨0x2010C + 32 * i, 0, 11, .rw⟩
def F.CVQ_STAT_RESETS (i : Nat) : Fld := ⟨0x20110 + 32 * i, 16, 16, .rc⟩
def F.CVQ_DROP_DROP (i : Nat) : Fld := ⟨0x20114 + 32 * i, 0, 32, .rc⟩
def F.CVQ_PEAK_PEAK (i : Nat) : Fld := ⟨0x20118 + 32 * i, 0, 28, .rc⟩
def F.ING_CTL_RING_EN : Fld := ⟨0x30004, 0, 8, .rw⟩
def F.ING_STALE_CNT_COUNT : Fld := ⟨0x30008, 0, 32, .rc⟩
def F.ING_OBJ_BAD_COUNT : Fld := ⟨0x3000C, 0, 16, .rc⟩
def F.ING_LS_BASE_BASE : Fld := ⟨0x30010, 0, 20, .rw⟩
def F.ING_LS_SIZE_SIZE : Fld := ⟨0x30014, 0, 20, .rw⟩
def F.ING_JOB_SEL_TAG : Fld := ⟨0x30020, 0, 12, .rw⟩
def F.CMP_CTX_CFG_VERIFY (i : Nat) : Fld := ⟨0x40000 + 32 * i, 0, 1, .rw⟩
def F.CMP_CTX_IN_MIB (i : Nat) : Fld := ⟨0x40004 + 32 * i, 0, 32, .rc⟩
def F.CMP_CTX_OUT_MIB (i : Nat) : Fld := ⟨0x40008 + 32 * i, 0, 32, .rc⟩
def F.CMP_CTX_MISM_COUNT (i : Nat) : Fld := ⟨0x4000C + 32 * i, 0, 16, .rc⟩
def F.LYR_CTL_SKIP_EN (i : Nat) : Fld := ⟨0x80000 + 65536 * i, 0, 1, .rwg⟩
def F.LYR_JOB_HANDLE (i : Nat) : Fld := ⟨0x80010 + 65536 * i, 0, 16, .ro⟩
def F.LYR_LINE_LO_LINE (i : Nat) : Fld := ⟨0x80014 + 65536 * i, 0, 32, .ro⟩
def F.LYR_LINE_HI_LINE (i : Nat) : Fld := ⟨0x80018 + 65536 * i, 0, 16, .ro⟩
def F.LYR_REPEAT_REPEAT (i : Nat) : Fld := ⟨0x8001C + 65536 * i, 0, 32, .ro⟩
def F.LYR_SLOT_STAT_OBJ (i : Nat) (j : Nat) : Fld := ⟨0x80040 + 65536 * i + 4 * j, 0, 16, .ro⟩
def F.LYR_SLOT_STAT_WAIT (i : Nat) (j : Nat) : Fld := ⟨0x80040 + 65536 * i + 4 * j, 16, 1, .ro⟩
def F.LYR_SLOT_STAT_RECORD (i : Nat) (j : Nat) : Fld := ⟨0x80040 + 65536 * i + 4 * j, 17, 1, .ro⟩
def F.LYR_SLOT_STAT_MODE (i : Nat) (j : Nat) : Fld := ⟨0x80040 + 65536 * i + 4 * j, 18, 2, .ro⟩
def F.LYR_FETCH_MIB_MIB (i : Nat) : Fld := ⟨0x80080 + 65536 * i, 0, 32, .rc⟩
def F.LYR_SKIP_MIB_MIB (i : Nat) : Fld := ⟨0x80084 + 65536 * i, 0, 32, .rc⟩
def F.LYR_FETCH_PEAK_BYTES (i : Nat) : Fld := ⟨0x80088 + 65536 * i, 0, 24, .rc⟩
def F.LYR_WAIT_CNT_COUNT (i : Nat) : Fld := ⟨0x8008C + 65536 * i, 0, 32, .rc⟩
def F.LYR_BADREF_CNT_COUNT (i : Nat) : Fld := ⟨0x80090 + 65536 * i, 0, 32, .rc⟩
def F.LYR_ACE_POLICY_REQUIRED : Fld := ⟨0x80100, 0, 1, .rw⟩
def F.LYR_ACE_POLICY_REJECT_EN : Fld := ⟨0x80100, 1, 1, .rw⟩
def F.LYR_ACE_POLICY_UNCHK_FAIL : Fld := ⟨0x80100, 2, 1, .rw⟩
def F.LYR_ACE_POLICY_STOP_RUN : Fld := ⟨0x80100, 16, 8, .rw⟩
def F.LYR_ACE_FAIL_CNT_COUNT : Fld := ⟨0x80104, 0, 32, .rc⟩
def F.LYR_ACE_LAST_REPEAT : Fld := ⟨0x80108, 0, 32, .ro⟩
def F.LYR_ACE_SEAL_CRC_CRC (i : Nat) : Fld := ⟨0x80200 + 8 * i, 0, 32, .rw⟩
def F.LYR_ACE_SEAL_LEN_LEN (i : Nat) : Fld := ⟨0x80204 + 8 * i, 0, 32, .rw⟩
def F.TON_OFS_OFS (i : Nat) (j : Nat) : Fld := ⟨0x84000 + 65536 * i + 4 * j, 0, 12, .rwg⟩
def F.TON_SLEW_STEP (i : Nat) : Fld := ⟨0x84048 + 65536 * i, 0, 8, .rw⟩
def F.HTN_CFG_FMT (i : Nat) : Fld := ⟨0x88000 + 65536 * i, 0, 1, .rw⟩
def F.HTN_CFG_LOG2W (i : Nat) : Fld := ⟨0x88000 + 65536 * i, 4, 4, .rw⟩
def F.HTN_CFG_LOG2H (i : Nat) : Fld := ⟨0x88000 + 65536 * i, 8, 4, .rw⟩
def F.HTN_PHASE_PHASE_X (i : Nat) : Fld := ⟨0x88004 + 65536 * i, 0, 16, .rw⟩
def F.HTN_PHASE_PHASE_Y (i : Nat) : Fld := ⟨0x88004 + 65536 * i, 16, 16, .rw⟩
def F.NZM_GEOM_START (i : Nat) (j : Nat) : Fld := ⟨0x8C000 + 65536 * i + 4 * j, 0, 17, .rwg⟩
def F.NZM_GEOM_TYPE (i : Nat) (j : Nat) : Fld := ⟨0x8C000 + 65536 * i + 4 * j, 17, 2, .rwg⟩
def F.NZM_GEOM_MIRROR (i : Nat) (j : Nat) : Fld := ⟨0x8C000 + 65536 * i + 4 * j, 19, 1, .rwg⟩
def F.NZM_GEOM_EN (i : Nat) (j : Nat) : Fld := ⟨0x8C000 + 65536 * i + 4 * j, 20, 1, .rwg⟩
def F.NZM_SEAM_POS (i : Nat) (j : Nat) : Fld := ⟨0x8C100 + 65536 * i + 4 * j, 0, 10, .rwg⟩
def F.NZM_SEAM_WIDTH (i : Nat) (j : Nat) : Fld := ⟨0x8C100 + 65536 * i + 4 * j, 10, 10, .rwg⟩
def F.NZM_COMP_MODE (i : Nat) : Fld := ⟨0x8C1A0 + 65536 * i, 0, 2, .rwg⟩
def F.NZM_SLEW_SLEW_G (i : Nat) : Fld := ⟨0x8C1A8 + 65536 * i, 0, 8, .rw⟩
def F.NZM_SLEW_SLEW_O (i : Nat) : Fld := ⟨0x8C1A8 + 65536 * i, 8, 8, .rw⟩
def F.NZM_TGT_BASE_BASE (i : Nat) : Fld := ⟨0x8C1AC + 65536 * i, 0, 20, .rw⟩
def F.NZM_PEEK_COL_COL (i : Nat) : Fld := ⟨0x8C1B0 + 65536 * i, 0, 17, .rw⟩
def F.NZM_WAIT_CNT_COUNT (i : Nat) : Fld := ⟨0x8C1BC + 65536 * i, 0, 32, .rc⟩
def F.NZM_TBL_BAR_BAR : Fld := ⟨0x8C200, 0, 3, .rw⟩
def F.ENC_WEB_SRC_PRIMARY : Fld := ⟨0x100000, 0, 2, .rwg⟩
def F.ENC_WEB_SRC_ALT : Fld := ⟨0x100000, 2, 2, .rwg⟩
def F.ENC_WEB_SRC_ALT_EN : Fld := ⟨0x100000, 4, 1, .rwg⟩
def F.ENC_ALT_RATIO_RATIO : Fld := ⟨0x100004, 0, 32, .rwg⟩
def F.ENC_REV_LIMIT_LINES : Fld := ⟨0x100010, 0, 16, .rw⟩
def F.ENC_CFG_EN (i : Nat) : Fld := ⟨0x100100 + 256 * i, 0, 1, .rwg⟩
def F.ENC_CFG_IDX_MODE (i : Nat) : Fld := ⟨0x100100 + 256 * i, 1, 2, .rwg⟩
def F.ENC_CFG_DIR_INV (i : Nat) : Fld := ⟨0x100100 + 256 * i, 3, 1, .rwg⟩
def F.ENC_CFG_AVG_LOG2 (i : Nat) : Fld := ⟨0x100100 + 256 * i, 5, 3, .rwg⟩
def F.ENC_CFG_HYST (i : Nat) : Fld := ⟨0x100100 + 256 * i, 8, 8, .rwg⟩
def F.ENC_PITCH_PITCH (i : Nat) : Fld := ⟨0x100104 + 256 * i, 0, 24, .rwg⟩
def F.ENC_STILL_TMO_MS (i : Nat) : Fld := ⟨0x10010C + 256 * i, 0, 16, .rw⟩
def F.ENC_AMP_LIM_LO (i : Nat) : Fld := ⟨0x100110 + 256 * i, 0, 14, .rw⟩
def F.ENC_AMP_LIM_HI (i : Nat) : Fld := ⟨0x100110 + 256 * i, 16, 14, .rw⟩
def F.ENC_IDX_PRESET_LO_PRESET (i : Nat) : Fld := ⟨0x100114 + 256 * i, 0, 32, .rw⟩
def F.ENC_IDX_PRESET_HI_PRESET (i : Nat) : Fld := ⟨0x100118 + 256 * i, 0, 16, .rw⟩
def F.ENC_FLAGS_ILLEGAL (i : Nat) : Fld := ⟨0x10012C + 256 * i, 0, 1, .w1c⟩
def F.ENC_FLAGS_AMP (i : Nat) : Fld := ⟨0x10012C + 256 * i, 1, 1, .w1c⟩
def F.ENC_FLAGS_OVERFREQ (i : Nat) : Fld := ⟨0x10012C + 256 * i, 2, 1, .w1c⟩
def F.ENC_FLAGS_INDEX (i : Nat) : Fld := ⟨0x10012C + 256 * i, 3, 1, .w1c⟩
def F.ENC_FLAGS_REVERSAL (i : Nat) : Fld := ⟨0x10012C + 256 * i, 4, 1, .w1c⟩
def F.ENC_ILL_CNT_COUNT (i : Nat) : Fld := ⟨0x100130 + 256 * i, 0, 32, .rc⟩
def F.ENC_CAL_OFS_SIN_OFS (i : Nat) : Fld := ⟨0x100140 + 256 * i, 0, 14, .rw⟩
def F.ENC_CAL_OFS_COS_OFS (i : Nat) : Fld := ⟨0x100140 + 256 * i, 16, 14, .rw⟩
def F.ENC_CAL_GP_GAIN (i : Nat) : Fld := ⟨0x100144 + 256 * i, 0, 16, .rw⟩
def F.ENC_CAL_GP_PHASE (i : Nat) : Fld := ⟨0x100144 + 256 * i, 16, 16, .rw⟩
def F.ENC_CAL_QUAL_RESID (i : Nat) : Fld := ⟨0x100148 + 256 * i, 0, 16, .ro⟩
def F.ENC_CAL_QUAL_COUNT (i : Nat) : Fld := ⟨0x100148 + 256 * i, 16, 16, .ro⟩
def F.ENC_CAL_TIME_SEC (i : Nat) : Fld := ⟨0x10014C + 256 * i, 0, 32, .ro⟩
def F.LTM_PITCH_NUM : Fld := ⟨0x110000, 0, 24, .rwg⟩
def F.LTM_PITCH_DEN_DEN : Fld := ⟨0x110004, 0, 16, .rwg⟩
def F.LTM_PRE_PRE : Fld := ⟨0x110008, 0, 12, .rwg⟩
def F.LTM_BAR_DLY_LINES (i : Nat) : Fld := ⟨0x110010 + 4 * i, 0, 20, .rwg⟩
def F.LTM_BAR_TRIM_TRIM (i : Nat) : Fld := ⟨0x110040 + 4 * i, 0, 7, .rwg⟩
def F.LTM_BAR_TRIM_REG_LIM (i : Nat) : Fld := ⟨0x110040 + 4 * i, 8, 6, .rwg⟩
def F.LTM_FILL_SLOW_LINES : Fld := ⟨0x110100, 0, 28, .rwg⟩
def F.LTM_FILL_MIN_LINES : Fld := ⟨0x110104, 0, 28, .rwg⟩
def F.LTM_FILL_STOP_LINES : Fld := ⟨0x110108, 0, 28, .rwg⟩
def F.LTM_GOV_VMIN_VALUE : Fld := ⟨0x11010C, 0, 16, .rwg⟩
def F.LTM_GOV_ACC_VALUE : Fld := ⟨0x110110, 0, 16, .rwg⟩
def F.LTM_LAG_MAX_LAG : Fld := ⟨0x110120, 0, 8, .rw⟩
def F.LTM_JOB_GAP_LINES : Fld := ⟨0x110124, 0, 24, .rw⟩
def F.LTM_STALE_HOLD : Fld := ⟨0x110128, 0, 16, .rw⟩
def F.LTM_STALE_OFF : Fld := ⟨0x110128, 16, 16, .rw⟩
def F.LTM_OVS_CNT_COUNT : Fld := ⟨0x1101C0, 0, 32, .rc⟩
def F.LTM_LAG_CNT_COUNT : Fld := ⟨0x1101C4, 0, 32, .rc⟩
def F.LTM_UNDER_CNT_COUNT : Fld := ⟨0x1101C8, 0, 32, .rc⟩
def F.LTM_PW_CLAMP_CNT_COUNT : Fld := ⟨0x1101CC, 0, 32, .rc⟩
def F.LTM_STALE_CNT_COUNT : Fld := ⟨0x1101D0, 0, 32, .rc⟩
def F.LTM_LAG_PEAK_LAG : Fld := ⟨0x1101D4, 0, 8, .rc⟩
def F.LTM_PEEK_SEL_HEAD : Fld := ⟨0x1101E0, 0, 9, .rw⟩
def F.LTM_HEAD_DLY_LINES (i : Nat) : Fld := ⟨0x110400 + 4 * i, 0, 14, .rwg⟩
def F.LTM_HEAD_FINE_FINE (i : Nat) : Fld := ⟨0x110A00 + 4 * i, 0, 6, .rwg⟩
def F.LNK_CFG_EN (i : Nat) : Fld := ⟨0x120000 + 1024 * i, 0, 1, .rwg⟩
def F.LNK_CFG_RATE (i : Nat) : Fld := ⟨0x120000 + 1024 * i, 1, 2, .rwg⟩
def F.LNK_MOD_ID_VALUE (i : Nat) : Fld := ⟨0x12000C + 1024 * i, 0, 32, .ro⟩
def F.LNK_MOD_SN_VALUE (i : Nat) : Fld := ⟨0x120010 + 1024 * i, 0, 32, .ro⟩
def F.LNK_MOD_INFO_HEADS (i : Nat) : Fld := ⟨0x120014 + 1024 * i, 0, 4, .ro⟩
def F.LNK_MOD_INFO_RATES (i : Nat) : Fld := ⟨0x120014 + 1024 * i, 4, 3, .ro⟩
def F.LNK_MOD_INFO_DEPTH (i : Nat) : Fld := ⟨0x120014 + 1024 * i, 16, 16, .ro⟩
def F.LNK_MOD_RATE_VALUE (i : Nat) : Fld := ⟨0x120018 + 1024 * i, 0, 20, .ro⟩
def F.LNK_MOD_PREP_VALUE (i : Nat) : Fld := ⟨0x12001C + 1024 * i, 0, 16, .ro⟩
def F.LNK_MOD_TYPE_EVEN (i : Nat) (j : Nat) : Fld := ⟨0x120020 + 1024 * i + 4 * j, 0, 16, .ro⟩
def F.LNK_MOD_TYPE_ODD (i : Nat) (j : Nat) : Fld := ⟨0x120020 + 1024 * i + 4 * j, 16, 16, .ro⟩
def F.LNK_MOD_DEAL_VALUE (i : Nat) : Fld := ⟨0x120030 + 1024 * i, 0, 32, .ro⟩
def F.LNK_MOD_LAST_VALUE (i : Nat) : Fld := ⟨0x120034 + 1024 * i, 0, 32, .ro⟩
def F.LNK_CODE_ERR_COUNT (i : Nat) : Fld := ⟨0x120040 + 1024 * i, 0, 32, .rc⟩
def F.LNK_HDR_ERR_BAD (i : Nat) : Fld := ⟨0x120044 + 1024 * i, 0, 16, .rc⟩
def F.LNK_HDR_ERR_RSV (i : Nat) : Fld := ⟨0x120044 + 1024 * i, 16, 16, .rc⟩
def F.LNK_DOWN_CNT_COUNT (i : Nat) : Fld := ⟨0x120048 + 1024 * i, 0, 32, .rc⟩
def F.LNK_FAIL_CNT_COUNT (i : Nat) : Fld := ⟨0x12004C + 1024 * i, 0, 32, .rc⟩
def F.LNK_REJ_CNT_REC (i : Nat) : Fld := ⟨0x120050 + 1024 * i, 0, 12, .rc⟩
def F.LNK_REJ_CNT_TIM (i : Nat) : Fld := ⟨0x120050 + 1024 * i, 12, 12, .rc⟩
def F.LNK_REJ_CNT_MISSED (i : Nat) : Fld := ⟨0x120050 + 1024 * i, 24, 8, .rc⟩
def F.LNK_MISS_CNT_COUNT (i : Nat) : Fld := ⟨0x120054 + 1024 * i, 0, 32, .rc⟩
def F.LNK_VOID_CNT_COUNT (i : Nat) : Fld := ⟨0x120058 + 1024 * i, 0, 32, .rc⟩
def F.LNK_PAT_CFG_PAT (i : Nat) : Fld := ⟨0x120060 + 1024 * i, 0, 3, .rw⟩
def F.LNK_PAT_CFG_INV (i : Nat) : Fld := ⟨0x120060 + 1024 * i, 3, 1, .rw⟩
def F.LNK_PAT_CFG_DUR (i : Nat) : Fld := ⟨0x120060 + 1024 * i, 4, 16, .rw⟩
def F.LNK_PAT_USER_PATTERN (i : Nat) : Fld := ⟨0x120064 + 1024 * i, 0, 20, .rw⟩
def F.LNK_PAT_ERR_COUNT (i : Nat) : Fld := ⟨0x120070 + 1024 * i, 0, 32, .ro⟩
def F.LNK_PAT_BITS_COUNT (i : Nat) : Fld := ⟨0x120074 + 1024 * i, 0, 32, .ro⟩
def F.LNK_PAT_FAR_COUNT (i : Nat) : Fld := ⟨0x120078 + 1024 * i, 0, 32, .ro⟩
def F.MEM_CE_CNT_COUNT (i : Nat) : Fld := ⟨0x140004 + 8192 * i, 0, 32, .rc⟩
def F.MEM_CE_ADDR_LO_ADDR (i : Nat) : Fld := ⟨0x140008 + 8192 * i, 0, 32, .ro⟩
def F.MEM_CE_ADDR_HI_ADDR (i : Nat) : Fld := ⟨0x14000C + 8192 * i, 0, 8, .ro⟩
def F.MEM_CE_INFO_SYM (i : Nat) : Fld := ⟨0x140010 + 8192 * i, 0, 5, .ro⟩
def F.MEM_CE_INFO_RANK (i : Nat) : Fld := ⟨0x140010 + 8192 * i, 5, 1, .ro⟩
def F.MEM_CE_INFO_SRC (i : Nat) : Fld := ⟨0x140010 + 8192 * i, 6, 2, .ro⟩
def F.MEM_CE_INFO_SYND (i : Nat) : Fld := ⟨0x140010 + 8192 * i, 8, 16, .ro⟩
def F.MEM_CE_INFO_BEATS (i : Nat) : Fld := ⟨0x140010 + 8192 * i, 24, 8, .ro⟩
def F.MEM_RAW_CNT_COUNT (i : Nat) : Fld := ⟨0x140014 + 8192 * i, 0, 32, .rc⟩
def F.MEM_NRF_CNT_COUNT (i : Nat) : Fld := ⟨0x140018 + 8192 * i, 0, 32, .rc⟩
def F.MEM_CE_SYM_COUNT (i : Nat) (j : Nat) (k : Nat) : Fld := ⟨0x140040 + 8192 * i + 80 * j + 4 * k, 0, 16, .rc⟩
def F.MEM_UE_ADDR_LO_ADDR (i : Nat) : Fld := ⟨0x140100 + 8192 * i, 0, 32, .ro⟩
def F.MEM_UE_ADDR_HI_ADDR (i : Nat) : Fld := ⟨0x140104 + 8192 * i, 0, 8, .ro⟩
def F.MEM_UE_INFO_KIND (i : Nat) : Fld := ⟨0x140108 + 8192 * i, 0, 2, .ro⟩
def F.MEM_UE_INFO_RANK (i : Nat) : Fld := ⟨0x140108 + 8192 * i, 2, 1, .ro⟩
def F.MEM_UE_INFO_SUBCH (i : Nat) : Fld := ⟨0x140108 + 8192 * i, 3, 1, .ro⟩
def F.MEM_UE_INFO_SRC (i : Nat) : Fld := ⟨0x140108 + 8192 * i, 4, 2, .ro⟩
def F.MEM_UE_INFO_SYND (i : Nat) : Fld := ⟨0x140108 + 8192 * i, 8, 16, .ro⟩
def F.MEM_UE_CMD_CMD (i : Nat) : Fld := ⟨0x14010C + 8192 * i, 0, 4, .ro⟩
def F.MEM_UE_CMD_BANK (i : Nat) : Fld := ⟨0x14010C + 8192 * i, 4, 5, .ro⟩
def F.MEM_UE_CMD_ROW (i : Nat) : Fld := ⟨0x14010C + 8192 * i, 9, 16, .ro⟩
def F.MEM_UE_CMD_COL (i : Nat) : Fld := ⟨0x14010C + 8192 * i, 25, 7, .ro⟩
def F.MEM_UE_TIME_SEC (i : Nat) : Fld := ⟨0x140110 + 8192 * i, 0, 32, .ro⟩
def F.MEM_CFG_RANKS : Fld := ⟨0x150000, 10, 1, .ro⟩
def F.MEM_CFG_DENSITY : Fld := ⟨0x150000, 11, 1, .ro⟩
def F.MEM_CFG_GRAIN_LOG2 : Fld := ⟨0x150000, 12, 4, .ro⟩
def F.MEM_CFG_SCHEME : Fld := ⟨0x150000, 16, 2, .ro⟩
def F.MEM_CAP_MIB : Fld := ⟨0x150008, 0, 20, .ro⟩
def F.MEM_NRF_DIV_DIV : Fld := ⟨0x15000C, 0, 14, .rwg⟩
def F.MEM_SCRUB_CFG_EN : Fld := ⟨0x150010, 0, 1, .rwg⟩
def F.MEM_DIAG_ADDR_HI_RANK_CH : Fld := ⟨0x150024, 8, 3, .rw⟩
def F.MEM_DIAG_DATA_DATA (i : Nat) : Fld := ⟨0x15002C + 4 * i, 0, 32, .ro⟩
def F.VIS_PIPE_MAP_PIPE : Fld := ⟨0x160000, 0, 4, .rw⟩
def F.VIS_LATE_TMO_US : Fld := ⟨0x160004, 0, 24, .rw⟩
def F.VIS_ACE_CFG_CAM : Fld := ⟨0x160010, 0, 3, .rwg⟩
def F.VIS_ACE_CFG_EN : Fld := ⟨0x160010, 3, 1, .rwg⟩
def F.VIS_ACE_CFG_SEARCH : Fld := ⟨0x160010, 4, 4, .rwg⟩
def F.VIS_ACE_CFG_BARS : Fld := ⟨0x160010, 8, 8, .rwg⟩
def F.VIS_ACE_CFG_THR : Fld := ⟨0x160010, 16, 12, .rwg⟩
def F.VIS_ACE_MIS_MAXMIS : Fld := ⟨0x160014, 0, 12, .rwg⟩
def F.VIS_MEAS_CFG_OUT_FRAC : Fld := ⟨0x16001C, 0, 8, .rw⟩
def F.VIS_MEAS_CFG_MARK_THR : Fld := ⟨0x16001C, 8, 12, .rw⟩
def F.VIS_TBL_SEL_INDEX : Fld := ⟨0x160020, 0, 16, .rw⟩
def F.VIS_TBL_SEL_CAM : Fld := ⟨0x160020, 16, 3, .rw⟩
def F.VIS_TBL_SEL_TBL : Fld := ⟨0x160020, 19, 1, .rw⟩
def F.VIS_PORT_CFG_EN (i : Nat) : Fld := ⟨0x160100 + 64 * i, 0, 1, .rw⟩
def F.VIS_PORT_ERR_CRC (i : Nat) : Fld := ⟨0x160108 + 64 * i, 0, 16, .rc⟩
def F.VIS_PORT_ERR_ECC_UNC (i : Nat) : Fld := ⟨0x160108 + 64 * i, 16, 8, .rc⟩
def F.VIS_PORT_ERR_DT_UNK (i : Nat) : Fld := ⟨0x160108 + 64 * i, 24, 8, .rc⟩
def F.VIS_I2C_ERR_NACK (i : Nat) : Fld := ⟨0x16010C + 64 * i, 0, 16, .rc⟩
def F.VIS_CAM_CFG_EN (i : Nat) : Fld := ⟨0x161000 + 512 * i, 0, 1, .rwg⟩
def F.VIS_CAM_CFG_VC (i : Nat) : Fld := ⟨0x161000 + 512 * i, 1, 2, .rwg⟩
def F.VIS_CAM_CFG_DT (i : Nat) : Fld := ⟨0x161000 + 512 * i, 3, 2, .rwg⟩
def F.VIS_CAM_CFG_BAYER (i : Nat) : Fld := ⟨0x161000 + 512 * i, 5, 3, .rwg⟩
def F.VIS_CAM_CFG_EXPS (i : Nat) : Fld := ⟨0x161000 + 512 * i, 8, 2, .rwg⟩
def F.VIS_CAM_CFG_ARCH (i : Nat) : Fld := ⟨0x161000 + 512 * i, 10, 1, .rwg⟩
def F.VIS_CAM_CFG_MODE (i : Nat) : Fld := ⟨0x161000 + 512 * i, 11, 2, .rwg⟩
def F.VIS_CAM_SIZE_WIDTH (i : Nat) : Fld := ⟨0x161004 + 512 * i, 0, 16, .rwg⟩
def F.VIS_CAM_SIZE_FLINES (i : Nat) : Fld := ⟨0x161004 + 512 * i, 16, 16, .rwg⟩
def F.VIS_CAM_PITCH_LINES (i : Nat) : Fld := ⟨0x161008 + 512 * i, 0, 24, .rwg⟩
def F.VIS_CAM_OFS_LINES (i : Nat) : Fld := ⟨0x16100C + 512 * i, 0, 24, .rwg⟩
def F.VIS_CAM_DLY_LINES (i : Nat) : Fld := ⟨0x161010 + 512 * i, 0, 24, .rwg⟩
def F.VIS_CAM_X0_X0 (i : Nat) : Fld := ⟨0x161014 + 512 * i, 0, 18, .rwg⟩
def F.VIS_CAM_STEP_COLSTEP (i : Nat) : Fld := ⟨0x161018 + 512 * i, 0, 16, .rwg⟩
def F.VIS_CAM_STEP_LINESTEP (i : Nat) : Fld := ⟨0x161018 + 512 * i, 16, 16, .rwg⟩
def F.VIS_CAM_BLACK_BLACK (i : Nat) : Fld := ⟨0x16101C + 512 * i, 0, 16, .rwg⟩
def F.VIS_SENS_EXP_TIME (i : Nat) (j : Nat) : Fld := ⟨0x161040 + 512 * i + 4 * j, 0, 24, .rwg⟩
def F.VIS_SENS_CFG_ADDR (i : Nat) : Fld := ⟨0x16104C + 512 * i, 0, 7, .rwg⟩
def F.VIS_SENS_CFG_DLEN (i : Nat) : Fld := ⟨0x16104C + 512 * i, 7, 1, .rwg⟩
def F.VIS_SENS_CFG_LAT (i : Nat) : Fld := ⟨0x16104C + 512 * i, 8, 2, .rwg⟩
def F.VIS_SENS_CFG_SAT (i : Nat) : Fld := ⟨0x16104C + 512 * i, 16, 16, .rwg⟩
def F.VIS_SENS_SEQ_REG (i : Nat) (j : Nat) : Fld := ⟨0x161050 + 512 * i + 4 * j, 0, 16, .rwg⟩
def F.VIS_SENS_SEQ_DATA (i : Nat) (j : Nat) : Fld := ⟨0x161050 + 512 * i + 4 * j, 16, 16, .rwg⟩
def F.VIS_CAM_CNT0_MISSING (i : Nat) : Fld := ⟨0x1610A4 + 512 * i, 0, 16, .rc⟩
def F.VIS_CAM_CNT0_LATE (i : Nat) : Fld := ⟨0x1610A4 + 512 * i, 16, 16, .rc⟩
def F.VIS_CAM_CNT1_SHORT (i : Nat) : Fld := ⟨0x1610A8 + 512 * i, 0, 8, .rc⟩
def F.VIS_CAM_CNT1_LONG (i : Nat) : Fld := ⟨0x1610A8 + 512 * i, 8, 8, .rc⟩
def F.VIS_CAM_CNT1_CRCERR (i : Nat) : Fld := ⟨0x1610A8 + 512 * i, 16, 8, .rc⟩
def F.VIS_CAM_CNT1_STRAY (i : Nat) : Fld := ⟨0x1610A8 + 512 * i, 24, 8, .rc⟩
def F.VIS_CAM_WAIT_PEAK (i : Nat) : Fld := ⟨0x1610AC + 512 * i, 0, 24, .rc⟩
def F.VIS_ROI0_X (i : Nat) (j : Nat) : Fld := ⟨0x161100 + 512 * i + 16 * j, 0, 16, .rwg⟩
def F.VIS_ROI0_W (i : Nat) (j : Nat) : Fld := ⟨0x161100 + 512 * i + 16 * j, 16, 16, .rwg⟩
def F.VIS_ROI1_Y (i : Nat) (j : Nat) : Fld := ⟨0x161104 + 512 * i + 16 * j, 0, 16, .rwg⟩
def F.VIS_ROI1_H (i : Nat) (j : Nat) : Fld := ⟨0x161104 + 512 * i + 16 * j, 16, 16, .rwg⟩
def F.VIS_ROI2_KIND (i : Nat) (j : Nat) : Fld := ⟨0x161108 + 512 * i + 16 * j, 0, 3, .rwg⟩
def F.VIS_ROI2_CH (i : Nat) (j : Nat) : Fld := ⟨0x161108 + 512 * i + 16 * j, 3, 2, .rwg⟩
def F.VIS_ROI2_BAR (i : Nat) (j : Nat) : Fld := ⟨0x161108 + 512 * i + 16 * j, 5, 3, .rwg⟩
def F.VIS_ROI2_STAGGER (i : Nat) (j : Nat) : Fld := ⟨0x161108 + 512 * i + 16 * j, 8, 6, .rwg⟩
def F.VIS_ROI3_COL0 (i : Nat) (j : Nat) : Fld := ⟨0x16110C + 512 * i + 16 * j, 0, 17, .rwg⟩
def F.VIS_ROI3_NCOL (i : Nat) (j : Nat) : Fld := ⟨0x16110C + 512 * i + 16 * j, 17, 15, .rwg⟩
def F.CHL_CTL_NOZ_EN : Fld := ⟨0x170000, 0, 1, .rwg⟩
def F.CHL_CTL_TONE_EN : Fld := ⟨0x170000, 1, 1, .rwg⟩
def F.CHL_CTL_REG_EN : Fld := ⟨0x170000, 2, 1, .rwg⟩
def F.CHL_CTL_OUT_AUTO : Fld := ⟨0x170000, 3, 1, .rwg⟩
def F.CHL_CTL_SVC : Fld := ⟨0x170000, 4, 1, .rwg⟩
def F.CHL_CTL_REG_REF : Fld := ⟨0x170000, 5, 3, .rwg⟩
def F.CHL_NOZ_LAW_KN : Fld := ⟨0x170004, 0, 16, .rwg⟩
def F.CHL_NOZ_LAW_DB : Fld := ⟨0x170004, 16, 8, .rwg⟩
def F.CHL_NOZ_LAW_NAVG_LOG2 : Fld := ⟨0x170004, 24, 3, .rwg⟩
def F.CHL_NOZ_LIM_NSTEP : Fld := ⟨0x170008, 0, 8, .rwg⟩
def F.CHL_NOZ_LIM_GLIM : Fld := ⟨0x170008, 8, 13, .rwg⟩
def F.CHL_NOZ_LIM_OUT_N : Fld := ⟨0x170008, 21, 8, .rwg⟩
def F.CHL_TONE_LAW_KT : Fld := ⟨0x17000C, 0, 16, .rwg⟩
def F.CHL_TONE_LAW_DBT : Fld := ⟨0x17000C, 16, 8, .rwg⟩
def F.CHL_TONE_LAW_TSTEP : Fld := ⟨0x17000C, 24, 8, .rwg⟩
def F.CHL_TONE_LIM_TLIM : Fld := ⟨0x170010, 0, 11, .rwg⟩
def F.CHL_REG_LAW_KR : Fld := ⟨0x170014, 0, 16, .rwg⟩
def F.CHL_REG_LAW_DBR : Fld := ⟨0x170014, 16, 8, .rwg⟩
def F.CHL_REG_LAW_RSTEP : Fld := ⟨0x170014, 24, 6, .rwg⟩
def F.CHL_BLIND_TMO_MS : Fld := ⟨0x17001C, 0, 16, .rw⟩
def F.CHL_OUT_LAST_COL : Fld := ⟨0x170024, 0, 17, .ro⟩
def F.CHL_OUT_LAST_BAR : Fld := ⟨0x170024, 17, 3, .ro⟩
def F.CHL_OUT_LAST_AMBIG : Fld := ⟨0x170024, 20, 1, .ro⟩
def F.CHL_OUT_LAST_SET : Fld := ⟨0x170024, 21, 1, .ro⟩
def F.CHL_ACT_CNT_COUNT : Fld := ⟨0x170028, 0, 32, .rc⟩
def F.CHL_SKIP_CNT_COUNT : Fld := ⟨0x17002C, 0, 32, .rc⟩
def F.CHL_REG_TGT_TGT (i : Nat) : Fld := ⟨0x170040 + 4 * i, 0, 7, .rw⟩
def F.CHL_RRES_RES (i : Nat) : Fld := ⟨0x170060 + 4 * i, 0, 16, .ro⟩
def F.CHL_DRES_RES (i : Nat) : Fld := ⟨0x170080 + 4 * i, 0, 16, .ro⟩
def F.CHL_DTGT_D (i : Nat) (j : Nat) : Fld := ⟨0x170100 + 68 * i + 4 * j, 0, 12, .rw⟩
def F.CHL_DLIM_LO (i : Nat) (j : Nat) : Fld := ⟨0x170400 + 68 * i + 4 * j, 0, 12, .rw⟩
def F.CHL_DLIM_HI (i : Nat) (j : Nat) : Fld := ⟨0x170400 + 68 * i + 4 * j, 16, 12, .rw⟩
def F.CHL_ROI_MAP_ROLE (i : Nat) (j : Nat) : Fld := ⟨0x170800 + 64 * i + 4 * j, 0, 3, .rw⟩
def F.CHL_ROI_MAP_KNOT (i : Nat) (j : Nat) : Fld := ⟨0x170800 + 64 * i + 4 * j, 4, 5, .rw⟩
def F.CHL_CAL_DT_DT : Fld := ⟨0x170A00, 0, 6, .rw⟩
def F.CHL_CAL_STAT_COUNT (i : Nat) : Fld := ⟨0x170A40 + 8 * i, 0, 16, .ro⟩
def F.CHL_CAL_STAT_TLAST (i : Nat) : Fld := ⟨0x170A40 + 8 * i, 20, 12, .ro⟩
def F.CHL_CAL_TIME_SEC (i : Nat) : Fld := ⟨0x170A44 + 8 * i, 0, 32, .ro⟩
def F.MOT_CFG_MODE (i : Nat) : Fld := ⟨0x180000 + 512 * i, 0, 3, .rwg⟩
def F.MOT_CFG_DIR_INV (i : Nat) : Fld := ⟨0x180000 + 512 * i, 3, 1, .rwg⟩
def F.MOT_CFG_MSTEP_LOG2 (i : Nat) : Fld := ⟨0x180000 + 512 * i, 4, 3, .rwg⟩
def F.MOT_CFG_STEP_W (i : Nat) : Fld := ⟨0x180000 + 512 * i, 8, 8, .rwg⟩
def F.MOT_VMAX_VALUE (i : Nat) : Fld := ⟨0x180008 + 512 * i, 0, 32, .rw⟩
def F.MOT_ACC_VALUE (i : Nat) : Fld := ⟨0x18000C + 512 * i, 0, 32, .rw⟩
def F.MOT_DEC_VALUE (i : Nat) : Fld := ⟨0x180010 + 512 * i, 0, 32, .rw⟩
def F.MOT_TARGET_LO_TARGET (i : Nat) : Fld := ⟨0x180014 + 512 * i, 0, 32, .rw⟩
def F.MOT_TARGET_HI_TARGET (i : Nat) : Fld := ⟨0x180018 + 512 * i, 0, 16, .rw⟩
def F.MOT_FLAGS_ACC_CLAMP (i : Nat) : Fld := ⟨0x180030 + 512 * i, 0, 1, .w1c⟩
def F.MOT_FLAGS_TGT_REJ (i : Nat) : Fld := ⟨0x180030 + 512 * i, 1, 1, .w1c⟩
def F.MOT_FLAGS_SEG_ERR (i : Nat) : Fld := ⟨0x180030 + 512 * i, 2, 1, .w1c⟩
def F.MOT_FLAGS_VEL_CLAMP (i : Nat) : Fld := ⟨0x180030 + 512 * i, 3, 1, .w1c⟩
def F.MOT_FLAGS_SHORT (i : Nat) : Fld := ⟨0x180030 + 512 * i, 4, 1, .w1c⟩
def F.MOT_FLAGS_OPEN (i : Nat) : Fld := ⟨0x180030 + 512 * i, 5, 1, .w1c⟩
def F.MOT_SEG_FIRST (i : Nat) : Fld := ⟨0x180034 + 512 * i, 0, 10, .rw⟩
def F.MOT_SEG_COUNT (i : Nat) : Fld := ⟨0x180034 + 512 * i, 10, 11, .rw⟩
def F.MOT_VTGT_VTGT (i : Nat) : Fld := ⟨0x180038 + 512 * i, 0, 32, .rw⟩
def F.MOT_CHOP_OFF_T (i : Nat) : Fld := ⟨0x180040 + 512 * i, 0, 8, .rwg⟩
def F.MOT_CHOP_FD_SHARE (i : Nat) : Fld := ⟨0x180040 + 512 * i, 13, 4, .rwg⟩
def F.MOT_CUR_ACC_I (i : Nat) : Fld := ⟨0x180044 + 512 * i, 0, 8, .rw⟩
def F.MOT_CUR_CRUISE_I (i : Nat) : Fld := ⟨0x180044 + 512 * i, 8, 8, .rw⟩
def F.MOT_CUR_REST_I (i : Nat) : Fld := ⟨0x180044 + 512 * i, 16, 8, .rw⟩
def F.MOT_CUR_PARK_I (i : Nat) : Fld := ⟨0x180044 + 512 * i, 24, 8, .rw⟩
def F.MOT_CUR_DLY_PARK_DLY (i : Nat) : Fld := ⟨0x18004C + 512 * i, 0, 16, .rw⟩
def F.MOT_SEQ_SEG_FIRST (i : Nat) (j : Nat) : Fld := ⟨0x180060 + 512 * i + 4 * j, 0, 10, .rw⟩
def F.MOT_SEQ_SEG_COUNT (i : Nat) (j : Nat) : Fld := ⟨0x180060 + 512 * i + 4 * j, 10, 11, .rw⟩
def F.MOT_FOLLOW_RATIO (i : Nat) : Fld := ⟨0x181A50 + 512 * i, 0, 32, .rw⟩
def F.MOT_WEB_TGT_MMS : Fld := ⟨0x182000, 0, 16, .rw⟩
def F.MOT_WEB_VMAX_MMS : Fld := ⟨0x182004, 0, 16, .rw⟩
def F.MOT_WEB_SCALE_SCALE : Fld := ⟨0x182008, 0, 32, .rw⟩
def F.MOT_WEB_ACC_MMS2 : Fld := ⟨0x18200C, 0, 16, .rw⟩
def F.MOT_WEB_DEC_MMS2 (i : Nat) : Fld := ⟨0x182010 + 4 * i, 0, 16, .rw⟩
def F.MOT_SEQ_CFG_AXES (i : Nat) : Fld := ⟨0x182040 + 4 * i, 0, 12, .rw⟩
def F.MOT_SEQ_CFG_TMO (i : Nat) : Fld := ⟨0x182040 + 4 * i, 12, 12, .rw⟩
def F.MOT_SEQ_CFG_ESTOP_WAIT (i : Nat) : Fld := ⟨0x182040 + 4 * i, 24, 1, .rw⟩
def F.MOT_SEQ_STAT_SEQ_REJ : Fld := ⟨0x182064, 24, 5, .w1c⟩
def F.LMP_CHAIN_CFG_EN (i : Nat) : Fld := ⟨0x190000 + 64 * i, 0, 1, .rwg⟩
def F.LMP_CHAIN_CFG_DEVICES (i : Nat) : Fld := ⟨0x190000 + 64 * i, 1, 6, .rwg⟩
def F.LMP_CHAIN_CFG_SCLK (i : Nat) : Fld := ⟨0x190000 + 64 * i, 7, 3, .rwg⟩
def F.LMP_CHAIN_CFG_FRAME (i : Nat) : Fld := ⟨0x190000 + 64 * i, 13, 16, .rwg⟩
def F.LMP_CHAIN_ERR_COUNT (i : Nat) : Fld := ⟨0x190008 + 64 * i, 0, 32, .rc⟩
def F.LMP_DIAG_CFG_DIAG_TON : Fld := ⟨0x190104, 0, 12, .rw⟩
def F.LMP_DIAG_CFG_STRETCH_EN : Fld := ⟨0x190104, 12, 1, .rw⟩
def F.LMP_DIAG_CFG_DIAG_IVL : Fld := ⟨0x190104, 13, 16, .rw⟩
def F.LMP_VREF_MMS : Fld := ⟨0x190108, 0, 16, .rw⟩
def F.LMP_I2C_ERR_BUS0 : Fld := ⟨0x19010C, 0, 16, .rc⟩
def F.LMP_I2C_ERR_BUS1 : Fld := ⟨0x19010C, 16, 16, .rc⟩
def F.LMP_LS_REF_VALUE (i : Nat) (j : Nat) : Fld := ⟨0x190204 + 24 * i + 8 * j, 0, 16, .rw⟩
def F.LMP_LAMP_CFG_EN (i : Nat) : Fld := ⟨0x191000 + 64 * i, 0, 1, .rwg⟩
def F.LMP_LAMP_CFG_CHAIN (i : Nat) : Fld := ⟨0x191000 + 64 * i, 1, 2, .rwg⟩
def F.LMP_LAMP_CFG_FIRST (i : Nat) : Fld := ⟨0x191000 + 64 * i, 3, 10, .rwg⟩
def F.LMP_LAMP_CFG_COUNT (i : Nat) : Fld := ⟨0x191000 + 64 * i, 13, 10, .rwg⟩
def F.LMP_LAMP_CFG_KIND (i : Nat) : Fld := ⟨0x191000 + 64 * i, 23, 1, .rwg⟩
def F.LMP_LAMP_CFG_ON_READY (i : Nat) : Fld := ⟨0x191000 + 64 * i, 24, 1, .rwg⟩
def F.LMP_LAMP_CFG_POLICY (i : Nat) : Fld := ⟨0x191000 + 64 * i, 25, 2, .rwg⟩
def F.LMP_LAMP_CFG_TS (i : Nat) : Fld := ⟨0x191000 + 64 * i, 27, 4, .rwg⟩
def F.LMP_LAMP_SRC_PD (i : Nat) : Fld := ⟨0x191004 + 64 * i, 0, 4, .rwg⟩
def F.LMP_LAMP_SRC_LS (i : Nat) : Fld := ⟨0x191004 + 64 * i, 4, 4, .rwg⟩
def F.LMP_LAMP_SRC_COL (i : Nat) : Fld := ⟨0x191004 + 64 * i, 8, 2, .rwg⟩
def F.LMP_LAMP_SRC_CAL_DUTY (i : Nat) : Fld := ⟨0x191004 + 64 * i, 10, 12, .rwg⟩
def F.LMP_LAMP_TGT_TGT (i : Nat) : Fld := ⟨0x191008 + 64 * i, 0, 16, .rw⟩
def F.LMP_LAMP_TGT_TMAX (i : Nat) : Fld := ⟨0x191008 + 64 * i, 16, 16, .rw⟩
def F.LMP_LAMP_LAW_KI (i : Nat) : Fld := ⟨0x19100C + 64 * i, 0, 16, .rwg⟩
def F.LMP_LAMP_LAW_DMAX (i : Nat) : Fld := ⟨0x19100C + 64 * i, 16, 12, .rwg⟩
def F.LMP_LAMP_DER_T_DER (i : Nat) : Fld := ⟨0x191010 + 64 * i, 0, 16, .rwg⟩
def F.LMP_LAMP_DER_T_OFF (i : Nat) : Fld := ⟨0x191010 + 64 * i, 16, 16, .rwg⟩
def F.TBL_CFG_TWIN : Fld := ⟨0x1A0000, 0, 1, .rw⟩
def F.TBL_CFG_RATE : Fld := ⟨0x1A0000, 1, 2, .rw⟩
def F.TBL_CFG_REVERT_AT_JOB : Fld := ⟨0x1A0000, 3, 1, .rw⟩
def F.TBL_CFG_AUTO_JOIN : Fld := ⟨0x1A0000, 4, 1, .rw⟩
def F.TBL_CFG_LANE_EN : Fld := ⟨0x1A0000, 16, 12, .rw⟩
def F.TBL_PAD_HOLD_US : Fld := ⟨0x1A0010, 0, 16, .rw⟩
def F.TBL_QUAL_S : Fld := ⟨0x1A0014, 0, 16, .rw⟩
def F.TBL_POS_TOL_STEPS : Fld := ⟨0x1A0018, 0, 16, .rw⟩
def F.TBL_POS_TOL_N : Fld := ⟨0x1A0018, 16, 8, .rw⟩
def F.TBL_FWD_LVL_PEAK : Fld := ⟨0x1A0034, 16, 10, .rc⟩
def F.TBL_TAKE_CNT_COUNT : Fld := ⟨0x1A0040, 0, 32, .rc⟩
def F.TBL_DIV_CNT_COUNT : Fld := ⟨0x1A0044, 0, 32, .rc⟩
def F.TBL_REPLAY_CNT_COUNT : Fld := ⟨0x1A0048, 0, 32, .rc⟩
def F.TBL_REJ_CNT_COUNT : Fld := ⟨0x1A004C, 0, 32, .rc⟩
def F.TBL_CODE_ERR_COUNT (i : Nat) : Fld := ⟨0x1A0120 + 64 * i, 0, 32, .rc⟩
def F.TBL_DOWN_CNT_COUNT (i : Nat) : Fld := ⟨0x1A0124 + 64 * i, 0, 32, .rc⟩
def F.THM_RISE_PEAK : Fld := ⟨0x1B0004, 16, 16, .rc⟩
def F.THM_RISE_WARN_RATE : Fld := ⟨0x1B0010, 0, 16, .rw⟩
def F.THM_RISE_STOP_RATE : Fld := ⟨0x1B0014, 0, 16, .rw⟩
def F.THM_STEP_T_T (i : Nat) : Fld := ⟨0x1B0020 + 4 * i, 0, 16, .rw⟩
def F.THM_STEP_CFG_DWELL : Fld := ⟨0x1B0030, 0, 8, .rw⟩
def F.THM_STOP_TIME_T10MS : Fld := ⟨0x1B0034, 0, 16, .rw⟩
def F.THM_ALERT_EN_STEP : Fld := ⟨0x1B0038, 0, 1, .rw⟩
def F.THM_ALERT_EN_STEP3 : Fld := ⟨0x1B0038, 1, 1, .rw⟩
def F.THM_ALERT_EN_WARN : Fld := ⟨0x1B0038, 2, 1, .rw⟩
def F.THM_ALERT_EN_STOP : Fld := ⟨0x1B0038, 3, 1, .rw⟩
def F.THM_ALERT_EN_SENSOR : Fld := ⟨0x1B0038, 4, 1, .rw⟩
def F.THM_ALERT_EN_BAND4 : Fld := ⟨0x1B0038, 5, 1, .rw⟩
def F.THM_PEAK_T : Fld := ⟨0x1B003C, 0, 16, .rc⟩
def F.THM_STEP_CNT_COUNT : Fld := ⟨0x1B0040, 0, 32, .rc⟩
def F.THM_STOP_CNT_COUNT : Fld := ⟨0x1B0044, 0, 32, .rc⟩
def F.THM_ISTOP_CNT_COUNT : Fld := ⟨0x1B0048, 0, 32, .rc⟩
def F.FLT_PERM_COUNT (i : Nat) : Fld := ⟨0x1C0004 + 8 * i, 0, 16, .rw⟩
def F.FLT_TEL_CFG_IVL : Fld := ⟨0x1C0040, 0, 16, .rw⟩
def F.FLT_TEL_CFG_MASK : Fld := ⟨0x1C0040, 16, 8, .rw⟩
def F.FLT_NOZ_SEL_HEAD : Fld := ⟨0x1C0050, 0, 9, .rw⟩
def F.FLT_NOZ_SEL_GROUP : Fld := ⟨0x1C0050, 9, 6, .rw⟩
def F.FLT_SB_TOTAL_COUNT (i : Nat) : Fld := ⟨0x1C0104 + 8 * i, 0, 32, .rc⟩
def F.TIM_CFG_EN : Fld := ⟨0x1D0000, 0, 1, .rw⟩
def F.TIM_CFG_DOMAIN : Fld := ⟨0x1D0000, 1, 7, .rw⟩
def F.TIM_STEP_MAX_VALUE : Fld := ⟨0x1D0004, 0, 24, .rw⟩
def F.TIM_SLEW_MAX_VALUE : Fld := ⟨0x1D0008, 0, 24, .rw⟩
def F.TIM_STEP_CNT_COUNT : Fld := ⟨0x1D0030, 0, 32, .rc⟩
def F.TIM_REFUSE_CNT_COUNT : Fld := ⟨0x1D0034, 0, 32, .rc⟩
def F.TIM_PULSE_START_NS_VALUE (i : Nat) : Fld := ⟨0x1D0100 + 32 * i, 0, 32, .rwg⟩
def F.TIM_PULSE_START_LO_VALUE (i : Nat) : Fld := ⟨0x1D0104 + 32 * i, 0, 32, .rwg⟩
def F.TIM_PULSE_START_HI_VALUE (i : Nat) : Fld := ⟨0x1D0108 + 32 * i, 0, 16, .rwg⟩
def F.TIM_PULSE_PERIOD_NS (i : Nat) : Fld := ⟨0x1D010C + 32 * i, 0, 32, .rwg⟩
def F.TIM_PULSE_WIDTH_NS (i : Nat) : Fld := ⟨0x1D0110 + 32 * i, 0, 32, .rwg⟩
def F.PAD_GPIO_CFG_FUNC (i : Nat) : Fld := ⟨0x1E0000 + 4 * i, 0, 8, .rwg⟩
def F.PAD_GPIO_CFG_SAFE (i : Nat) : Fld := ⟨0x1E0000 + 4 * i, 8, 2, .rwg⟩
def F.PAD_GPIO_CFG_INV (i : Nat) : Fld := ⟨0x1E0000 + 4 * i, 10, 1, .rwg⟩
def F.PAD_GPIO_OUT_OUT : Fld := ⟨0x1E0084, 0, 32, .rw⟩
def F.PAD_ESTOP_COUNT : Fld := ⟨0x1E0090, 16, 16, .rc⟩

end Sys2Proof.Machine
end

