-- ==== Sys2Proof/Machine/RegTable.lean ====
section
/-! DEFINITION. The register tables of spec/: every register of configuration space with its fields, access types and write
roles, as R6 to R8 use them for an access that has no command of its own. -/
namespace Sys2Proof.Machine

/-- One field of a register table: lowest bit, width, access type, write role (none: "—"). -/
structure RegField where
  lo : Nat
  w : Nat
  acc : Acc
  role : Option Role
deriving DecidableEq, Repr

/-- The commit group a register's heading names (R353), without its index. -/
inductive GroupKind
  | none | lyrCtl | tonOfs | nzmGeom | nzmCfg | encSrc | encCfg | ltmGeom | ltmTiming | ltmGov | lnkCfg | memCtl
  | visAce | visCam | visSens | chlLaw | motCfg | lmpCfg | timPulse | padCfg
deriving DecidableEq, Repr

/-- A register, or an array of registers with (count, stride) for each index. -/
structure RegRow where
  name : String
  base : Nat
  dims : List (Nat × Nat)
  grp : GroupKind
  fields : List RegField
deriving DecidableEq, Repr

/-- Registers SYS_PART to ING_JOB_SEL. -/
def regRows0 : List RegRow := [
  ⟨"SYS_PART", 0x0, [], .none, [⟨0, 16, .ro, none⟩, ⟨16, 8, .ro, none⟩, ⟨24, 8, .ro, none⟩]⟩,
  ⟨"SYS_REV", 0x4, [], .none, [⟨0, 8, .ro, none⟩, ⟨8, 8, .ro, none⟩]⟩,
  ⟨"SYS_FW_VER", 0x8, [], .none, [⟨0, 8, .ro, none⟩, ⟨8, 8, .ro, none⟩, ⟨16, 8, .ro, none⟩]⟩,
  ⟨"SYS_SERIAL_LO", 0xC, [], .none, [⟨0, 32, .ro, none⟩]⟩,
  ⟨"SYS_SERIAL_HI", 0x10, [], .none, [⟨0, 32, .ro, none⟩]⟩,
  ⟨"SYS_CAPS", 0x14, [], .none, [⟨0, 4, .ro, none⟩, ⟨4, 6, .ro, none⟩, ⟨10, 4, .ro, none⟩, ⟨14, 4, .ro, none⟩, ⟨18, 4, .ro, none⟩, ⟨22, 5, .ro, none⟩]⟩,
  ⟨"SYS_MODE", 0x100, [], .none, [⟨0, 4, .ro, none⟩, ⟨4, 1, .ro, none⟩, ⟨5, 1, .ro, none⟩, ⟨6, 1, .ro, none⟩, ⟨8, 4, .ro, none⟩, ⟨12, 4, .ro, none⟩, ⟨16, 8, .ro, none⟩]⟩,
  ⟨"SYS_MODE_REQ", 0x104, [], .none, [⟨0, 4, .wo, (some .operator)⟩, ⟨16, 16, .wo, (some .operator)⟩]⟩,
  ⟨"SYS_IDLE_CFG", 0x108, [], .none, [⟨0, 1, .rw, (some .installer)⟩, ⟨8, 16, .rw, (some .installer)⟩]⟩,
  ⟨"SYS_REQ_REJ", 0x10C, [], .none, [⟨0, 16, .rc, none⟩]⟩,
  ⟨"SYS_RESET_CMD", 0x110, [], .none, [⟨0, 8, .wo, (some .installer)⟩, ⟨8, 8, .wo, (some .maker)⟩, ⟨24, 8, .wo, (some .installer)⟩]⟩,
  ⟨"SYS_RESET_CAUSE", 0x114, [], .none, [⟨0, 3, .ro, none⟩, ⟨8, 8, .ro, none⟩, ⟨16, 16, .rc, none⟩]⟩,
  ⟨"SYS_BOOT_STAT", 0x118, [], .none, [⟨0, 4, .ro, none⟩, ⟨8, 8, .ro, none⟩, ⟨16, 16, .ro, none⟩]⟩,
  ⟨"SYS_NVM_BUSY", 0x11C, [], .none, [⟨0, 1, .ro, none⟩]⟩,
  ⟨"CFG_SESSION_ROLE", 0x10000, [], .none, [⟨0, 2, .ro, none⟩, ⟨2, 3, .ro, none⟩]⟩,
  ⟨"CFG_SESSION_CFG", 0x10004, [], .none, [⟨0, 16, .rw, (some .installer)⟩]⟩,
  ⟨"CFG_NVM_CMD", 0x10010, [], .none, [⟨0, 8, .wo, (some .installer)⟩, ⟨24, 8, .wo, (some .installer)⟩]⟩,
  ⟨"CFG_NVM_STAT", 0x10014, [], .none, [⟨0, 4, .ro, none⟩, ⟨4, 4, .ro, none⟩, ⟨8, 8, .rc, none⟩, ⟨16, 16, .ro, none⟩]⟩,
  ⟨"CFG_IMG_STAT", 0x10018, [], .none, [⟨0, 1, .ro, none⟩, ⟨1, 1, .ro, none⟩, ⟨2, 1, .ro, none⟩, ⟨3, 1, .ro, none⟩, ⟨16, 16, .ro, none⟩]⟩,
  ⟨"CFG_NVM_CFG", 0x1001C, [], .none, [⟨0, 16, .rw, (some .installer)⟩, ⟨16, 8, .rw, (some .installer)⟩]⟩,
  ⟨"CFG_AUDIT_IDX", 0x10040, [], .none, [⟨0, 32, .rw, (some .installer)⟩]⟩,
  ⟨"CFG_AUDIT_DATA", 0x10044, [(8, 0x4)], .none, [⟨0, 32, .ro, none⟩]⟩,
  ⟨"CFG_AUDIT_HEAD", 0x10064, [], .none, [⟨0, 32, .ro, none⟩]⟩,
  ⟨"CVQ_LVL_FLAG", 0x20000, [(2, 0x4)], .none, [⟨0, 32, .w1c, (some .operator)⟩]⟩,
  ⟨"CVQ_LVL_IE", 0x20008, [(2, 0x4)], .none, [⟨0, 32, .rw, (some .installer)⟩]⟩,
  ⟨"CVQ_FILL", 0x20100, [(64, 0x20)], .none, [⟨0, 28, .ro, none⟩, ⟨30, 1, .ro, none⟩, ⟨31, 1, .ro, none⟩]⟩,
  ⟨"CVQ_LEVEL", 0x20104, [(64, 0x20)], .none, [⟨0, 28, .rw, (some .operator)⟩]⟩,
  ⟨"CVQ_DUNE_BASE", 0x20108, [(64, 0x20)], .none, [⟨0, 20, .rw, (some .installer)⟩]⟩,
  ⟨"CVQ_DUNE_SIZE", 0x2010C, [(64, 0x20)], .none, [⟨0, 11, .rw, (some .installer)⟩]⟩,
  ⟨"CVQ_STAT", 0x20110, [(64, 0x20)], .none, [⟨0, 1, .ro, none⟩, ⟨1, 1, .ro, none⟩, ⟨16, 16, .rc, none⟩]⟩,
  ⟨"CVQ_DROP", 0x20114, [(64, 0x20)], .none, [⟨0, 32, .rc, none⟩]⟩,
  ⟨"CVQ_PEAK", 0x20118, [(64, 0x20)], .none, [⟨0, 28, .rc, none⟩]⟩,
  ⟨"ING_LINK_STAT", 0x30000, [], .none, [⟨0, 3, .ro, none⟩, ⟨3, 4, .ro, none⟩, ⟨7, 2, .ro, none⟩]⟩,
  ⟨"ING_CTL", 0x30004, [], .none, [⟨0, 8, .rw, (some .installer)⟩]⟩,
  ⟨"ING_STALE_CNT", 0x30008, [], .none, [⟨0, 32, .rc, none⟩]⟩,
  ⟨"ING_OBJ_BAD", 0x3000C, [], .none, [⟨0, 16, .rc, none⟩]⟩,
  ⟨"ING_LS_BASE", 0x30010, [], .none, [⟨0, 20, .rw, (some .installer)⟩]⟩,
  ⟨"ING_LS_SIZE", 0x30014, [], .none, [⟨0, 20, .rw, (some .installer)⟩]⟩,
  ⟨"ING_LS_FREE", 0x30018, [], .none, [⟨0, 20, .ro, none⟩]⟩,
  ⟨"ING_JOB_SEL", 0x30020, [], .none, [⟨0, 12, .rw, (some .operator)⟩]⟩]

/-- Registers ING_JOB_STAT to NZM_PEEK_VAL. -/
def regRows1 : List RegRow := [
  ⟨"ING_JOB_STAT", 0x30024, [], .none, [⟨0, 16, .ro, none⟩, ⟨16, 3, .ro, none⟩, ⟨19, 1, .ro, none⟩, ⟨20, 4, .ro, none⟩]⟩,
  ⟨"ING_RING_STAT", 0x30100, [(8, 0x10)], .none, [⟨0, 1, .ro, none⟩, ⟨1, 1, .ro, none⟩, ⟨4, 4, .ro, none⟩, ⟨16, 16, .ro, none⟩]⟩,
  ⟨"CMP_CTX_CFG", 0x40000, [(6, 0x20)], .none, [⟨0, 1, .rw, (some .installer)⟩]⟩,
  ⟨"CMP_CTX_IN", 0x40004, [(6, 0x20)], .none, [⟨0, 32, .rc, none⟩]⟩,
  ⟨"CMP_CTX_OUT", 0x40008, [(6, 0x20)], .none, [⟨0, 32, .rc, none⟩]⟩,
  ⟨"CMP_CTX_MISM", 0x4000C, [(6, 0x20)], .none, [⟨0, 16, .rc, none⟩]⟩,
  ⟨"LYR_CTL", 0x80000, [(8, 0x10000)], .lyrCtl, [⟨0, 1, .rwg, (some .installer)⟩]⟩,
  ⟨"LYR_CTL_COMMIT", 0x80004, [(8, 0x10000)], .none, [⟨0, 1, .wo, (some .installer)⟩, ⟨1, 1, .wo, (some .installer)⟩, ⟨8, 1, .ro, none⟩, ⟨16, 16, .ro, none⟩]⟩,
  ⟨"LYR_JOB", 0x80010, [(8, 0x10000)], .none, [⟨0, 16, .ro, none⟩]⟩,
  ⟨"LYR_LINE_LO", 0x80014, [(8, 0x10000)], .none, [⟨0, 32, .ro, none⟩]⟩,
  ⟨"LYR_LINE_HI", 0x80018, [(8, 0x10000)], .none, [⟨0, 16, .ro, none⟩]⟩,
  ⟨"LYR_REPEAT", 0x8001C, [(8, 0x10000)], .none, [⟨0, 32, .ro, none⟩]⟩,
  ⟨"LYR_SLOT_STAT", 0x80040, [(8, 0x10000), (13, 0x4)], .none, [⟨0, 16, .ro, none⟩, ⟨16, 1, .ro, none⟩, ⟨17, 1, .ro, none⟩, ⟨18, 2, .ro, none⟩]⟩,
  ⟨"LYR_FETCH_MIB", 0x80080, [(8, 0x10000)], .none, [⟨0, 32, .rc, none⟩]⟩,
  ⟨"LYR_SKIP_MIB", 0x80084, [(8, 0x10000)], .none, [⟨0, 32, .rc, none⟩]⟩,
  ⟨"LYR_FETCH_PEAK", 0x80088, [(8, 0x10000)], .none, [⟨0, 24, .rc, none⟩]⟩,
  ⟨"LYR_WAIT_CNT", 0x8008C, [(8, 0x10000)], .none, [⟨0, 32, .rc, none⟩]⟩,
  ⟨"LYR_BADREF_CNT", 0x80090, [(8, 0x10000)], .none, [⟨0, 32, .rc, none⟩]⟩,
  ⟨"LYR_ACE_POLICY", 0x80100, [], .none, [⟨0, 1, .rw, (some .maker)⟩, ⟨1, 1, .rw, (some .maker)⟩, ⟨2, 1, .rw, (some .maker)⟩, ⟨8, 8, .rw, (some .maker)⟩, ⟨16, 8, .rw, (some .maker)⟩]⟩,
  ⟨"LYR_ACE_FAIL_CNT", 0x80104, [], .none, [⟨0, 32, .rc, none⟩]⟩,
  ⟨"LYR_ACE_LAST", 0x80108, [], .none, [⟨0, 32, .ro, none⟩]⟩,
  ⟨"LYR_ACE_SEAL_CRC", 0x80200, [(16, 0x8)], .none, [⟨0, 32, .rw, (some .installer)⟩]⟩,
  ⟨"LYR_ACE_SEAL_LEN", 0x80204, [(16, 0x8)], .none, [⟨0, 32, .rw, (some .installer)⟩]⟩,
  ⟨"TON_OFS", 0x84000, [(8, 0x10000), (17, 0x4)], .tonOfs, [⟨0, 12, .rwg, (some .installer)⟩]⟩,
  ⟨"TON_OFS_COMMIT", 0x84044, [(8, 0x10000)], .none, [⟨0, 1, .wo, (some .installer)⟩, ⟨1, 1, .wo, (some .installer)⟩, ⟨8, 1, .ro, none⟩, ⟨16, 16, .ro, none⟩]⟩,
  ⟨"TON_SLEW", 0x84048, [(8, 0x10000)], .none, [⟨0, 8, .rw, (some .installer)⟩]⟩,
  ⟨"TON_OFS_NOW", 0x84080, [(8, 0x10000), (17, 0x4)], .none, [⟨0, 12, .ro, none⟩]⟩,
  ⟨"HTN_CFG", 0x88000, [(8, 0x10000)], .none, [⟨0, 1, .rw, (some .installer)⟩, ⟨4, 4, .rw, (some .installer)⟩, ⟨8, 4, .rw, (some .installer)⟩]⟩,
  ⟨"HTN_PHASE", 0x88004, [(8, 0x10000)], .none, [⟨0, 16, .rw, (some .installer)⟩, ⟨16, 16, .rw, (some .installer)⟩]⟩,
  ⟨"HTN_STAT", 0x88008, [(8, 0x10000)], .none, [⟨0, 1, .ro, none⟩]⟩,
  ⟨"NZM_GEOM", 0x8C000, [(8, 0x10000), (40, 0x4)], .nzmGeom, [⟨0, 17, .rwg, (some .installer)⟩, ⟨17, 2, .rwg, (some .installer)⟩, ⟨19, 1, .rwg, (some .installer)⟩, ⟨20, 1, .rwg, (some .installer)⟩]⟩,
  ⟨"NZM_GEOM_COMMIT", 0x8C0A0, [(8, 0x10000)], .none, [⟨0, 1, .wo, (some .installer)⟩, ⟨1, 1, .wo, (some .installer)⟩, ⟨8, 1, .ro, none⟩, ⟨16, 16, .ro, none⟩]⟩,
  ⟨"NZM_GEOM_STAT", 0x8C0A4, [(8, 0x10000)], .none, [⟨0, 17, .ro, none⟩, ⟨31, 1, .ro, none⟩]⟩,
  ⟨"NZM_SEAM", 0x8C100, [(8, 0x10000), (39, 0x4)], .nzmCfg, [⟨0, 10, .rwg, (some .installer)⟩, ⟨10, 10, .rwg, (some .installer)⟩]⟩,
  ⟨"NZM_COMP", 0x8C1A0, [(8, 0x10000)], .nzmCfg, [⟨0, 2, .rwg, (some .installer)⟩, ⟨8, 8, .rwg, (some .installer)⟩, ⟨16, 8, .rwg, (some .installer)⟩, ⟨24, 3, .rwg, (some .installer)⟩]⟩,
  ⟨"NZM_CFG_COMMIT", 0x8C1A4, [(8, 0x10000)], .none, [⟨0, 1, .wo, (some .installer)⟩, ⟨1, 1, .wo, (some .installer)⟩, ⟨8, 1, .ro, none⟩, ⟨16, 16, .ro, none⟩]⟩,
  ⟨"NZM_SLEW", 0x8C1A8, [(8, 0x10000)], .none, [⟨0, 8, .rw, (some .installer)⟩, ⟨8, 8, .rw, (some .installer)⟩]⟩,
  ⟨"NZM_TGT_BASE", 0x8C1AC, [(8, 0x10000)], .none, [⟨0, 20, .rw, (some .installer)⟩]⟩,
  ⟨"NZM_PEEK_COL", 0x8C1B0, [(8, 0x10000)], .none, [⟨0, 17, .rw, (some .operator)⟩]⟩,
  ⟨"NZM_PEEK_VAL", 0x8C1B4, [(8, 0x10000)], .none, [⟨0, 32, .ro, none⟩]⟩]

/-- Registers NZM_STAT to LTM_GOV_ACC. -/
def regRows2 : List RegRow := [
  ⟨"NZM_STAT", 0x8C1B8, [(8, 0x10000)], .none, [⟨0, 12, .ro, none⟩, ⟨12, 1, .ro, none⟩, ⟨13, 1, .ro, none⟩, ⟨14, 1, .ro, none⟩]⟩,
  ⟨"NZM_WAIT_CNT", 0x8C1BC, [(8, 0x10000)], .none, [⟨0, 32, .rc, none⟩]⟩,
  ⟨"NZM_TBL_BAR", 0x8C200, [], .none, [⟨0, 3, .rw, (some .installer)⟩]⟩,
  ⟨"ENC_WEB_SRC", 0x100000, [], .encSrc, [⟨0, 2, .rwg, (some .installer)⟩, ⟨2, 2, .rwg, (some .installer)⟩, ⟨4, 1, .rwg, (some .installer)⟩]⟩,
  ⟨"ENC_ALT_RATIO", 0x100004, [], .encSrc, [⟨0, 32, .rwg, (some .installer)⟩]⟩,
  ⟨"ENC_SRC_COMMIT", 0x100008, [], .none, [⟨0, 1, .wo, (some .installer)⟩, ⟨1, 1, .wo, (some .installer)⟩, ⟨8, 1, .ro, none⟩, ⟨16, 16, .ro, none⟩]⟩,
  ⟨"ENC_WEB_STAT", 0x10000C, [], .none, [⟨0, 2, .ro, none⟩, ⟨2, 1, .ro, none⟩, ⟨3, 1, .ro, none⟩]⟩,
  ⟨"ENC_REV_LIMIT", 0x100010, [], .none, [⟨0, 16, .rw, (some .installer)⟩]⟩,
  ⟨"ENC_CFG", 0x100100, [(4, 0x100)], .encCfg, [⟨0, 1, .rwg, (some .installer)⟩, ⟨1, 2, .rwg, (some .installer)⟩, ⟨3, 1, .rwg, (some .installer)⟩, ⟨4, 1, .rwg, (some .installer)⟩, ⟨5, 3, .rwg, (some .installer)⟩, ⟨8, 8, .rwg, (some .installer)⟩]⟩,
  ⟨"ENC_PITCH", 0x100104, [(4, 0x100)], .encCfg, [⟨0, 24, .rwg, (some .installer)⟩]⟩,
  ⟨"ENC_CFG_COMMIT", 0x100108, [(4, 0x100)], .none, [⟨0, 1, .wo, (some .installer)⟩, ⟨1, 1, .wo, (some .installer)⟩, ⟨8, 1, .ro, none⟩, ⟨16, 16, .ro, none⟩]⟩,
  ⟨"ENC_STILL_TMO", 0x10010C, [(4, 0x100)], .none, [⟨0, 16, .rw, (some .installer)⟩]⟩,
  ⟨"ENC_AMP_LIM", 0x100110, [(4, 0x100)], .none, [⟨0, 14, .rw, (some .installer)⟩, ⟨16, 14, .rw, (some .installer)⟩]⟩,
  ⟨"ENC_IDX_PRESET_LO", 0x100114, [(4, 0x100)], .none, [⟨0, 32, .rw, (some .installer)⟩]⟩,
  ⟨"ENC_IDX_PRESET_HI", 0x100118, [(4, 0x100)], .none, [⟨0, 16, .rw, (some .installer)⟩]⟩,
  ⟨"ENC_CMD", 0x10011C, [(4, 0x100)], .none, [⟨0, 1, .wo, (some .installer)⟩, ⟨1, 1, .wo, (some .installer)⟩, ⟨2, 1, .wo, (some .installer)⟩]⟩,
  ⟨"ENC_POS_LO", 0x100120, [(4, 0x100)], .none, [⟨0, 32, .ro, none⟩]⟩,
  ⟨"ENC_POS_HI", 0x100124, [(4, 0x100)], .none, [⟨0, 16, .ro, none⟩]⟩,
  ⟨"ENC_STAT", 0x100128, [(4, 0x100)], .none, [⟨0, 1, .ro, none⟩, ⟨1, 1, .ro, none⟩, ⟨2, 1, .ro, none⟩, ⟨3, 1, .ro, none⟩, ⟨4, 1, .ro, none⟩, ⟨5, 1, .ro, none⟩, ⟨6, 1, .ro, none⟩, ⟨7, 1, .ro, none⟩, ⟨16, 14, .ro, none⟩]⟩,
  ⟨"ENC_FLAGS", 0x10012C, [(4, 0x100)], .none, [⟨0, 1, .w1c, (some .operator)⟩, ⟨1, 1, .w1c, (some .operator)⟩, ⟨2, 1, .w1c, (some .operator)⟩, ⟨3, 1, .w1c, (some .operator)⟩, ⟨4, 1, .w1c, (some .operator)⟩]⟩,
  ⟨"ENC_ILL_CNT", 0x100130, [(4, 0x100)], .none, [⟨0, 32, .rc, none⟩]⟩,
  ⟨"ENC_SPEED", 0x100134, [(4, 0x100)], .none, [⟨0, 32, .ro, none⟩]⟩,
  ⟨"ENC_PERIOD", 0x100138, [(4, 0x100)], .none, [⟨0, 32, .ro, none⟩]⟩,
  ⟨"ENC_CAL_OFS", 0x100140, [(4, 0x100)], .none, [⟨0, 14, .rw, (some .installer)⟩, ⟨16, 14, .rw, (some .installer)⟩]⟩,
  ⟨"ENC_CAL_GP", 0x100144, [(4, 0x100)], .none, [⟨0, 16, .rw, (some .installer)⟩, ⟨16, 16, .rw, (some .installer)⟩]⟩,
  ⟨"ENC_CAL_QUAL", 0x100148, [(4, 0x100)], .none, [⟨0, 16, .ro, none⟩, ⟨16, 16, .ro, none⟩]⟩,
  ⟨"ENC_CAL_TIME", 0x10014C, [(4, 0x100)], .none, [⟨0, 32, .ro, none⟩]⟩,
  ⟨"ENC_PT", 0x100150, [(4, 0x100)], .none, [⟨0, 1, .rw, (some .installer)⟩]⟩,
  ⟨"LTM_PITCH", 0x110000, [], .ltmGeom, [⟨0, 24, .rwg, (some .installer)⟩]⟩,
  ⟨"LTM_PITCH_DEN", 0x110004, [], .ltmGeom, [⟨0, 16, .rwg, (some .installer)⟩]⟩,
  ⟨"LTM_PRE", 0x110008, [], .ltmGeom, [⟨0, 12, .rwg, (some .installer)⟩]⟩,
  ⟨"LTM_GEOM_COMMIT", 0x11000C, [], .none, [⟨0, 1, .wo, (some .installer)⟩, ⟨1, 1, .wo, (some .installer)⟩, ⟨8, 1, .ro, none⟩, ⟨16, 16, .ro, none⟩]⟩,
  ⟨"LTM_BAR_DLY", 0x110010, [(8, 0x4)], .ltmGeom, [⟨0, 20, .rwg, (some .installer)⟩]⟩,
  ⟨"LTM_BAR_TRIM", 0x110040, [(8, 0x4)], .ltmTiming, [⟨0, 7, .rwg, (some .installer)⟩, ⟨8, 6, .rwg, (some .installer)⟩]⟩,
  ⟨"LTM_TIMING_COMMIT", 0x110060, [], .none, [⟨0, 1, .wo, (some .installer)⟩, ⟨1, 1, .wo, (some .installer)⟩, ⟨8, 1, .ro, none⟩, ⟨16, 16, .ro, none⟩]⟩,
  ⟨"LTM_FILL_SLOW", 0x110100, [], .ltmGov, [⟨0, 28, .rwg, (some .installer)⟩]⟩,
  ⟨"LTM_FILL_MIN", 0x110104, [], .ltmGov, [⟨0, 28, .rwg, (some .installer)⟩]⟩,
  ⟨"LTM_FILL_STOP", 0x110108, [], .ltmGov, [⟨0, 28, .rwg, (some .installer)⟩]⟩,
  ⟨"LTM_GOV_VMIN", 0x11010C, [], .ltmGov, [⟨0, 16, .rwg, (some .installer)⟩]⟩,
  ⟨"LTM_GOV_ACC", 0x110110, [], .ltmGov, [⟨0, 16, .rwg, (some .installer)⟩]⟩]

/-- Registers LTM_GOV_COMMIT to LNK_MISS_CNT. -/
def regRows3 : List RegRow := [
  ⟨"LTM_GOV_COMMIT", 0x110114, [], .none, [⟨0, 1, .wo, (some .installer)⟩, ⟨1, 1, .wo, (some .installer)⟩, ⟨8, 1, .ro, none⟩, ⟨16, 16, .ro, none⟩]⟩,
  ⟨"LTM_LAG_MAX", 0x110120, [], .none, [⟨0, 8, .rw, (some .installer)⟩]⟩,
  ⟨"LTM_JOB_GAP", 0x110124, [], .none, [⟨0, 24, .rw, (some .operator)⟩]⟩,
  ⟨"LTM_STALE", 0x110128, [], .none, [⟨0, 16, .rw, (some .installer)⟩, ⟨16, 16, .rw, (some .installer)⟩]⟩,
  ⟨"LTM_STAT", 0x110140, [], .none, [⟨0, 1, .ro, none⟩, ⟨1, 1, .ro, none⟩, ⟨2, 1, .ro, none⟩, ⟨3, 1, .ro, none⟩, ⟨4, 1, .ro, none⟩, ⟨5, 1, .ro, none⟩, ⟨6, 1, .ro, none⟩]⟩,
  ⟨"LTM_GRID_LO", 0x110144, [], .none, [⟨0, 32, .ro, none⟩]⟩,
  ⟨"LTM_GRID_HI", 0x110148, [], .none, [⟨0, 16, .ro, none⟩]⟩,
  ⟨"LTM_LINE_LO", 0x110150, [(8, 0x8)], .none, [⟨0, 32, .ro, none⟩]⟩,
  ⟨"LTM_LINE_HI", 0x110154, [(8, 0x8)], .none, [⟨0, 16, .ro, none⟩]⟩,
  ⟨"LTM_GOV_LIM", 0x110190, [], .none, [⟨0, 16, .ro, none⟩, ⟨16, 6, .ro, none⟩]⟩,
  ⟨"LTM_FILL_NOW", 0x110194, [], .none, [⟨0, 28, .ro, none⟩]⟩,
  ⟨"LTM_CHL_TRIM", 0x1101A0, [(8, 0x4)], .none, [⟨0, 7, .ro, none⟩]⟩,
  ⟨"LTM_OVS_CNT", 0x1101C0, [], .none, [⟨0, 32, .rc, none⟩]⟩,
  ⟨"LTM_LAG_CNT", 0x1101C4, [], .none, [⟨0, 32, .rc, none⟩]⟩,
  ⟨"LTM_UNDER_CNT", 0x1101C8, [], .none, [⟨0, 32, .rc, none⟩]⟩,
  ⟨"LTM_PW_CLAMP_CNT", 0x1101CC, [], .none, [⟨0, 32, .rc, none⟩]⟩,
  ⟨"LTM_STALE_CNT", 0x1101D0, [], .none, [⟨0, 32, .rc, none⟩]⟩,
  ⟨"LTM_LAG_PEAK", 0x1101D4, [], .none, [⟨0, 8, .rc, none⟩]⟩,
  ⟨"LTM_PEEK_SEL", 0x1101E0, [], .none, [⟨0, 9, .rw, (some .operator)⟩, ⟨16, 6, .ro, none⟩]⟩,
  ⟨"LTM_PEEK_TV", 0x1101E4, [], .none, [⟨0, 16, .ro, none⟩, ⟨16, 16, .ro, none⟩]⟩,
  ⟨"LTM_PEEK_PW", 0x1101E8, [(3, 0x4)], .none, [⟨0, 12, .ro, none⟩]⟩,
  ⟨"LTM_HEAD_DLY", 0x110400, [(320, 0x4)], .ltmGeom, [⟨0, 14, .rwg, (some .installer)⟩]⟩,
  ⟨"LTM_HEAD_FINE", 0x110A00, [(320, 0x4)], .ltmTiming, [⟨0, 6, .rwg, (some .installer)⟩]⟩,
  ⟨"LNK_CFG", 0x120000, [(40, 0x400)], .lnkCfg, [⟨0, 1, .rwg, (some .installer)⟩, ⟨1, 2, .rwg, (some .installer)⟩, ⟨3, 1, .rwg, (some .installer)⟩, ⟨4, 1, .rwg, (some .installer)⟩, ⟨8, 3, .rwg, (some .installer)⟩, ⟨16, 4, .rwg, (some .installer)⟩, ⟨20, 5, .rwg, (some .installer)⟩]⟩,
  ⟨"LNK_CFG_COMMIT", 0x120004, [(40, 0x400)], .none, [⟨0, 1, .wo, (some .installer)⟩, ⟨1, 1, .wo, (some .installer)⟩, ⟨8, 1, .ro, none⟩, ⟨16, 16, .ro, none⟩]⟩,
  ⟨"LNK_STATE", 0x120008, [(40, 0x400)], .none, [⟨0, 4, .ro, none⟩, ⟨4, 1, .ro, none⟩, ⟨5, 1, .ro, none⟩, ⟨6, 3, .ro, none⟩, ⟨9, 1, .ro, none⟩, ⟨10, 1, .ro, none⟩, ⟨11, 1, .ro, none⟩]⟩,
  ⟨"LNK_MOD_ID", 0x12000C, [(40, 0x400)], .none, [⟨0, 32, .ro, none⟩]⟩,
  ⟨"LNK_MOD_SN", 0x120010, [(40, 0x400)], .none, [⟨0, 32, .ro, none⟩]⟩,
  ⟨"LNK_MOD_INFO", 0x120014, [(40, 0x400)], .none, [⟨0, 4, .ro, none⟩, ⟨4, 3, .ro, none⟩, ⟨16, 16, .ro, none⟩]⟩,
  ⟨"LNK_MOD_RATE", 0x120018, [(40, 0x400)], .none, [⟨0, 20, .ro, none⟩]⟩,
  ⟨"LNK_MOD_PREP", 0x12001C, [(40, 0x400)], .none, [⟨0, 16, .ro, none⟩]⟩,
  ⟨"LNK_MOD_TYPE", 0x120020, [(40, 0x400), (4, 0x4)], .none, [⟨0, 16, .ro, none⟩, ⟨16, 16, .ro, none⟩]⟩,
  ⟨"LNK_MOD_DEAL", 0x120030, [(40, 0x400)], .none, [⟨0, 32, .ro, none⟩]⟩,
  ⟨"LNK_MOD_LAST", 0x120034, [(40, 0x400)], .none, [⟨0, 32, .ro, none⟩]⟩,
  ⟨"LNK_CODE_ERR", 0x120040, [(40, 0x400)], .none, [⟨0, 32, .rc, none⟩]⟩,
  ⟨"LNK_HDR_ERR", 0x120044, [(40, 0x400)], .none, [⟨0, 16, .rc, none⟩, ⟨16, 16, .rc, none⟩]⟩,
  ⟨"LNK_DOWN_CNT", 0x120048, [(40, 0x400)], .none, [⟨0, 32, .rc, none⟩]⟩,
  ⟨"LNK_FAIL_CNT", 0x12004C, [(40, 0x400)], .none, [⟨0, 32, .rc, none⟩]⟩,
  ⟨"LNK_REJ_CNT", 0x120050, [(40, 0x400)], .none, [⟨0, 12, .rc, none⟩, ⟨12, 12, .rc, none⟩, ⟨24, 8, .rc, none⟩]⟩,
  ⟨"LNK_MISS_CNT", 0x120054, [(40, 0x400)], .none, [⟨0, 32, .rc, none⟩]⟩]

/-- Registers LNK_VOID_CNT to MEM_SCRUB_CFG. -/
def regRows4 : List RegRow := [
  ⟨"LNK_VOID_CNT", 0x120058, [(40, 0x400)], .none, [⟨0, 32, .rc, none⟩]⟩,
  ⟨"LNK_PAT_CFG", 0x120060, [(40, 0x400)], .none, [⟨0, 3, .rw, (some .installer)⟩, ⟨3, 1, .rw, (some .installer)⟩, ⟨4, 16, .rw, (some .installer)⟩]⟩,
  ⟨"LNK_PAT_USER", 0x120064, [(40, 0x400)], .none, [⟨0, 20, .rw, (some .installer)⟩]⟩,
  ⟨"LNK_PAT_CMD", 0x120068, [(40, 0x400)], .none, [⟨0, 1, .wo, (some .installer)⟩]⟩,
  ⟨"LNK_PAT_STAT", 0x12006C, [(40, 0x400)], .none, [⟨0, 1, .ro, none⟩, ⟨1, 1, .ro, none⟩]⟩,
  ⟨"LNK_PAT_ERR", 0x120070, [(40, 0x400)], .none, [⟨0, 32, .ro, none⟩]⟩,
  ⟨"LNK_PAT_BITS", 0x120074, [(40, 0x400)], .none, [⟨0, 32, .ro, none⟩]⟩,
  ⟨"LNK_PAT_FAR", 0x120078, [(40, 0x400)], .none, [⟨0, 32, .ro, none⟩]⟩,
  ⟨"LNK_INJ", 0x120080, [(40, 0x400)], .none, [⟨0, 2, .wo, (some .maker)⟩, ⟨2, 3, .wo, (some .maker)⟩, ⟨5, 5, .wo, (some .maker)⟩, ⟨10, 4, .wo, (some .maker)⟩, ⟨16, 8, .wo, (some .maker)⟩, ⟨24, 8, .wo, (some .maker)⟩]⟩,
  ⟨"LNK_INJ_STAT", 0x120084, [(40, 0x400)], .none, [⟨0, 8, .ro, none⟩]⟩,
  ⟨"LNK_EYE_CMD", 0x120090, [(40, 0x400)], .none, [⟨0, 1, .wo, (some .installer)⟩, ⟨1, 1, .wo, (some .installer)⟩, ⟨2, 4, .wo, (some .installer)⟩]⟩,
  ⟨"LNK_EYE_W", 0x120094, [(40, 0x400)], .none, [⟨0, 7, .ro, none⟩, ⟨7, 1, .ro, none⟩, ⟨8, 1, .ro, none⟩]⟩,
  ⟨"LNK_EYE_H", 0x120098, [(40, 0x400)], .none, [⟨0, 10, .ro, none⟩]⟩,
  ⟨"LNK_EYE_POS", 0x12009C, [(40, 0x400)], .none, [⟨0, 7, .rw, (some .installer)⟩, ⟨8, 8, .rw, (some .installer)⟩, ⟨16, 16, .rc, none⟩]⟩,
  ⟨"LNK_ACTIVE", 0x130000, [(2, 0x4)], .none, [⟨0, 32, .ro, none⟩]⟩,
  ⟨"LNK_RETIRED", 0x130008, [(2, 0x4)], .none, [⟨0, 32, .ro, none⟩]⟩,
  ⟨"LNK_DESC_STAT", 0x130010, [], .none, [⟨0, 4, .ro, none⟩, ⟨4, 4, .ro, none⟩]⟩,
  ⟨"MEM_CH_STAT", 0x140000, [(8, 0x2000)], .none, [⟨0, 4, .ro, none⟩, ⟨4, 3, .ro, none⟩, ⟨7, 2, .ro, none⟩, ⟨9, 2, .ro, none⟩, ⟨11, 1, .ro, none⟩, ⟨12, 1, .ro, none⟩]⟩,
  ⟨"MEM_CE_CNT", 0x140004, [(8, 0x2000)], .none, [⟨0, 32, .rc, none⟩]⟩,
  ⟨"MEM_CE_ADDR_LO", 0x140008, [(8, 0x2000)], .none, [⟨0, 32, .ro, none⟩]⟩,
  ⟨"MEM_CE_ADDR_HI", 0x14000C, [(8, 0x2000)], .none, [⟨0, 8, .ro, none⟩]⟩,
  ⟨"MEM_CE_INFO", 0x140010, [(8, 0x2000)], .none, [⟨0, 5, .ro, none⟩, ⟨5, 1, .ro, none⟩, ⟨6, 2, .ro, none⟩, ⟨8, 16, .ro, none⟩, ⟨24, 8, .ro, none⟩]⟩,
  ⟨"MEM_RAW_CNT", 0x140014, [(8, 0x2000)], .none, [⟨0, 32, .rc, none⟩]⟩,
  ⟨"MEM_NRF_CNT", 0x140018, [(8, 0x2000)], .none, [⟨0, 32, .rc, none⟩]⟩,
  ⟨"MEM_SCRUB_STAT", 0x14001C, [(8, 0x2000)], .none, [⟨0, 20, .ro, none⟩, ⟨20, 12, .ro, none⟩]⟩,
  ⟨"MEM_BW_RD", 0x140020, [(8, 0x2000)], .none, [⟨0, 32, .rc, none⟩]⟩,
  ⟨"MEM_BW_WR", 0x140024, [(8, 0x2000)], .none, [⟨0, 32, .rc, none⟩]⟩,
  ⟨"MEM_CE_SYM", 0x140040, [(8, 0x2000), (2, 0x50), (20, 0x4)], .none, [⟨0, 16, .rc, none⟩]⟩,
  ⟨"MEM_UE_ADDR_LO", 0x140100, [(8, 0x2000)], .none, [⟨0, 32, .ro, none⟩]⟩,
  ⟨"MEM_UE_ADDR_HI", 0x140104, [(8, 0x2000)], .none, [⟨0, 8, .ro, none⟩]⟩,
  ⟨"MEM_UE_INFO", 0x140108, [(8, 0x2000)], .none, [⟨0, 2, .ro, none⟩, ⟨2, 1, .ro, none⟩, ⟨3, 1, .ro, none⟩, ⟨4, 2, .ro, none⟩, ⟨8, 16, .ro, none⟩]⟩,
  ⟨"MEM_UE_CMD", 0x14010C, [(8, 0x2000)], .none, [⟨0, 4, .ro, none⟩, ⟨4, 5, .ro, none⟩, ⟨9, 16, .ro, none⟩, ⟨25, 7, .ro, none⟩]⟩,
  ⟨"MEM_UE_TIME", 0x140110, [(8, 0x2000)], .none, [⟨0, 32, .ro, none⟩]⟩,
  ⟨"MEM_DLY", 0x141000, [(8, 0x2000), (2, 0x50), (20, 0x4)], .none, [⟨0, 8, .ro, none⟩, ⟨8, 8, .ro, none⟩, ⟨16, 8, .ro, none⟩, ⟨24, 8, .ro, none⟩]⟩,
  ⟨"MEM_DLY_CA", 0x141100, [(8, 0x2000), (2, 0x4)], .none, [⟨0, 8, .ro, none⟩]⟩,
  ⟨"MEM_CFG", 0x150000, [], .none, [⟨0, 8, .ro, none⟩, ⟨8, 2, .ro, none⟩, ⟨10, 1, .ro, none⟩, ⟨11, 1, .ro, none⟩, ⟨12, 4, .ro, none⟩, ⟨16, 2, .ro, none⟩]⟩,
  ⟨"MEM_STAT", 0x150004, [], .none, [⟨0, 8, .ro, none⟩, ⟨8, 8, .ro, none⟩, ⟨16, 8, .ro, none⟩, ⟨24, 3, .ro, none⟩]⟩,
  ⟨"MEM_CAP", 0x150008, [], .none, [⟨0, 20, .ro, none⟩]⟩,
  ⟨"MEM_NRF_DIV", 0x15000C, [], .memCtl, [⟨0, 14, .rwg, (some .installer)⟩]⟩,
  ⟨"MEM_SCRUB_CFG", 0x150010, [], .memCtl, [⟨0, 1, .rwg, (some .installer)⟩, ⟨1, 16, .rwg, (some .installer)⟩]⟩]

/-- Registers MEM_CTL_COMMIT to VIS_ROI3. -/
def regRows5 : List RegRow := [
  ⟨"MEM_CTL_COMMIT", 0x150014, [], .none, [⟨0, 1, .wo, (some .installer)⟩, ⟨1, 1, .wo, (some .installer)⟩, ⟨8, 1, .ro, none⟩, ⟨16, 16, .ro, none⟩]⟩,
  ⟨"MEM_DIAG_ADDR_LO", 0x150020, [], .none, [⟨3, 29, .rw, (some .maker)⟩]⟩,
  ⟨"MEM_DIAG_ADDR_HI", 0x150024, [], .none, [⟨0, 4, .rw, (some .maker)⟩, ⟨8, 3, .rw, (some .maker)⟩]⟩,
  ⟨"MEM_DIAG_CMD", 0x150028, [], .none, [⟨0, 1, .wo, (some .maker)⟩]⟩,
  ⟨"MEM_DIAG_DATA", 0x15002C, [(3, 0x4)], .none, [⟨0, 32, .ro, none⟩]⟩,
  ⟨"VIS_PIPE_MAP", 0x160000, [], .none, [⟨0, 4, .rw, (some .installer)⟩]⟩,
  ⟨"VIS_LATE_TMO", 0x160004, [], .none, [⟨0, 24, .rw, (some .installer)⟩]⟩,
  ⟨"VIS_ACE_CFG", 0x160010, [], .visAce, [⟨0, 3, .rwg, (some .maker)⟩, ⟨3, 1, .rwg, (some .maker)⟩, ⟨4, 4, .rwg, (some .maker)⟩, ⟨8, 8, .rwg, (some .maker)⟩, ⟨16, 12, .rwg, (some .maker)⟩]⟩,
  ⟨"VIS_ACE_MIS", 0x160014, [], .visAce, [⟨0, 12, .rwg, (some .maker)⟩]⟩,
  ⟨"VIS_ACE_COMMIT", 0x160018, [], .none, [⟨0, 1, .wo, (some .maker)⟩, ⟨1, 1, .wo, (some .maker)⟩, ⟨8, 1, .ro, none⟩, ⟨16, 16, .ro, none⟩]⟩,
  ⟨"VIS_MEAS_CFG", 0x16001C, [], .none, [⟨0, 8, .rw, (some .installer)⟩, ⟨8, 12, .rw, (some .installer)⟩]⟩,
  ⟨"VIS_TBL_SEL", 0x160020, [], .none, [⟨0, 16, .rw, (some .installer)⟩, ⟨16, 3, .rw, (some .installer)⟩, ⟨19, 1, .rw, (some .installer)⟩]⟩,
  ⟨"VIS_TBL_DATA", 0x160024, [], .none, [⟨0, 16, .rw, (some .installer)⟩]⟩,
  ⟨"VIS_PORT_CFG", 0x160100, [(4, 0x40)], .none, [⟨0, 1, .rw, (some .installer)⟩, ⟨1, 2, .rw, (some .installer)⟩, ⟨3, 12, .rw, (some .installer)⟩, ⟨15, 2, .rw, (some .installer)⟩]⟩,
  ⟨"VIS_PORT_STAT", 0x160104, [(4, 0x40)], .none, [⟨0, 1, .ro, none⟩, ⟨1, 1, .ro, none⟩, ⟨2, 1, .ro, none⟩]⟩,
  ⟨"VIS_PORT_ERR", 0x160108, [(4, 0x40)], .none, [⟨0, 16, .rc, none⟩, ⟨16, 8, .rc, none⟩, ⟨24, 8, .rc, none⟩]⟩,
  ⟨"VIS_I2C_ERR", 0x16010C, [(4, 0x40)], .none, [⟨0, 16, .rc, none⟩]⟩,
  ⟨"VIS_CAM_CFG", 0x161000, [(8, 0x200)], .visCam, [⟨0, 1, .rwg, (some .installer)⟩, ⟨1, 2, .rwg, (some .installer)⟩, ⟨3, 2, .rwg, (some .installer)⟩, ⟨5, 3, .rwg, (some .installer)⟩, ⟨8, 2, .rwg, (some .installer)⟩, ⟨10, 1, .rwg, (some .installer)⟩, ⟨11, 2, .rwg, (some .installer)⟩]⟩,
  ⟨"VIS_CAM_SIZE", 0x161004, [(8, 0x200)], .visCam, [⟨0, 16, .rwg, (some .installer)⟩, ⟨16, 16, .rwg, (some .installer)⟩]⟩,
  ⟨"VIS_CAM_PITCH", 0x161008, [(8, 0x200)], .visCam, [⟨0, 24, .rwg, (some .installer)⟩]⟩,
  ⟨"VIS_CAM_OFS", 0x16100C, [(8, 0x200)], .visCam, [⟨0, 24, .rwg, (some .installer)⟩]⟩,
  ⟨"VIS_CAM_DLY", 0x161010, [(8, 0x200)], .visCam, [⟨0, 24, .rwg, (some .installer)⟩]⟩,
  ⟨"VIS_CAM_X0", 0x161014, [(8, 0x200)], .visCam, [⟨0, 18, .rwg, (some .installer)⟩]⟩,
  ⟨"VIS_CAM_STEP", 0x161018, [(8, 0x200)], .visCam, [⟨0, 16, .rwg, (some .installer)⟩, ⟨16, 16, .rwg, (some .installer)⟩]⟩,
  ⟨"VIS_CAM_BLACK", 0x16101C, [(8, 0x200)], .visCam, [⟨0, 16, .rwg, (some .installer)⟩]⟩,
  ⟨"VIS_CAM_COMMIT", 0x161020, [(8, 0x200)], .none, [⟨0, 1, .wo, (some .installer)⟩, ⟨1, 1, .wo, (some .installer)⟩, ⟨8, 1, .ro, none⟩, ⟨16, 16, .ro, none⟩]⟩,
  ⟨"VIS_CAM_TMO", 0x161024, [(8, 0x200)], .none, [⟨0, 16, .rw, (some .installer)⟩, ⟨16, 12, .rw, (some .installer)⟩, ⟨28, 4, .rw, (some .installer)⟩]⟩,
  ⟨"VIS_SENS_EXP", 0x161040, [(8, 0x200), (3, 0x4)], .visSens, [⟨0, 24, .rwg, (some .installer)⟩]⟩,
  ⟨"VIS_SENS_CFG", 0x16104C, [(8, 0x200)], .visSens, [⟨0, 7, .rwg, (some .installer)⟩, ⟨7, 1, .rwg, (some .installer)⟩, ⟨8, 2, .rwg, (some .installer)⟩, ⟨16, 16, .rwg, (some .installer)⟩]⟩,
  ⟨"VIS_SENS_SEQ", 0x161050, [(8, 0x200), (16, 0x4)], .visSens, [⟨0, 16, .rwg, (some .installer)⟩, ⟨16, 16, .rwg, (some .installer)⟩]⟩,
  ⟨"VIS_SENS_COMMIT", 0x161090, [(8, 0x200)], .none, [⟨0, 1, .wo, (some .installer)⟩, ⟨1, 1, .wo, (some .installer)⟩, ⟨8, 1, .ro, none⟩, ⟨16, 16, .ro, none⟩]⟩,
  ⟨"VIS_SENS_STAT", 0x161094, [(8, 0x200)], .none, [⟨0, 16, .ro, none⟩, ⟨16, 1, .ro, none⟩]⟩,
  ⟨"VIS_CAM_FRAME", 0x1610A0, [(8, 0x200)], .none, [⟨0, 32, .ro, none⟩]⟩,
  ⟨"VIS_CAM_CNT0", 0x1610A4, [(8, 0x200)], .none, [⟨0, 16, .rc, none⟩, ⟨16, 16, .rc, none⟩]⟩,
  ⟨"VIS_CAM_CNT1", 0x1610A8, [(8, 0x200)], .none, [⟨0, 8, .rc, none⟩, ⟨8, 8, .rc, none⟩, ⟨16, 8, .rc, none⟩, ⟨24, 8, .rc, none⟩]⟩,
  ⟨"VIS_CAM_WAIT", 0x1610AC, [(8, 0x200)], .none, [⟨0, 24, .rc, none⟩]⟩,
  ⟨"VIS_ROI0", 0x161100, [(8, 0x200), (16, 0x10)], .visCam, [⟨0, 16, .rwg, (some .installer)⟩, ⟨16, 16, .rwg, (some .installer)⟩]⟩,
  ⟨"VIS_ROI1", 0x161104, [(8, 0x200), (16, 0x10)], .visCam, [⟨0, 16, .rwg, (some .installer)⟩, ⟨16, 16, .rwg, (some .installer)⟩]⟩,
  ⟨"VIS_ROI2", 0x161108, [(8, 0x200), (16, 0x10)], .visCam, [⟨0, 3, .rwg, (some .installer)⟩, ⟨3, 2, .rwg, (some .installer)⟩, ⟨5, 3, .rwg, (some .installer)⟩, ⟨8, 6, .rwg, (some .installer)⟩]⟩,
  ⟨"VIS_ROI3", 0x16110C, [(8, 0x200), (16, 0x10)], .visCam, [⟨0, 17, .rwg, (some .installer)⟩, ⟨17, 15, .rwg, (some .installer)⟩]⟩]

/-- Registers CHL_CTL to MOT_DAC_NOW. -/
def regRows6 : List RegRow := [
  ⟨"CHL_CTL", 0x170000, [], .chlLaw, [⟨0, 1, .rwg, (some .installer)⟩, ⟨1, 1, .rwg, (some .installer)⟩, ⟨2, 1, .rwg, (some .installer)⟩, ⟨3, 1, .rwg, (some .installer)⟩, ⟨4, 1, .rwg, (some .installer)⟩, ⟨5, 3, .rwg, (some .installer)⟩]⟩,
  ⟨"CHL_NOZ_LAW", 0x170004, [], .chlLaw, [⟨0, 16, .rwg, (some .installer)⟩, ⟨16, 8, .rwg, (some .installer)⟩, ⟨24, 3, .rwg, (some .installer)⟩]⟩,
  ⟨"CHL_NOZ_LIM", 0x170008, [], .chlLaw, [⟨0, 8, .rwg, (some .installer)⟩, ⟨8, 13, .rwg, (some .installer)⟩, ⟨21, 8, .rwg, (some .installer)⟩]⟩,
  ⟨"CHL_TONE_LAW", 0x17000C, [], .chlLaw, [⟨0, 16, .rwg, (some .installer)⟩, ⟨16, 8, .rwg, (some .installer)⟩, ⟨24, 8, .rwg, (some .installer)⟩]⟩,
  ⟨"CHL_TONE_LIM", 0x170010, [], .chlLaw, [⟨0, 11, .rwg, (some .installer)⟩]⟩,
  ⟨"CHL_REG_LAW", 0x170014, [], .chlLaw, [⟨0, 16, .rwg, (some .installer)⟩, ⟨16, 8, .rwg, (some .installer)⟩, ⟨24, 6, .rwg, (some .installer)⟩]⟩,
  ⟨"CHL_LAW_COMMIT", 0x170018, [], .none, [⟨0, 1, .wo, (some .installer)⟩, ⟨1, 1, .wo, (some .installer)⟩, ⟨8, 1, .ro, none⟩, ⟨16, 16, .ro, none⟩]⟩,
  ⟨"CHL_BLIND_TMO", 0x17001C, [], .none, [⟨0, 16, .rw, (some .installer)⟩]⟩,
  ⟨"CHL_STAT", 0x170020, [], .none, [⟨0, 8, .ro, none⟩, ⟨8, 1, .ro, none⟩]⟩,
  ⟨"CHL_OUT_LAST", 0x170024, [], .none, [⟨0, 17, .ro, none⟩, ⟨17, 3, .ro, none⟩, ⟨20, 1, .ro, none⟩, ⟨21, 1, .ro, none⟩]⟩,
  ⟨"CHL_ACT_CNT", 0x170028, [], .none, [⟨0, 32, .rc, none⟩]⟩,
  ⟨"CHL_SKIP_CNT", 0x17002C, [], .none, [⟨0, 32, .rc, none⟩]⟩,
  ⟨"CHL_REG_TGT", 0x170040, [(8, 0x4)], .none, [⟨0, 7, .rw, (some .installer)⟩]⟩,
  ⟨"CHL_RRES", 0x170060, [(8, 0x4)], .none, [⟨0, 16, .ro, none⟩]⟩,
  ⟨"CHL_DRES", 0x170080, [(8, 0x4)], .none, [⟨0, 16, .ro, none⟩, ⟨16, 16, .ro, none⟩]⟩,
  ⟨"CHL_DTGT", 0x170100, [(8, 0x44), (17, 0x4)], .none, [⟨0, 12, .rw, (some .operator)⟩]⟩,
  ⟨"CHL_DLIM", 0x170400, [(8, 0x44), (17, 0x4)], .none, [⟨0, 12, .rw, (some .installer)⟩, ⟨16, 12, .rw, (some .installer)⟩]⟩,
  ⟨"CHL_ROI_MAP", 0x170800, [(8, 0x40), (16, 0x4)], .none, [⟨0, 3, .rw, (some .installer)⟩, ⟨4, 5, .rw, (some .installer)⟩]⟩,
  ⟨"CHL_CAL_DT", 0x170A00, [], .none, [⟨0, 6, .rw, (some .installer)⟩]⟩,
  ⟨"CHL_CAL_CMD", 0x170A04, [], .none, [⟨0, 4, .wo, (some .installer)⟩]⟩,
  ⟨"CHL_CAL_STAT", 0x170A40, [(8, 0x8)], .none, [⟨0, 16, .ro, none⟩, ⟨16, 1, .ro, none⟩, ⟨17, 1, .ro, none⟩, ⟨20, 12, .ro, none⟩]⟩,
  ⟨"CHL_CAL_TIME", 0x170A44, [(8, 0x8)], .none, [⟨0, 32, .ro, none⟩]⟩,
  ⟨"MOT_CFG", 0x180000, [(16, 0x200)], .motCfg, [⟨0, 3, .rwg, (some .installer)⟩, ⟨3, 1, .rwg, (some .installer)⟩, ⟨4, 3, .rwg, (some .installer)⟩, ⟨8, 8, .rwg, (some .installer)⟩]⟩,
  ⟨"MOT_CFG_COMMIT", 0x180004, [(16, 0x200)], .none, [⟨0, 1, .wo, (some .installer)⟩, ⟨1, 1, .wo, (some .installer)⟩, ⟨8, 1, .ro, none⟩, ⟨16, 16, .ro, none⟩]⟩,
  ⟨"MOT_VMAX", 0x180008, [(16, 0x200)], .none, [⟨0, 32, .rw, (some .installer)⟩]⟩,
  ⟨"MOT_ACC", 0x18000C, [(16, 0x200)], .none, [⟨0, 32, .rw, (some .installer)⟩]⟩,
  ⟨"MOT_DEC", 0x180010, [(16, 0x200)], .none, [⟨0, 32, .rw, (some .installer)⟩]⟩,
  ⟨"MOT_TARGET_LO", 0x180014, [(16, 0x200)], .none, [⟨0, 32, .rw, (some .installer)⟩]⟩,
  ⟨"MOT_TARGET_HI", 0x180018, [(16, 0x200)], .none, [⟨0, 16, .rw, (some .installer)⟩]⟩,
  ⟨"MOT_CMD", 0x18001C, [(16, 0x200)], .none, [⟨0, 1, .wo, (some .installer)⟩, ⟨1, 1, .wo, (some .operator)⟩]⟩,
  ⟨"MOT_POS_LO", 0x180020, [(16, 0x200)], .none, [⟨0, 32, .ro, none⟩]⟩,
  ⟨"MOT_POS_HI", 0x180024, [(16, 0x200)], .none, [⟨0, 16, .ro, none⟩]⟩,
  ⟨"MOT_VEL", 0x180028, [(16, 0x200)], .none, [⟨0, 32, .ro, none⟩]⟩,
  ⟨"MOT_STAT", 0x18002C, [(16, 0x200)], .none, [⟨0, 1, .ro, none⟩, ⟨1, 1, .ro, none⟩, ⟨2, 1, .ro, none⟩, ⟨3, 1, .ro, none⟩, ⟨4, 1, .ro, none⟩, ⟨5, 1, .ro, none⟩, ⟨16, 10, .ro, none⟩]⟩,
  ⟨"MOT_FLAGS", 0x180030, [(16, 0x200)], .none, [⟨0, 1, .w1c, (some .operator)⟩, ⟨1, 1, .w1c, (some .operator)⟩, ⟨2, 1, .w1c, (some .operator)⟩, ⟨3, 1, .w1c, (some .operator)⟩, ⟨4, 1, .w1c, (some .operator)⟩, ⟨5, 1, .w1c, (some .operator)⟩]⟩,
  ⟨"MOT_SEG", 0x180034, [(16, 0x200)], .none, [⟨0, 10, .rw, (some .installer)⟩, ⟨10, 11, .rw, (some .installer)⟩]⟩,
  ⟨"MOT_VTGT", 0x180038, [(16, 0x200)], .none, [⟨0, 32, .rw, (some .operator)⟩]⟩,
  ⟨"MOT_CHOP", 0x180040, [(12, 0x200)], .motCfg, [⟨0, 8, .rwg, (some .installer)⟩, ⟨8, 5, .rwg, (some .installer)⟩, ⟨13, 4, .rwg, (some .installer)⟩, ⟨17, 8, .rwg, (some .installer)⟩]⟩,
  ⟨"MOT_CUR", 0x180044, [(12, 0x200)], .none, [⟨0, 8, .rw, (some .installer)⟩, ⟨8, 8, .rw, (some .installer)⟩, ⟨16, 8, .rw, (some .installer)⟩, ⟨24, 8, .rw, (some .installer)⟩]⟩,
  ⟨"MOT_DAC_NOW", 0x180048, [(12, 0x200)], .none, [⟨0, 8, .ro, none⟩, ⟨8, 8, .ro, none⟩, ⟨16, 8, .ro, none⟩, ⟨24, 8, .ro, none⟩]⟩]

/-- Registers MOT_CUR_DLY to TBL_STAT. -/
def regRows7 : List RegRow := [
  ⟨"MOT_CUR_DLY", 0x18004C, [(12, 0x200)], .none, [⟨0, 16, .rw, (some .installer)⟩]⟩,
  ⟨"MOT_SEQ_SEG", 0x180060, [(16, 0x200), (5, 0x4)], .none, [⟨0, 10, .rw, (some .installer)⟩, ⟨10, 11, .rw, (some .installer)⟩]⟩,
  ⟨"MOT_FOLLOW", 0x181A50, [(3, 0x200)], .none, [⟨0, 32, .rw, (some .installer)⟩]⟩,
  ⟨"MOT_WEB_TGT", 0x182000, [], .none, [⟨0, 16, .rw, (some .operator)⟩]⟩,
  ⟨"MOT_WEB_VMAX", 0x182004, [], .none, [⟨0, 16, .rw, (some .installer)⟩]⟩,
  ⟨"MOT_WEB_SCALE", 0x182008, [], .none, [⟨0, 32, .rw, (some .installer)⟩]⟩,
  ⟨"MOT_WEB_ACC", 0x18200C, [], .none, [⟨0, 16, .rw, (some .installer)⟩]⟩,
  ⟨"MOT_WEB_DEC", 0x182010, [(3, 0x4)], .none, [⟨0, 16, .rw, (some .installer)⟩]⟩,
  ⟨"MOT_WEB_STAT", 0x182020, [], .none, [⟨0, 16, .ro, none⟩, ⟨16, 2, .ro, none⟩, ⟨18, 2, .ro, none⟩, ⟨20, 1, .ro, none⟩]⟩,
  ⟨"MOT_SEQ_CFG", 0x182040, [(5, 0x4)], .none, [⟨0, 12, .rw, (some .installer)⟩, ⟨12, 12, .rw, (some .installer)⟩, ⟨24, 1, .rw, (some .installer)⟩]⟩,
  ⟨"MOT_SEQ_CMD", 0x182060, [], .none, [⟨0, 3, .wo, (some .installer)⟩]⟩,
  ⟨"MOT_SEQ_STAT", 0x182064, [], .none, [⟨0, 5, .ro, none⟩, ⟨8, 5, .ro, none⟩, ⟨16, 5, .ro, none⟩, ⟨24, 5, .w1c, (some .operator)⟩]⟩,
  ⟨"LMP_CHAIN_CFG", 0x190000, [(4, 0x40)], .lmpCfg, [⟨0, 1, .rwg, (some .installer)⟩, ⟨1, 6, .rwg, (some .installer)⟩, ⟨7, 3, .rwg, (some .installer)⟩, ⟨10, 3, .rwg, (some .installer)⟩, ⟨13, 16, .rwg, (some .installer)⟩]⟩,
  ⟨"LMP_CHAIN_STAT", 0x190004, [(4, 0x40)], .none, [⟨0, 1, .ro, none⟩, ⟨1, 1, .ro, none⟩]⟩,
  ⟨"LMP_CHAIN_ERR", 0x190008, [(4, 0x40)], .none, [⟨0, 32, .rc, none⟩]⟩,
  ⟨"LMP_CFG_COMMIT", 0x190100, [], .none, [⟨0, 1, .wo, (some .installer)⟩, ⟨1, 1, .wo, (some .installer)⟩, ⟨8, 1, .ro, none⟩, ⟨16, 16, .ro, none⟩]⟩,
  ⟨"LMP_DIAG_CFG", 0x190104, [], .none, [⟨0, 12, .rw, (some .installer)⟩, ⟨12, 1, .rw, (some .installer)⟩, ⟨13, 16, .rw, (some .installer)⟩]⟩,
  ⟨"LMP_VREF", 0x190108, [], .none, [⟨0, 16, .rw, (some .installer)⟩]⟩,
  ⟨"LMP_I2C_ERR", 0x19010C, [], .none, [⟨0, 16, .rc, none⟩, ⟨16, 16, .rc, none⟩]⟩,
  ⟨"LMP_PD_DARK", 0x190140, [(16, 0x4)], .none, [⟨0, 12, .ro, none⟩]⟩,
  ⟨"LMP_LS_GAIN", 0x190200, [(16, 0x18), (3, 0x8)], .none, [⟨0, 16, .ro, none⟩]⟩,
  ⟨"LMP_LS_REF", 0x190204, [(16, 0x18), (3, 0x8)], .none, [⟨0, 16, .rw, (some .installer)⟩]⟩,
  ⟨"LMP_CH_STAT", 0x190800, [(4, 0x100), (64, 0x4)], .none, [⟨0, 32, .ro, none⟩]⟩,
  ⟨"LMP_LAMP_CFG", 0x191000, [(32, 0x40)], .lmpCfg, [⟨0, 1, .rwg, (some .installer)⟩, ⟨1, 2, .rwg, (some .installer)⟩, ⟨3, 10, .rwg, (some .installer)⟩, ⟨13, 10, .rwg, (some .installer)⟩, ⟨23, 1, .rwg, (some .installer)⟩, ⟨24, 1, .rwg, (some .installer)⟩, ⟨25, 2, .rwg, (some .maker)⟩, ⟨27, 4, .rwg, (some .installer)⟩]⟩,
  ⟨"LMP_LAMP_SRC", 0x191004, [(32, 0x40)], .lmpCfg, [⟨0, 4, .rwg, (some .installer)⟩, ⟨4, 4, .rwg, (some .installer)⟩, ⟨8, 2, .rwg, (some .installer)⟩, ⟨10, 12, .rwg, (some .installer)⟩]⟩,
  ⟨"LMP_LAMP_TGT", 0x191008, [(32, 0x40)], .none, [⟨0, 16, .rw, (some .operator)⟩, ⟨16, 16, .rw, (some .installer)⟩]⟩,
  ⟨"LMP_LAMP_LAW", 0x19100C, [(32, 0x40)], .lmpCfg, [⟨0, 16, .rwg, (some .installer)⟩, ⟨16, 12, .rwg, (some .installer)⟩]⟩,
  ⟨"LMP_LAMP_DER", 0x191010, [(32, 0x40)], .lmpCfg, [⟨0, 16, .rwg, (some .installer)⟩, ⟨16, 16, .rwg, (some .installer)⟩]⟩,
  ⟨"LMP_LAMP_STAT", 0x191020, [(32, 0x40)], .none, [⟨0, 12, .ro, none⟩, ⟨12, 1, .ro, none⟩, ⟨13, 1, .ro, none⟩, ⟨14, 1, .ro, none⟩, ⟨15, 1, .ro, none⟩, ⟨16, 1, .ro, none⟩, ⟨17, 1, .ro, none⟩]⟩,
  ⟨"LMP_LAMP_MEAS", 0x191024, [(32, 0x40)], .none, [⟨0, 16, .ro, none⟩, ⟨16, 16, .ro, none⟩]⟩,
  ⟨"TBL_CFG", 0x1A0000, [], .none, [⟨0, 1, .rw, (some .installer)⟩, ⟨1, 2, .rw, (some .installer)⟩, ⟨3, 1, .rw, (some .installer)⟩, ⟨4, 1, .rw, (some .installer)⟩, ⟨16, 12, .rw, (some .installer)⟩]⟩,
  ⟨"TBL_RENEW", 0x1A0004, [], .none, [⟨0, 16, .rw, (some .installer)⟩]⟩,
  ⟨"TBL_LEASE", 0x1A0008, [], .none, [⟨0, 16, .rw, (some .installer)⟩]⟩,
  ⟨"TBL_GUARD", 0x1A000C, [], .none, [⟨0, 16, .rw, (some .installer)⟩]⟩,
  ⟨"TBL_PAD_HOLD", 0x1A0010, [], .none, [⟨0, 16, .rw, (some .installer)⟩]⟩,
  ⟨"TBL_QUAL", 0x1A0014, [], .none, [⟨0, 16, .rw, (some .installer)⟩]⟩,
  ⟨"TBL_POS_TOL", 0x1A0018, [], .none, [⟨0, 16, .rw, (some .installer)⟩, ⟨16, 8, .rw, (some .installer)⟩]⟩,
  ⟨"TBL_TEST_HOLD", 0x1A001C, [], .none, [⟨0, 16, .rw, (some .installer)⟩]⟩,
  ⟨"TBL_CMD", 0x1A0020, [], .none, [⟨0, 2, .wo, (some .installer)⟩, ⟨24, 8, .wo, (some .installer)⟩]⟩,
  ⟨"TBL_STAT", 0x1A0024, [], .none, [⟨0, 1, .ro, none⟩, ⟨1, 1, .ro, none⟩, ⟨2, 1, .ro, none⟩, ⟨3, 1, .ro, none⟩, ⟨4, 1, .ro, none⟩, ⟨5, 1, .ro, none⟩, ⟨8, 4, .ro, none⟩, ⟨12, 4, .ro, none⟩]⟩]

/-- Registers TBL_DEAL to TIM_CFG. -/
def regRows8 : List RegRow := [
  ⟨"TBL_DEAL", 0x1A0028, [], .none, [⟨0, 32, .ro, none⟩]⟩,
  ⟨"TBL_UNEXERCISED_S", 0x1A002C, [], .none, [⟨0, 32, .ro, none⟩]⟩,
  ⟨"TBL_QUAL_LEFT", 0x1A0030, [], .none, [⟨0, 16, .ro, none⟩]⟩,
  ⟨"TBL_FWD_LVL", 0x1A0034, [], .none, [⟨0, 10, .ro, none⟩, ⟨16, 10, .rc, none⟩]⟩,
  ⟨"TBL_TAKE_CNT", 0x1A0040, [], .none, [⟨0, 32, .rc, none⟩]⟩,
  ⟨"TBL_DIV_CNT", 0x1A0044, [], .none, [⟨0, 32, .rc, none⟩]⟩,
  ⟨"TBL_REPLAY_CNT", 0x1A0048, [], .none, [⟨0, 32, .rc, none⟩]⟩,
  ⟨"TBL_REJ_CNT", 0x1A004C, [], .none, [⟨0, 32, .rc, none⟩]⟩,
  ⟨"TBL_RESYNC", 0x1A0050, [], .none, [⟨0, 32, .ro, none⟩]⟩,
  ⟨"TBL_LAT", 0x1A0054, [], .none, [⟨0, 12, .ro, none⟩]⟩,
  ⟨"TBL_LANE_STAT", 0x1A0100, [(12, 0x40)], .none, [⟨0, 4, .ro, none⟩, ⟨4, 1, .ro, none⟩, ⟨5, 1, .ro, none⟩, ⟨6, 3, .ro, none⟩]⟩,
  ⟨"TBL_LANE_CFG", 0x1A0104, [(12, 0x40)], .none, [⟨3, 1, .rw, (some .installer)⟩, ⟨4, 1, .rw, (some .installer)⟩, ⟨8, 3, .rw, (some .installer)⟩, ⟨16, 4, .rw, (some .installer)⟩, ⟨20, 5, .rw, (some .installer)⟩]⟩,
  ⟨"TBL_EYE_CMD", 0x1A0110, [(12, 0x40)], .none, [⟨0, 1, .wo, (some .installer)⟩, ⟨1, 1, .wo, (some .installer)⟩, ⟨2, 4, .wo, (some .installer)⟩]⟩,
  ⟨"TBL_EYE_W", 0x1A0114, [(12, 0x40)], .none, [⟨0, 7, .ro, none⟩, ⟨7, 1, .ro, none⟩, ⟨8, 1, .ro, none⟩]⟩,
  ⟨"TBL_EYE_H", 0x1A0118, [(12, 0x40)], .none, [⟨0, 10, .ro, none⟩]⟩,
  ⟨"TBL_CODE_ERR", 0x1A0120, [(12, 0x40)], .none, [⟨0, 32, .rc, none⟩]⟩,
  ⟨"TBL_DOWN_CNT", 0x1A0124, [(12, 0x40)], .none, [⟨0, 32, .rc, none⟩]⟩,
  ⟨"THM_TEMP", 0x1B0000, [], .none, [⟨0, 16, .ro, none⟩, ⟨16, 16, .ro, none⟩]⟩,
  ⟨"THM_RISE", 0x1B0004, [], .none, [⟨0, 16, .ro, none⟩, ⟨16, 16, .rc, none⟩]⟩,
  ⟨"THM_STAT", 0x1B0008, [], .none, [⟨0, 3, .ro, none⟩, ⟨3, 3, .ro, none⟩, ⟨6, 3, .ro, none⟩, ⟨9, 1, .ro, none⟩, ⟨10, 2, .ro, none⟩, ⟨12, 1, .ro, none⟩, ⟨13, 1, .ro, none⟩]⟩,
  ⟨"THM_RISE_WARN", 0x1B0010, [], .none, [⟨0, 16, .rw, (some .maker)⟩]⟩,
  ⟨"THM_RISE_STOP", 0x1B0014, [], .none, [⟨0, 16, .rw, (some .maker)⟩]⟩,
  ⟨"THM_STEP_T", 0x1B0020, [(4, 0x4)], .none, [⟨0, 16, .rw, (some .maker)⟩]⟩,
  ⟨"THM_STEP_CFG", 0x1B0030, [], .none, [⟨0, 8, .rw, (some .maker)⟩]⟩,
  ⟨"THM_STOP_TIME", 0x1B0034, [], .none, [⟨0, 16, .rw, (some .installer)⟩]⟩,
  ⟨"THM_ALERT_EN", 0x1B0038, [], .none, [⟨0, 1, .rw, (some .installer)⟩, ⟨1, 1, .rw, (some .installer)⟩, ⟨2, 1, .rw, (some .installer)⟩, ⟨3, 1, .rw, (some .installer)⟩, ⟨4, 1, .rw, (some .installer)⟩, ⟨5, 1, .rw, (some .installer)⟩]⟩,
  ⟨"THM_PEAK", 0x1B003C, [], .none, [⟨0, 16, .rc, none⟩]⟩,
  ⟨"THM_STEP_CNT", 0x1B0040, [], .none, [⟨0, 32, .rc, none⟩]⟩,
  ⟨"THM_STOP_CNT", 0x1B0044, [], .none, [⟨0, 32, .rc, none⟩]⟩,
  ⟨"THM_ISTOP_CNT", 0x1B0048, [], .none, [⟨0, 32, .rc, none⟩]⟩,
  ⟨"FLT_WIN", 0x1C0000, [(7, 0x8)], .none, [⟨0, 24, .rw, (some .installer)⟩]⟩,
  ⟨"FLT_PERM", 0x1C0004, [(7, 0x8)], .none, [⟨0, 16, .rw, (some .installer)⟩]⟩,
  ⟨"FLT_TEL_CFG", 0x1C0040, [], .none, [⟨0, 16, .rw, (some .installer)⟩, ⟨16, 8, .rw, (some .installer)⟩]⟩,
  ⟨"FLT_NOZ_SEL", 0x1C0050, [], .none, [⟨0, 9, .rw, (some .operator)⟩, ⟨9, 6, .rw, (some .operator)⟩]⟩,
  ⟨"FLT_NOZ_CNT", 0x1C0054, [], .none, [⟨0, 32, .ro, none⟩]⟩,
  ⟨"FLT_NOZ_FRAC", 0x1C0058, [], .none, [⟨0, 32, .ro, none⟩]⟩,
  ⟨"FLT_RETIRED", 0x1C0060, [(3, 0x4)], .none, [⟨0, 32, .ro, none⟩]⟩,
  ⟨"FLT_SB_STAT", 0x1C0100, [(84, 0x8)], .none, [⟨0, 16, .ro, none⟩, ⟨16, 1, .ro, none⟩, ⟨17, 1, .ro, none⟩, ⟨18, 1, .ro, none⟩]⟩,
  ⟨"FLT_SB_TOTAL", 0x1C0104, [(84, 0x8)], .none, [⟨0, 32, .rc, none⟩]⟩,
  ⟨"TIM_CFG", 0x1D0000, [], .none, [⟨0, 1, .rw, (some .installer)⟩, ⟨1, 7, .rw, (some .installer)⟩]⟩]

/-- Registers TIM_STEP_MAX to PAD_HOLD_STAT. -/
def regRows9 : List RegRow := [
  ⟨"TIM_STEP_MAX", 0x1D0004, [], .none, [⟨0, 24, .rw, (some .installer)⟩]⟩,
  ⟨"TIM_SLEW_MAX", 0x1D0008, [], .none, [⟨0, 24, .rw, (some .installer)⟩]⟩,
  ⟨"TIM_CMD", 0x1D000C, [], .none, [⟨0, 1, .wo, (some .installer)⟩, ⟨1, 1, .wo, (some .operator)⟩, ⟨24, 8, .wo, (some .installer)⟩]⟩,
  ⟨"TIM_STAT", 0x1D0010, [], .none, [⟨0, 2, .ro, none⟩, ⟨2, 1, .ro, none⟩, ⟨3, 1, .ro, none⟩]⟩,
  ⟨"TIM_NOW_NS", 0x1D0014, [], .none, [⟨0, 32, .ro, none⟩]⟩,
  ⟨"TIM_NOW_SEC_LO", 0x1D0018, [], .none, [⟨0, 32, .ro, none⟩]⟩,
  ⟨"TIM_NOW_SEC_HI", 0x1D001C, [], .none, [⟨0, 16, .ro, none⟩]⟩,
  ⟨"TIM_OFFSET", 0x1D0020, [], .none, [⟨0, 32, .ro, none⟩]⟩,
  ⟨"TIM_RATE", 0x1D0024, [], .none, [⟨0, 32, .ro, none⟩]⟩,
  ⟨"TIM_MASTER_ID_LO", 0x1D0028, [], .none, [⟨0, 32, .ro, none⟩]⟩,
  ⟨"TIM_MASTER_ID_HI", 0x1D002C, [], .none, [⟨0, 32, .ro, none⟩]⟩,
  ⟨"TIM_STEP_CNT", 0x1D0030, [], .none, [⟨0, 32, .rc, none⟩]⟩,
  ⟨"TIM_REFUSE_CNT", 0x1D0034, [], .none, [⟨0, 32, .rc, none⟩]⟩,
  ⟨"TIM_PULSE_START_NS", 0x1D0100, [(4, 0x20)], .timPulse, [⟨0, 32, .rwg, (some .installer)⟩]⟩,
  ⟨"TIM_PULSE_START_LO", 0x1D0104, [(4, 0x20)], .timPulse, [⟨0, 32, .rwg, (some .installer)⟩]⟩,
  ⟨"TIM_PULSE_START_HI", 0x1D0108, [(4, 0x20)], .timPulse, [⟨0, 16, .rwg, (some .installer)⟩]⟩,
  ⟨"TIM_PULSE_PERIOD", 0x1D010C, [(4, 0x20)], .timPulse, [⟨0, 32, .rwg, (some .installer)⟩]⟩,
  ⟨"TIM_PULSE_WIDTH", 0x1D0110, [(4, 0x20)], .timPulse, [⟨0, 32, .rwg, (some .installer)⟩]⟩,
  ⟨"TIM_PULSE_COMMIT", 0x1D0114, [(4, 0x20)], .none, [⟨0, 1, .wo, (some .installer)⟩, ⟨1, 1, .wo, (some .installer)⟩, ⟨8, 1, .ro, none⟩, ⟨16, 16, .ro, none⟩]⟩,
  ⟨"TIM_PULSE_STAT", 0x1D0118, [(4, 0x20)], .none, [⟨0, 1, .ro, none⟩, ⟨1, 1, .ro, none⟩]⟩,
  ⟨"PAD_GPIO_CFG", 0x1E0000, [(32, 0x4)], .padCfg, [⟨0, 8, .rwg, (some .installer)⟩, ⟨8, 2, .rwg, (some .installer)⟩, ⟨10, 1, .rwg, (some .installer)⟩, ⟨11, 1, .rwg, (some .installer)⟩, ⟨12, 2, .rwg, (some .installer)⟩, ⟨16, 8, .rwg, (some .installer)⟩]⟩,
  ⟨"PAD_CFG_COMMIT", 0x1E0080, [], .none, [⟨0, 1, .wo, (some .installer)⟩, ⟨1, 1, .wo, (some .installer)⟩, ⟨8, 1, .ro, none⟩, ⟨16, 16, .ro, none⟩]⟩,
  ⟨"PAD_GPIO_OUT", 0x1E0084, [], .none, [⟨0, 32, .rw, (some .operator)⟩]⟩,
  ⟨"PAD_GPIO_IN", 0x1E0088, [], .none, [⟨0, 32, .ro, none⟩]⟩,
  ⟨"PAD_STRAP", 0x1E008C, [], .none, [⟨0, 1, .ro, none⟩, ⟨1, 1, .ro, none⟩]⟩,
  ⟨"PAD_ESTOP", 0x1E0090, [], .none, [⟨0, 1, .ro, none⟩, ⟨1, 1, .ro, none⟩, ⟨16, 16, .rc, none⟩]⟩,
  ⟨"PAD_HOLD_STAT", 0x1E0094, [], .none, [⟨0, 1, .ro, none⟩, ⟨1, 1, .ro, none⟩]⟩]

/-- Every register of configuration space. -/
def regTable : List RegRow :=
  regRows0 ++ regRows1 ++ regRows2 ++ regRows3 ++ regRows4 ++ regRows5 ++ regRows6 ++ regRows7 ++ regRows8 ++ regRows9

/-- The indexes of the register of an array that lies `off` bytes above its base. -/
def dimIdx : List (Nat × Nat) → Nat → Option (List Nat)
  | [], off => if off = 0 then some [] else none
  | (c, st) :: t, off => if off / st < c then (dimIdx t (off % st)).map (fun l => off / st :: l) else none

/-- A register found by address: its row and indexes. -/
def rowAt : List RegRow → Nat → Option (RegRow × List Nat)
  | [], _ => none
  | r :: t, a =>
    if a < r.base then rowAt t a
    else match dimIdx r.dims (a - r.base) with
      | some ix => some (r, ix)
      | none => rowAt t a

/-- The register at a byte address (R6: address bits [1:0] are ignored). -/
def regAt (a : Nat) : Option (RegRow × List Nat) := rowAt regTable (a / 4 * 4)

end Sys2Proof.Machine
end

