-- ==== Sys2Proof/Machine/State.lean ====
section
/-! DEFINITION. The state of one seat, with the queue of commands that wait for it; the faults and refusals; and the state
after reset. -/
namespace Sys2Proof.Machine

/-! ### The whole seat -/

/-- The state of one QP820 and the commands that wait for it. -/
structure State where
  /-- Commands waiting, first in, first out. -/
  pending : List Instr := []
  /-- The model's own counter of free values drawn so far (log entry 1). -/
  free : Nat := 0
  sys : Sys := {}
  cfg : Cfg := {}
  regs : Regs := {}
  cvq : Vector Queue 64 := Vector.replicate 64 {}
  ing : Ing := {}
  bars : Vector Bar 8 := Vector.replicate 8 {}
  enc : Enc := {}
  ltm : Ltm := {}
  lnk : Lnk := {}
  mem : Mem := {}
  vis : Vis := {}
  chl : Chl := {}
  lmp : Lmp := {}
  mot : Mot := {}
  tbl : Tbl := {}
  thm : Thm := {}
  flt : Flt := {}
  tim : Tim := {}
  pad : Pad := {}
deriving DecidableEq, Repr

/-- Reasons a step stops with a fault. -/
inductive Fault
  /-- Safe: raised by no command. A command whose operands break `Instr.wf` has an effect too (log entry 50), and nothing in the manual
  stops the block. -/
  | illFormed
deriving DecidableEq, Repr

/-- Reasons a step is refused. -/
inductive Refusal
  /-- Raised by an arm of `exec` that has no meaning yet; safe, since nothing is claimed of it. -/
  | notModelled (mnemonic : String)
deriving DecidableEq, Repr

/-- Registers with a reset value other than zero that is not taken from the image: `ENC_PT`.PT_EN = 1, `LNK_PAT_CFG`.DUR
= 1,000. -/
def resetRw : RegMap :=
  [(0x100150, 1), (0x100250, 1), (0x100350, 1), (0x100450, 1)] ++
    (List.range 40).map (fun n => (0x120060 + n * 0x400, 0x3E80))

/-- The machine right after a power-on reset, `RESET_N` high, before `BOOT` has loaded an image. -/
def State.reset : State := { regs := { rw := resetRw } }

end Sys2Proof.Machine
end

