-- ==== Sys2Proof/Machine/Ops.lean ====
section
/-! DEFINITION. The operations every block shares: register fields, counters and flags, free values, events and the
Caravan queues they enter, the audit ring's staging, and forwarding to the other seat. -/
namespace Sys2Proof.Machine

/-- Device time in ns (R328). -/
def State.nowNs (s : State) : Nat := s.tim.sec * 1000000000 + s.tim.ns

/-! ### Block updates -/

/-- The Sys block changed by `f`. -/
def State.onSys (s : State) (f : Sys → Sys) : State := { s with sys := f s.sys }

/-- The Cfg block changed by `f`. -/
def State.onCfg (s : State) (f : Cfg → Cfg) : State := { s with cfg := f s.cfg }

/-- The Regs block changed by `f`. -/
def State.onRegs (s : State) (f : Regs → Regs) : State := { s with regs := f s.regs }

/-- The Ing block changed by `f`. -/
def State.onIng (s : State) (f : Ing → Ing) : State := { s with ing := f s.ing }

/-- The Enc block changed by `f`. -/
def State.onEnc (s : State) (f : Enc → Enc) : State := { s with enc := f s.enc }

/-- The Ltm block changed by `f`. -/
def State.onLtm (s : State) (f : Ltm → Ltm) : State := { s with ltm := f s.ltm }

/-- The Lnk block changed by `f`. -/
def State.onLnk (s : State) (f : Lnk → Lnk) : State := { s with lnk := f s.lnk }

/-- The Mem block changed by `f`. -/
def State.onMem (s : State) (f : Mem → Mem) : State := { s with mem := f s.mem }

/-- The Vis block changed by `f`. -/
def State.onVis (s : State) (f : Vis → Vis) : State := { s with vis := f s.vis }

/-- The Chl block changed by `f`. -/
def State.onChl (s : State) (f : Chl → Chl) : State := { s with chl := f s.chl }

/-- The Lmp block changed by `f`. -/
def State.onLmp (s : State) (f : Lmp → Lmp) : State := { s with lmp := f s.lmp }

/-- The Mot block changed by `f`. -/
def State.onMot (s : State) (f : Mot → Mot) : State := { s with mot := f s.mot }

/-- The Tbl block changed by `f`. -/
def State.onTbl (s : State) (f : Tbl → Tbl) : State := { s with tbl := f s.tbl }

/-- The Thm block changed by `f`. -/
def State.onThm (s : State) (f : Thm → Thm) : State := { s with thm := f s.thm }

/-- The Flt block changed by `f`. -/
def State.onFlt (s : State) (f : Flt → Flt) : State := { s with flt := f s.flt }

/-- The Tim block changed by `f`. -/
def State.onTim (s : State) (f : Tim → Tim) : State := { s with tim := f s.tim }

/-- The Pad block changed by `f`. -/
def State.onPad (s : State) (f : Pad → Pad) : State := { s with pad := f s.pad }

/-- Bar b changed by `f`. -/
def State.onBar (s : State) (b : Fin 8) (f : Bar → Bar) : State := { s with bars := vmod s.bars b f }

/-- Queue q changed by `f`. -/
def State.onQ (s : State) (q : Fin 64) (f : Queue → Queue) : State := { s with cvq := vmod s.cvq q f }

/-! ### Registers -/

/-- The word behind a field: an RW register's value, an RWG register's active value, else the hardware-written value. -/
def State.word (s : State) (f : Fld) : Word :=
  match f.acc with
  | .rw => rget s.regs.rw f.addr
  | .rwg => rget s.regs.act f.addr
  | _ => rget s.regs.hw f.addr

/-- The value in force of a register field. -/
def State.f (s : State) (f : Fld) : Nat := bits (s.word f).toNat f.lo f.w

/-- The value in force of a signed register field. -/
def State.fi (s : State) (f : Fld) : Int := sgn f.w (s.f f)

/-- A one-bit register field. -/
def State.fb (s : State) (f : Fld) : Bool := s.f f == 1

/-- A word with one field replaced. -/
def putFld (w : Word) (f : Fld) (v : Nat) : Word := BitVec.ofNat 32 (insBits w.toNat f.lo f.w v)

/-- A field written by hardware, a write to an RW field, or the active value of an RWG field. -/
def State.setF (s : State) (f : Fld) (v : Nat) : State :=
  match f.acc with
  | .rw => { s with regs := { s.regs with rw := rset s.regs.rw f.addr (putFld (rget s.regs.rw f.addr) f v) } }
  | .rwg => { s with regs := { s.regs with act := rset s.regs.act f.addr (putFld (rget s.regs.act f.addr) f v) } }
  | _ => { s with regs := { s.regs with hw := rset s.regs.hw f.addr (putFld (rget s.regs.hw f.addr) f v) } }

/-- A counter raised by `k`, saturating (R7 RC, R36). -/
def State.bumpBy (s : State) (f : Fld) (k : Nat) : State := s.setF f (satAdd f.w (s.f f) k)

/-- A counter raised by one, saturating. -/
def State.bump (s : State) (f : Fld) : State := s.bumpBy f 1

/-- A counter that keeps the largest value seen. -/
def State.peak (s : State) (f : Fld) (v : Nat) : State := s.setF f (max (s.f f) (min v (2 ^ f.w - 1)))

/-! ### Free values -/

/-- The free bit the next draw gives. -/
def State.freeBit (s : State) : Bool := Config.freeBit s.free

/-- The free number the next draw gives. -/
def State.freeNat (s : State) : Nat := Config.freeNat s.free

/-- One free value drawn. -/
def State.drawn (s : State) : State := { s with free := s.free + 1 }

/-- `n` free bytes, the next draws give. -/
def State.freeBytes (s : State) (n : Nat) : List Byte := (List.range n).map (fun i => BitVec.ofNat 8 (Config.freeNat (s.free + i)))

/-- `n` free values drawn. -/
def State.drawnN (s : State) (n : Nat) : State := { s with free := s.free + n }

/-! ### Liveness -/

/-- The device operates: supplies valid, `RESET_N` high, no factory test mode (R315, R347). -/
def State.alive (s : State) : Bool := s.sys.powered && !s.sys.inReset && !s.pad.testEn

/-- `f` while the device operates; otherwise nothing happens. -/
def State.live (s : State) (f : State → State) : State := if s.alive then f s else s

/-- `f` when `c` holds; otherwise nothing happens. -/
def State.when (s : State) (c : Bool) (f : State → State) : State := if c then f s else s

/-- The mode is `m`. -/
def State.inMode (s : State) (m : Mode) : Bool := s.sys.mode == m

/-- R25: the code of a mode. -/
def Mode.code : Mode → Nat
  | .boot => 0 | .idle => 1 | .standby => 2 | .ready => 3 | .print => 4 | .service => 5 | .halt => 6 | .frozen => 7

/-- The mode a code of `SYS_MODE` names; codes above 7 do not occur. -/
def Mode.ofCode : Nat → Mode
  | 1 => .idle | 2 => .standby | 3 => .ready | 4 => .print | 5 => .service | 6 => .halt | 7 => .frozen | _ => .boot

/-- `IDLE/WARM`. -/
def State.idleWarm (s : State) : Bool := s.inMode .idle && !s.sys.cold

/-! ### Temperature (R303) -/

/-- R303: T in 1/16 °C, the mean of the last 16 raw readings rounded down; 158 °C while SENSOR_BAD is set. -/
def Thm.temp (t : Thm) : Int :=
  if t.sensorBad then 2528
  else match t.raws with
    | [] => 0
    | l => l.foldl (· + ·) 0 / (l.length : Int)

/-! ### Lines -/

/-- R149: the print line index of bar b, G − BAR_DLY[b], and 0 before that. -/
def State.lineOf (s : State) (b : Nat) : Nat := s.ltm.g.toNat - s.f (F.LTM_BAR_DLY_LINES b)

/-! ### Caravan queues (R56–R66) -/

/-- R56, R57: bytes of one entry as the queue stores it. -/
def entrySize : Entry → Nat
  | .lane r => cdiv r.data.length 64 * 64
  | .chunk _ => 4096
  | .frame _ => 16384
  | .stats _ => 1024
  | .arch _ => 4096
  | .evt _ => 16

/-- R56: entries of queue q that its crest holds. -/
def crestCap (q : Nat) : Nat :=
  if q < 40 then 32 else if q < 48 then 16 else if q < 52 then 8 else if q < 56 then 64 else if q < 60 then 32 else 4096

/-- R56: entries of queue q that its tail holds. -/
def tailCap (q : Nat) : Nat :=
  if q < 40 then 16 else if q < 48 then 16 else if q < 52 then 8 else if q < 56 then 64 else if q < 60 then 32 else 4096

/-- Entry size of queue q in bytes; of a lane line queue, that of the entries it holds, 5,376 B when it is empty. -/
def Queue.entryBytes (qu : Queue) (q : Nat) : Nat :=
  if q < 40 then
    match qu.crest ++ qu.dune ++ qu.tail with
    | [] => 5376
    | e :: _ => max 64 (entrySize e)
  else if q < 48 then 4096 else if q < 52 then 16384 else if q < 56 then 1024 else if q < 60 then 4096 else 16

/-- R66: dune ring size in bytes in force; a ring beyond CAP is used as size 0, sizes above 1,024 as 1,024. -/
def State.duneBytes (s : State) (q : Fin 64) : Nat :=
  if s.cvq[q].ringBad then 0 else min 1024 (s.f (F.CVQ_DUNE_SIZE_SIZE q)) * 1048576

/-- Entries the dune of queue q holds when full. -/
def State.duneCap (s : State) (q : Fin 64) : Nat := s.duneBytes q / s.cvq[q].entryBytes q

/-- R58: the fill, entries in crest, dune and tail together. -/
def Queue.fill (qu : Queue) : Nat := qu.crest.length + qu.dune.length + qu.tail.length

/-- R58: the queue is full when crest, dune and tail are all full. -/
def State.qFull (s : State) (q : Fin 64) : Bool :=
  let qu := s.cvq[q]
  decide (crestCap q ≤ qu.crest.length) && decide (s.duneCap q ≤ qu.dune.length) && decide (tailCap q ≤ qu.tail.length)

/-- The mover brings tail and dune entries forward until nothing can move (R58). -/
def moveAll (crestMax duneMax : Nat) : Nat → Queue → Queue
  | 0, qu => qu
  | k + 1, qu =>
    match qu.dune, qu.tail with
    | d :: ds, _ =>
      if qu.crest.length < crestMax then moveAll crestMax duneMax k { qu with crest := qu.crest ++ [d], dune := ds }
      else match qu.tail with
        | t :: ts =>
          if qu.dune.length < duneMax then moveAll crestMax duneMax k { qu with dune := qu.dune ++ [t], tail := ts }
          else qu
        | [] => qu
    | [], t :: ts =>
      if qu.crest.length < crestMax then moveAll crestMax duneMax k { qu with crest := qu.crest ++ [t], tail := ts }
      else if 0 < duneMax then moveAll crestMax duneMax k { qu with dune := [t], tail := ts }
      else qu
    | [], [] => qu

/-- One move of the mover (R58): into the crest the oldest entry outside it, if the crest has room; otherwise a tail entry
into the dune. -/
def State.moveOne (s : State) (q : Fin 64) : State :=
  { s with cvq := vset s.cvq q (moveAll (crestCap q) (s.duneCap q) 1 s.cvq[q]) }

/-- Queue q with its tail and dune brought forward as far as they go. -/
def State.settle (s : State) (q : Fin 64) : State :=
  { s with cvq := vset s.cvq q (moveAll (crestCap q) (s.duneCap q) (2 * s.cvq[q].fill) s.cvq[q]) }

/-- The tail of queue q has room for one more entry. -/
def State.tailRoom (s : State) (q : Fin 64) : Bool := decide (s.cvq[q].tail.length < tailCap q)

/-- R61: the flag of queue q is set when the fill rises to its level, and the supervisor is signalled if enabled. -/
def State.levelCross (s : State) (q : Fin 64) (before after : Nat) : State :=
  let lvl := s.f (F.CVQ_LEVEL_LEVEL q)
  let fl := F.CVQ_LVL_FLAG_FLAG (q.val / 32)
  if lvl ≠ 0 ∧ before < lvl ∧ lvl ≤ after then
    let s1 := s.setF fl (insBits (s.f fl) (q.val % 32) 1 1)
    if (s.f (F.CVQ_LVL_IE_IE (q.val / 32))).testBit (q.val % 32) then s1.onQ q fun qu => { qu with signals := qu.signals + 1 } else s1
  else s

/-- An entry put at the producer's end of queue q, which has room (R58), with the level notice and the peak. -/
def State.qPut (s : State) (q : Fin 64) (e : Entry) : State :=
  let n := s.cvq[q].fill
  let s1 := { s with cvq := vset s.cvq q { s.cvq[q] with tail := s.cvq[q].tail ++ [e] } }
  (s1.levelCross q n (n + 1)).peak (F.CVQ_PEAK_PEAK q) (n + 1)

/-! ### Events (R9, R56, R323, R356) -/

/-- R356: the queue of an event code, as an index above 60. -/
def evtQueue (code : Nat) : Fin 4 :=
  if code ∈ [0x012, 0x030, 0x031, 0x032, 0x033, 0x034, 0x035, 0x040, 0x041, 0x060, 0x061, 0x062, 0x063, 0x073, 0x104] then 1
  else if code ∈ [0x042, 0x043, 0x0A0, 0x0A1, 0x0A2] then 2
  else if 0x110 ≤ code ∧ code ≤ 0x117 then 3
  else 0

/-- The Caravan queue of an event queue. -/
def evtQ (i : Fin 4) : Fin 64 := ⟨60 + i.val, by omega⟩

/-- R323: a record written behind older records and before those of the same instant with a higher code. -/
def insertEvt (e : EventRec) : List Entry → List Entry
  | [] => [.evt e]
  | .evt x :: t =>
    if x.ns = e.ns ∧ x.sec = e.sec ∧ e.code < x.code ∧ x.code ≠ 0x020 ∧ x.code ≠ 0x021 then .evt e :: .evt x :: t
    else .evt x :: insertEvt e t
  | x :: t => x :: insertEvt e t

/-- R9: the record of an event: bar 15 stands for no bar and takes the line index of bar 0. -/
def State.evtRec (s : State) (code bar arg : Nat) : EventRec :=
  { code := code, bar := bar, line := s.lineOf (if bar < 8 then bar else 0), ns := s.tim.ns, sec := s.tim.sec % 65536,
    arg := arg % 65536 }

/-- R9: the 128 bits of an event record: code, bar, line index, nanoseconds, seconds, argument. -/
def evtNum (e : EventRec) : Nat :=
  e.code % 2 ^ 12 + e.bar % 16 * 2 ^ 12 + e.line % 2 ^ 48 * 2 ^ 16 + e.ns % 2 ^ 32 * 2 ^ 64 + e.sec % 2 ^ 16 * 2 ^ 96
    + e.arg % 2 ^ 16 * 2 ^ 112

/-- R9: the 16 bytes of an event record, little-endian. -/
def evtBytes (e : EventRec) : List Byte := leBytes 16 (evtNum e)

/-- The record of EVT_EVQ_LOST owed by an event queue (R59). -/
def State.lostRec (s : State) (i : Fin 4) : EventRec := s.evtRec 0x021 15 (min 65535 s.cvq[evtQ i].lost)

/-- A record written into an event queue that has room, in the order of R323. -/
def State.evtStore (s : State) (i : Fin 4) (e : EventRec) : State :=
  let q := evtQ i
  let n := s.cvq[q].fill
  let s1 := s.onQ q (fun qu => { qu with tail := insertEvt e qu.tail })
  (s1.levelCross q n (n + 1)).peak (F.CVQ_PEAK_PEAK q) (n + 1)

/-- R59: EVT_EVQ_LOST put into an event queue that dropped records, as soon as it has room. -/
def State.evqLost (s : State) (i : Fin 4) : State :=
  let q := evtQ i
  if decide (s.cvq[q].lost = 0) || s.qFull q then s
  else
    let r := s.lostRec i
    let n := s.cvq[q].fill
    let s1 := s.onQ q (fun qu => { qu with tail := qu.tail ++ [.evt r], lost := 0 })
    (s1.levelCross q n (n + 1)).peak (F.CVQ_PEAK_PEAK q) (n + 1)

/-- A record put into an event queue behind any EVT_EVQ_LOST it owes, or dropped and counted when it is full (R59). -/
def State.evtPut (s : State) (i : Fin 4) (e : EventRec) : State :=
  let q := evtQ i
  let s0 := ((s.settle q).evqLost i).settle q
  if s0.qFull q then (s0.onQ q (fun qu => { qu with lost := qu.lost + 1 })).bump (F.CVQ_DROP_DROP q)
  else s0.evtStore i e

/-- An event raised (R9, R356): no record is written while the device does not operate. -/
def State.raise (s : State) (code bar arg : Nat) : State := s.evtPut (evtQueue code) (s.evtRec code bar arg)

/-- An event tied to no bar. -/
def State.event (s : State) (code arg : Nat) : State := s.raise code 15 arg

/-! ### Forwarding (R282, R290) -/

/-- Bytes a forwarding record takes in the replay buffer: header, payload (LEN) and CRC-32C. -/
def fwdBytes : FwdItem → Nat
  | .desc _ _ p => 12 + 32 + p.length
  | .stats _ => 12 + 1024
  | .white _ v _ => 12 + 8 * v.length
  | .lamp _ i => 12 + 4 + 3 * i.status.length + 32 + 96 + 30
  | .front l => 12 + 6 * l.length
  | _ => 12 + 16

/-- R282: the replay buffer holds 768 KiB. -/
def replayCap : Nat := 786432

/-- The holder with a seat in step forwards an item: a record is put on the stream and kept until acknowledged.  A record
that finds the replay buffer full takes the standby out of step and forwarding stops (R295). -/
def State.forward (s : State) (i : FwdItem) : State :=
  if !s.tbl.holder || !(s.tbl.inStep || s.tbl.joining) then s
  else if replayCap < s.tbl.replayBytes + fwdBytes i then
    { s with tbl := { s.tbl with inStep := false, joining := false, left := 3, tx := s.tbl.tx ++ [.suspect 3] } }
  else
    let r : FwdRec := { fseq := s.tbl.txSeq, item := i }
    let n := s.tbl.replayBytes + fwdBytes i
    (s.onTbl (fun t => { t with
      txSeq := t.txSeq + 1
      replay := t.replay ++ [r]
      replayBytes := n
      tx := t.tx ++ [.fwd r] })).peak F.TBL_FWD_LVL_PEAK (cdiv n 1024)

/-! ### Audit (R50–R52) -/

/-- R51: the WHO byte of a role and a session. -/
def whoOf (r : Role) (ses : Nat) : Nat :=
  (match r with | .operator => 1 | .installer => 2 | .maker => 3) + 16 * ses

/-- R52: the staging area holds 64 records. -/
def stagingCap : Nat := 64

/-- R51, R52: a record staged; it takes the next sequence number and the device time.  Records that find the staging area full wait
for room, oldest first (DESIGN CHOICE, log entry 58: R52 holds writes of sessions back and names no other record). -/
def State.audit (s : State) (kind who addr a b : Nat) : State :=
  let r : AuditRec := { seq := s.cfg.auditSeq, sec := s.tim.sec % 2 ^ 32, nsec := s.tim.ns, kind := kind, who := who,
                        addr := addr, a := a, b := b }
  let n := (s.cfg.auditSeq + 1) % 2 ^ 32
  if s.cfg.staging.length < stagingCap ∧ s.cfg.auditWait = [] then
    { s with cfg := { s.cfg with auditSeq := n, staging := s.cfg.staging ++ [r] } }
  else { s with cfg := { s.cfg with auditSeq := n, auditWait := s.cfg.auditWait ++ [r] } }

/-! ### Roles (R8, R48) -/

/-- Rank of a role; the roles are nested. -/
def rankOf : Role → Nat
  | .operator => 1 | .installer => 2 | .maker => 3

/-- Role `r` holds the rights of role `need`. -/
def covers (r need : Role) : Bool := decide (rankOf need ≤ rankOf r)

/-- The session holds the rights of a role. -/
def State.may (s : State) (ses : Fin 5) (need : Role) : Bool :=
  match s.cfg.sess[ses].role with
  | some r => covers r need
  | none => false

/-- The session's role. -/
def State.roleOf (s : State) (ses : Fin 5) : Option Role := s.cfg.sess[ses].role

/-! ### Handles and jobs (R74, R75) -/

/-- Tag and generation of a handle. -/
def tagOf (h : BitVec 16) : Nat := h.toNat / 16
def genOf (h : BitVec 16) : Nat := h.toNat % 16

/-- The handle of a tag and generation. -/
def mkHandle (tag gen : Nat) : BitVec 16 := BitVec.ofNat 16 (tag * 16 + gen % 16)

/-- A job's current handle. -/
def Job.handle (j : Job) : BitVec 16 := mkHandle j.tag j.gen

/-- The job a current handle names; a stale generation or a free tag names none (R75). -/
def State.job? (s : State) (h : BitVec 16) : Option Job :=
  s.ing.jobs.find? (fun j => j.tag = tagOf h ∧ j.gen = genOf h)

/-- The job of a tag. -/
def State.jobAt (s : State) (tag : Nat) : Option Job := s.ing.jobs.find? (fun j => j.tag = tag)

/-- The job of a tag changed by `f`. -/
def State.modJob (s : State) (tag : Nat) (f : Job → Job) : State :=
  { s with ing := { s.ing with jobs := s.ing.jobs.map (fun j => if j.tag = tag then f j else j) } }

/-- Some job is bound (R357). -/
def State.anyBound (s : State) : Bool := !s.sys.jobs.isEmpty

/-- R357: a job is bound on bar b. -/
def State.boundOn (s : State) (b : Nat) : Bool := s.sys.jobs.any (fun j => j.bars.getLsbD b)

/-- The bound jobs changed by `f`. -/
def State.onJobs (s : State) (f : List BJob → List BJob) : State := { s with sys := { s.sys with jobs := f s.sys.jobs } }

/-- Length of a bound job in lines, once known. -/
def State.linesOf (s : State) (j : BJob) : Option Nat := (s.job? j.handle).bind (·.lines)

/-- The state of a bound job. -/
def State.jobSt (s : State) (h : BitVec 16) : JobState :=
  match s.job? h with | some j => j.st | none => .free

end Sys2Proof.Machine
end

