-- ==== Sys2Proof/Machine/Access.lean ====
section
/-! DEFINITION. How a management session reaches configuration space: roles (R8, R48), what FROZEN and STANDBY shut out
(R291, R355), waking a gated island (R30), audit records and bursts (R50, R52) and forwarding (R290). -/
namespace Sys2Proof.Machine

/-- The island that holds a register, by its block of R351 (none: CVQ, which belongs to no island, R358; FLT and THM lie in
the always-on domain). -/
def islandOf (a : Nat) : Option Island :=
  if a < 0x20000 then some .sup
  else if a < 0x30000 then none
  else if a < 0x50000 then some .ing
  else if a < 0x80000 then none
  else if h : 0x80000 ≤ a ∧ a < 0x100000 then some (.bar ⟨(a - 0x80000) / 0x10000, by omega⟩)
  else if a < 0x110000 then some .mot
  else if a < 0x120000 then some .ltm
  else if a < 0x140000 then some .lnk
  else if a < 0x160000 then some .mem
  else if a < 0x170000 then some .vis
  else if a < 0x180000 then some .chl
  else if a < 0x1A0000 then some .mot
  else if a < 0x1B0000 then some .tbl
  else if a < 0x1C0000 then some .thm
  else if a < 0x1D0000 then none
  else if a < 0x1F0000 then some .sup
  else none

/-- R10: the islands whose clocks are gated in `IDLE/COLD`. -/
def gatedCold : Island → Bool
  | .sup => false | .thm => false | .tbl => false | _ => true

/-- The register at address `a` lies in an island that `IDLE/COLD` gates. -/
def coldGated (a : Nat) : Bool :=
  match islandOf (a % 0x200000) with
  | some i => gatedCold i
  | none => decide (0x400000 ≤ a)

/-- R355: the diagnosis registers that respond in `FROZEN`. -/
def frozenDiag (a : Nat) : Bool :=
  decide (a < 0x18) || decide (a = 0x100) || decide (a = 0x10C) || decide (a = 0x110) || decide (a = 0x114)
  || decide (a = 0x118) || decide (a = 0x11C) || decide (a = 0x10000) || decide (a = 0x10014) || decide (a = 0x10018)
  || decide (0x10040 ≤ a ∧ a < 0x10068) || decide (0x140000 ≤ a ∧ a < 0x160000) || decide (a = 0x1B0000)
  || decide (a = 0x1B0008) || decide (a = 0x1B003C) || decide (a = 0x1A0024) || decide (a = 0x1A0028)
  || decide (0x1C0060 ≤ a ∧ a < 0x1C006C) || decide (0x1C0100 ≤ a ∧ a < 0x1C0100 + 84 * 8)

/-- R291: the registers a seat in `STANDBY` accepts writes to from its own sessions.  `ENC_CFG`, `ENC_CMD`, `CHL_CAL_CMD` and
`SYS_MODE_REQ` are seat-local in part only; their own commands say which part. -/
def seatLocal (a : Nat) : Bool :=
  decide (0x1A0000 ≤ a ∧ a < 0x1C0000) || decide (0x120000 ≤ a ∧ a < 0x160000) || decide (a = 0x110) || decide (a = 0x10010)
  || decide (0x100100 ≤ a ∧ a < 0x100500 ∧
      (a % 0x100 = 0x40 ∨ a % 0x100 = 0x44 ∨ a % 0x100 = 0x50 ∨ a % 0x100 = 0x00 ∨ a % 0x100 = 0x1C))
  || decide (a = 0x170A04) || decide (a = 0x104)

/-- The burst of a session ended: its single record is staged (R50). -/
def State.endBurst (s : State) (ses : Fin 5) : State :=
  match s.cfg.sess[ses].burst with
  | none => s
  | some b =>
    (s.onCfg (fun c => { c with sess := vmod c.sess ses (fun x => { x with burst := none }) })).audit
      0x02 (whoOf b.role ses) b.first b.count (b.crc ^^^ 0xFFFFFFFF)

/-- R50: a register write made under a role is recorded for an installer or maker. -/
def State.auditBy (s : State) (kind : Nat) (r : Role) (ses a old new : Nat) : State :=
  if covers r .installer then s.audit kind (whoOf r ses) a old new else s

/-- R50: a successful register write by an installer or maker is recorded. -/
def State.auditWrite (s : State) (ses : Fin 5) (a old new : Nat) : State :=
  s.auditBy 0x01 ((s.roleOf ses).getD .operator) ses a old new

/-- Who writes: a session of the seat that took the write, and its role. -/
structure Writer where
  ses : Nat := 0
  role : Role := .operator
deriving DecidableEq, Repr

/-- A session as the writer of what it writes. -/
def State.writer (s : State) (ses : Fin 5) : Writer := { ses := ses.val, role := (s.roleOf ses).getD .operator }

/-- R290: an accepted write goes to the other seat with the line index at which it took effect. -/
def State.fwdBy (s : State) (w : Writer) (a : Nat) (data : Word) (line : Nat) : State :=
  s.forward (.write w.ses w.role a data line)


/-- The session's write would be recorded (R50). -/
def State.audited (s : State) (ses : Fin 5) : Bool := s.may ses .installer

/-- A wake from `IDLE/COLD` started (R30). -/
def State.wake (s : State) : State :=
  if s.inMode .idle && s.sys.cold then s.onSys (fun y => { y with waking := true }) else s

/-- R351: the table window an address lies in, by number; 0 outside the windows. -/
def winOf (a : Nat) : Nat :=
  if a < 0x400000 then 0 else if a < 0x480000 then 1 else if a < 0x4C0000 then 2 else if a < 0x4E0000 then 3
  else if a < 0x4F0000 then 4 else 5

/-- R50: a window write continues the session's burst. -/
def Burst.goesOn (b : Burst) (a : Nat) : Bool := decide (a = b.next) && decide (winOf a = winOf b.first)

/-- R50: a window write at `a` continues the session's burst. -/
def State.burstGoesOn (s : State) (ses : Fin 5) (a : Nat) : Bool :=
  match s.cfg.sess[ses].burst with | some b => b.goesOn a | none => false

/-- R50: a write at `a`, whatever becomes of it, ends a burst of its session that it does not continue. -/
def State.burstCut (s : State) (ses : Fin 5) (a : Nat) : State := if s.burstGoesOn ses a then s else s.endBurst ses

/-- What shuts a session's write to address `a` out or puts it off, before its own rule is asked: no role that covers
`need`, `FROZEN`, `STANDBY`, a gated island (the write waits for the wake), a full staging area (the write is held).
Otherwise `f` decides.  A burst of the session that the write does not continue ends with it (R50). -/
def State.sesReach (s : State) (ses : Fin 5) (need : Role) (a : Nat) (data : Word) (f : State → State) : State :=
  s.live fun s0 =>
  let s := s0.burstCut ses a
  if !s.may ses need then s
  else if s.inMode .frozen && !frozenDiag a then s
  else if s.inMode .standby && !seatLocal a then s
  else if s.inMode .idle && s.sys.cold && coldGated a then
    s.wake.onSys (fun y => { y with afterWake := y.afterWake ++ [(ses, a, some data)] })
  else if s.audited ses && decide (stagingCap ≤ s.cfg.staging.length) then
    s.onCfg (fun c => { c with heldWrites := c.heldWrites ++ [(ses, a, data)] })
  else f s

/-- A session's register write: `f` answers none where the write is ignored, else the state after it. -/
def State.sesWriteBy (s : State) (ses : Fin 5) (need : Role) (a : Nat) (data : Word)
    (f : State → Option State) : State :=
  s.sesReach ses need a data fun s =>
    match f s with
    | none => s
    | some t => t

/-- R50: a successful table-window write joins the session's burst or starts one. -/
def State.burstWrite (s : State) (ses : Fin 5) (a : Nat) (data : Word) : State :=
  let s1 := s.burstCut ses a
  let b : Burst := match s1.cfg.sess[ses].burst with
    | some b => b
    | none => { first := a, next := a, count := 0, role := (s.roleOf ses).getD .installer }
  let b' : Burst := { b with
    next := a + 4
    count := b.count + 1
    crc := crc32cReg b.crc (leBytes 4 data.toNat) }
  s1.onCfg fun c => { c with sess := vmod c.sess ses (fun x => { x with burst := some b' }) }

/-- A session's write to a table window (R352): `f` decides whether it is accepted. -/
def State.winWrite (s : State) (ses : Fin 5) (need : Role) (a : Nat) (data : Word) (f : State → Option State) : State :=
  s.sesReach ses need a data fun s =>
    match f s with
    | none => s
    | some t => t.burstWrite ses a data

/-- A session's command register write (WO): `f` decides whether it is accepted; an accepted write is audited with old value
zero, since a WO register reads zero. -/
def State.sesCmd (s : State) (ses : Fin 5) (need : Role) (a : Nat) (data : Word) (f : State → Option State) : State :=
  s.sesWriteBy ses need a data fun s => (f s).map (fun t => t.auditWrite ses a 0 data.toNat)

/-- The word of a command register with CONFIRM in [31:24]. -/
def confirmWord (confirm : Byte) (low : Nat) : Word := BitVec.ofNat 32 (confirm.toNat * 2 ^ 24 + low)

/-- CONFIRM holds (0xA5). -/
def confirmed (confirm : Byte) : Bool := confirm == 0xA5

end Sys2Proof.Machine
end

