-- ==== Sys2Proof/Machine/Commit.lean ====
section
/-! DEFINITION. Commit groups (R53–R55, R353): their members, roles and registers, and the copies between shadow, pending and
active set. -/
namespace Sys2Proof.Machine

/-- A range of byte addresses. -/
def inRange (lo hi a : Nat) : Bool := decide (lo ≤ a) && decide (a < hi)

/-- R353: the registers of a group, by address; asked of RWG registers only. -/
def groupMem : Group → Nat → Bool
  | .lyrCtl b, a => a == 0x80000 + b.val * 0x10000
  | .tonOfs b, a => inRange (0x84000 + b.val * 0x10000) (0x84044 + b.val * 0x10000) a
  | .nzmGeom b, a => inRange (0x8C000 + b.val * 0x10000) (0x8C0A0 + b.val * 0x10000) a
  | .nzmCfg b, a => inRange (0x8C100 + b.val * 0x10000) (0x8C1A4 + b.val * 0x10000) a
  | .encSrc, a => inRange 0x100000 0x100008 a
  | .encCfg ch, a => inRange (0x100100 + ch.val * 0x100) (0x100108 + ch.val * 0x100) a
  | .ltmGeom, a => inRange 0x110000 0x11000C a || inRange 0x110010 0x110030 a || inRange 0x110400 0x110900 a
  | .ltmTiming, a => inRange 0x110040 0x110060 a || inRange 0x110A00 0x110F00 a
  | .ltmGov, a => inRange 0x110100 0x110114 a
  | .lnkCfg n, a => a == 0x120000 + n.val * 0x400
  | .memCtl, a => inRange 0x15000C 0x150014 a
  | .visAce, a => inRange 0x160010 0x160018 a
  | .visCam k, a => inRange (0x161000 + k.val * 0x200) (0x161020 + k.val * 0x200) a
      || inRange (0x161100 + k.val * 0x200) (0x161200 + k.val * 0x200) a
  | .visSens k, a => inRange (0x161040 + k.val * 0x200) (0x161090 + k.val * 0x200) a
  | .chlLaw, a => inRange 0x170000 0x170018 a
  | .motCfg x, a => a == 0x180000 + x.val * 0x200 || a == 0x180040 + x.val * 0x200
  | .lmpCfg, a => inRange 0x190000 0x190100 a || inRange 0x191000 0x191800 a
  | .timPulse k, a => inRange (0x1D0100 + k.val * 0x20) (0x1D0114 + k.val * 0x20) a
  | .padCfg, a => inRange 0x1E0000 0x1E0080 a

/-- R353: the commit register of a group. -/
def commitAddr : Group → Nat
  | .lyrCtl b => 0x80004 + b.val * 0x10000
  | .tonOfs b => 0x84044 + b.val * 0x10000
  | .nzmGeom b => 0x8C0A0 + b.val * 0x10000
  | .nzmCfg b => 0x8C1A4 + b.val * 0x10000
  | .encSrc => 0x100008
  | .encCfg ch => 0x100108 + ch.val * 0x100
  | .ltmGeom => 0x11000C
  | .ltmTiming => 0x110060
  | .ltmGov => 0x110114
  | .lnkCfg n => 0x120004 + n.val * 0x400
  | .memCtl => 0x150014
  | .visAce => 0x160018
  | .visCam k => 0x161020 + k.val * 0x200
  | .visSens k => 0x161090 + k.val * 0x200
  | .chlLaw => 0x170018
  | .motCfg a => 0x180004 + a.val * 0x200
  | .lmpCfg => 0x190100
  | .timPulse k => 0x1D0114 + k.val * 0x20
  | .padCfg => 0x1E0080

/-- R353: the write role of a group's commit register. -/
def groupRole : Group → Role
  | .visAce => .maker
  | _ => .installer

/-- Every commit group. -/
def allGroups : List Group :=
  (List.finRange 8).flatMap (fun b => [.lyrCtl b, .tonOfs b, .nzmGeom b, .nzmCfg b])
    ++ [.encSrc] ++ (List.finRange 4).map .encCfg ++ [.ltmGeom, .ltmTiming, .ltmGov] ++ (List.finRange 40).map .lnkCfg
    ++ [.memCtl, .visAce] ++ (List.finRange 8).map .visCam ++ (List.finRange 8).map .visSens ++ [.chlLaw]
    ++ (List.finRange 16).map .motCfg ++ [.lmpCfg] ++ (List.finRange 4).map .timPulse ++ [.padCfg]

/-- The group whose commit register lies at an address. -/
def groupAt (a : Nat) : Option Group := allGroups.find? (fun g => commitAddr g == a)

/-- R53: the rows of the table of instants. -/
inductive Instant | bar (b : Fin 8) | line | vis | sens | soon
deriving DecidableEq, Repr

/-- R353: the row of R53 a group belongs to. -/
def instantOf : Group → Instant
  | .lyrCtl b => .bar b | .tonOfs b => .bar b | .nzmGeom b => .bar b | .nzmCfg b => .bar b
  | .visAce => .vis | .visCam _ => .vis | .visSens _ => .sens
  | .memCtl => .soon | .timPulse _ => .soon | .padCfg => .soon
  | .encSrc => .line | .encCfg _ => .line | .ltmGeom => .line | .ltmTiming => .line | .ltmGov => .line | .lnkCfg _ => .line
  | .chlLaw => .line | .motCfg _ => .line | .lmpCfg => .line

/-- R291: the groups of seat-local blocks are not forwarded. -/
def groupLocal : Group → Bool
  | .lnkCfg _ => true | .memCtl => true | _ => false

/-- R53: a commit: the shadow becomes the pending set. -/
def State.stage (s : State) (g : Group) : State :=
  s.onRegs fun r => { r with
    pend := rcopy (groupMem g) r.shadow r.pend
    pending := if r.pending.contains g then r.pending else r.pending ++ [g] }

/-- R55: the active set copied into the shadow. -/
def State.unstage (s : State) (g : Group) : State :=
  s.onRegs fun r => { r with shadow := rcopy (groupMem g) r.act r.shadow }

/-- R53, R55: the pending set becomes active; LAST takes the low 16 bits of the index. -/
def State.activate (s : State) (g : Group) (last : Nat) : State :=
  s.onRegs fun r => { r with
    act := rcopy (groupMem g) r.pend r.act
    pend := rfilter (fun a => !groupMem g a) r.pend
    pending := r.pending.filter (· ≠ g)
    hw := rset r.hw (commitAddr g) (BitVec.ofNat 32 (last % 65536 * 65536)) }

/-- R53, R290: the holder's commit is forwarded with the line index at which it took effect. -/
def State.takes (s : State) (g : Group) (last line : Nat) : State :=
  let s1 := s.activate g last
  if groupLocal g then s1 else s1.forward (.commit g line)

/-- R237: a commit of `TON_OFS` clears the bar's tone accumulators. -/
def State.toneCleared (s : State) (b : Fin 8) : State :=
  (s.onChl fun c => { c with knot := vset c.knot b (Vector.replicate 17 (0, 0)) }).onBar b fun x => { x with knotQ := [] }

/-- R53: the pending groups of bar b take effect at the line it begins. -/
def State.barCommits (s : State) (b : Fin 8) (line : Nat) : State :=
  (s.regs.pending.filter (fun g => instantOf g = .bar b)).foldl (fun s g =>
    let s1 := s.takes g line line
    if g = .tonOfs b then s1.toneCleared b else s1) s

end Sys2Proof.Machine
end

