-- ==== Sys2Proof/Machine/Geom.lean ====
section
/-! DEFINITION. The geometry of a bar: its heads, their descriptors, the lanes that carry them, the seams and the screening
matrix's size (R122, R127, R129, R171). -/
namespace Sys2Proof.Machine

/-- R171: word w of head type t's descriptor. -/
def State.descWord (s : State) (t w : Nat) : Nat := (rget s.lnk.desc (t * 64 + w)).toNat

/-- Fields of a head type's descriptor (R171). -/
structure HType where
  id : Nat
  noz : Nat
  pitch : Nat
  rows : Nat
  grouped : Bool
  rowOfs : List Nat
  fmax : Nat
  tref : Int
  vref : Nat
  kt : Int
  kv : Int
  wmin : Nat
  wmax : Nat
deriving DecidableEq, Repr

/-- The descriptor of head type t. -/
def State.htype (s : State) (t : Nat) : HType :=
  let w := s.descWord t
  let rows := bits (w 1) 12 4
  { id := bits (w 0) 0 16, noz := bits (w 0) 16 12, pitch := bits (w 1) 0 12, rows := if rows = 0 then 1 else rows,
    grouped := bits (w 1) 16 1 == 1, rowOfs := (upto 8).map (fun i => bits (w (2 + i / 4)) (8 * (i % 4)) 8),
    fmax := bits (w 4) 0 20, tref := sgn 16 (w 5), vref := bits (w 5) 16 16, kt := sgn 32 (w 6), kv := sgn 32 (w 7),
    wmin := bits (w 8) 0 12, wmax := bits (w 8) 16 12 }

/-- R171: base width of band b at level l (1 to 3). -/
def State.baseWidth (s : State) (t band l : Nat) : Nat := bits (s.descWord t (16 + 3 * band + (l - 1))) 0 12

/-- R_max, the largest row offset of a type. -/
def HType.rmax (h : HType) : Nat := h.rowOfs.foldl max 0

/-- R171: a descriptor in use is invalid. -/
def HType.invalid (h : HType) : Bool :=
  decide (h.id ≠ 0) && (decide (h.noz < 64) || decide (2688 < h.noz) || decide (h.noz % 64 ≠ 0)
    || decide (h.noz % h.rows ≠ 0) || decide (h.fmax = 0) || decide (h.wmax < h.wmin))

/-- R122: a descriptor in use and valid. -/
def HType.usable (h : HType) : Bool := decide (h.id ≠ 0) && !h.invalid

/-- An enabled head of a bar (R122). -/
structure Head where
  h : Nat := 0
  start : Nat := 0
  type : Nat := 0
  mirror : Bool := false
  n : Nat := 0
  rows : Nat := 1
  grouped : Bool := false
deriving DecidableEq, Repr

/-- The head h of bar b, if its active geometry enables it. -/
def State.headAt (s : State) (b h : Nat) : Option Head :=
  if s.fb (F.NZM_GEOM_EN b h) then
    let t := s.f (F.NZM_GEOM_TYPE b h)
    let d := s.htype t
    some { h := h, start := s.f (F.NZM_GEOM_START b h), type := t, mirror := s.fb (F.NZM_GEOM_MIRROR b h), n := d.noz,
           rows := d.rows, grouped := d.grouped }
  else none

/-- The enabled heads of bar b, in ascending order. -/
def State.headsOf (s : State) (b : Nat) : List Head := (upto 40).filterMap (s.headAt b)

/-- R122: neighbouring heads overlap by 0 to 512 columns. -/
def overlapsOk : List Head → Bool
  | a :: b :: t => decide (b.start ≤ a.start + a.n) && decide (a.start + a.n ≤ b.start + 512) && overlapsOk (b :: t)
  | _ => true

/-- R122: some column lies under three heads of the list. -/
def tripled (hs : List Head) : Bool :=
  hs.any (fun a => hs.any (fun b => hs.any (fun c =>
    decide (a.h < b.h ∧ b.h < c.h) &&
      decide (max a.start (max b.start c.start) < min (a.start + a.n) (min (b.start + b.n) (c.start + c.n))))))

/-- Heads overlap by 0 to 512 columns, and no column lies under three (R122). -/
def spacingOk (hs : List Head) : Bool := overlapsOk hs && !tripled hs

/-- R122: the active geometry of bar b is valid against the descriptors in force. -/
def State.geomOk (s : State) (b : Nat) : Bool :=
  let hs := s.headsOf b
  (hs.map (·.h) == upto hs.length) && (match hs with | h :: _ => decide (h.start = 0) | [] => true) && spacingOk hs
    && hs.all (fun h => (s.htype h.type).usable && decide ((s.htype h.type).pitch = 1200))

/-- R122: COLS of a list of heads. -/
def colsOf : List Head → Nat
  | [] => 0
  | [h] => h.start + h.n
  | _ :: t => colsOf t

/-- Printed columns of bar b. -/
def State.cols (s : State) (b : Nat) : Nat := colsOf (s.headsOf b)

/-- Bar b has an enabled head (R357). -/
def State.hasHeads (s : State) (b : Nat) : Bool := !(s.headsOf b).isEmpty

/-- The heads that cover column c, lower-numbered first. -/
def coverers (hs : List Head) (c : Nat) : List Head := hs.filter (fun h => h.start ≤ c ∧ c < h.start + h.n)

/-- R122: the nozzle of a head at column c. -/
def Head.nozzle (h : Head) (c : Nat) : Nat := if h.mirror then h.start + h.n - 1 - c else c - h.start

/-- R129: the position of nozzle k in its head record. -/
def Head.position (h : Head) (k : Nat) : Nat :=
  if h.grouped then k % h.rows * (h.n / h.rows) + k / h.rows else k

/-- R4: the lane slice of a head on its bar, and its local number there. -/
def laneSlice (h : Nat) : Nat := h / 8

/-- R4: bar and slice of lane n, and the enabled heads it carries. -/
def State.laneHeads (s : State) (n : Nat) : List Head := (s.headsOf (n / 5)).filter (fun h => h.h / 8 = n % 5)

/-- R127: columns, lines and format of bar b's matrix; log₂ sizes below 4 are used as 4, above 10 as 10. -/
def State.matW (s : State) (b : Nat) : Nat := 2 ^ clampN 4 10 (s.f (F.HTN_CFG_LOG2W b))
def State.matH (s : State) (b : Nat) : Nat := 2 ^ clampN 4 10 (s.f (F.HTN_CFG_LOG2H b))

/-- R128: W × H exceeds the format's capacity. -/
def State.htnBad (s : State) (b : Nat) : Bool :=
  decide ((if s.fb (F.HTN_CFG_FMT b) then 131072 else 32768) < s.matW b * s.matH b)

/-- R130: the target region of bar b, 1 MiB at `NZM_TGT_BASE`, lies beyond CAP. -/
def State.tgtBad (s : State) (b : Nat) : Bool :=
  decide (s.f F.MEM_CAP_MIB < s.f (F.NZM_TGT_BASE_BASE b) + 1)

end Sys2Proof.Machine
end

