-- ==== Sys2Proof/Machine/Layers.lean ====
section
/-! DEFINITION. Layer-store objects and their composition (R87–R108): header checks, placements, opacity maps, the scaler
and blending.  Everything here is a function of object bytes; the bar engine's command is in Raster. -/
namespace Sys2Proof.Machine

/-! ### Headers (R89–R94, R102, R106) -/

/-- The bytes of an object. -/
abbrev OBytes := List Byte

/-- Byte `i` of an object. -/
def byteAt (o : OBytes) (i : Nat) : Nat := (o.getD i 0).toNat

/-- A little-endian signed 32-bit field. -/
def siAt (o : OBytes) (i : Nat) : Int := sgn 32 (leAt o i 4)

/-- Bytes `i … i + n − 1` are zero. -/
def zeroAt (o : OBytes) (i n : Nat) : Bool := ((o.drop i).take n).all (fun b => b == 0)

/-- R91: bits per pixel of a format; 0 for a code that is no format. -/
def fmtBits : Nat → Nat
  | 1 => 8 | 2 => 16 | 3 => 16 | 4 => 32 | 5 => 1 | 6 => 4 | _ => 0

/-- Header fields of a layer-data object (R90). -/
def lFormat (o : OBytes) : Nat := byteAt o 4
def lMap (o : OBytes) : Nat := leAt o 6 2
def lWidth (o : OBytes) : Nat := leAt o 8 4
def lHeight (o : OBytes) : Nat := leAt o 12 4
def lStride (o : OBytes) : Nat := leAt o 16 4
def lLastUse (o : OBytes) : Nat := leAt o 20 6

/-- R90, R92: the check of a layer-data header. -/
def chkLayer (o : OBytes) : Nat :=
  let bpp := fmtBits (lFormat o)
  if bpp = 0 ∨ lWidth o = 0 ∨ 262144 < lWidth o ∨ lHeight o = 0 ∨ 16777216 < lHeight o ∨ lStride o % 64 ≠ 0
      ∨ lStride o < cdiv (lWidth o * bpp) 8 ∨ byteAt o 5 ≠ 0 ∨ !zeroAt o 26 6
      ∨ (lFormat o ≠ 6 ∧ !zeroAt o 32 32) ∨ o.length ≠ 64 + lHeight o * lStride o then 0x11
  else 0

/-- R102: tile counts of an opacity map. -/
def mTx (o : OBytes) : Nat := leAt o 8 4
def mTy (o : OBytes) : Nat := leAt o 12 4

/-- R102, R92: the check of an opacity-map header. -/
def chkMap (o : OBytes) : Nat :=
  if mTx o = 0 ∨ 1024 < mTx o ∨ mTy o = 0 ∨ 262144 < mTy o ∨ !zeroAt o 4 4 ∨ !zeroAt o 16 48
      ∨ o.length ≠ 64 + mTy o * cdiv (mTx o) 4 then 0x11
  else 0

/-- A record of a record set (R94). -/
structure VRec where
  rep : Nat := 0
  bar : Nat := 0
  slot : Nat := 0
  flags : Nat := 0
  obj : Nat := 0
  x : Int := 0
  y : Int := 0
deriving DecidableEq, Repr

def rFirst (o : OBytes) : Nat := leAt o 8 4
def rLast (o : OBytes) : Nat := leAt o 12 4
def rCount (o : OBytes) : Nat := leAt o 16 4

/-- Record `i` of a record set. -/
def recAt (o : OBytes) (i : Nat) : VRec :=
  let p := 64 + 32 * i
  { rep := leAt o p 4, bar := byteAt o (p + 4), slot := byteAt o (p + 5), flags := byteAt o (p + 6), obj := leAt o (p + 8) 2,
    x := siAt o (p + 12), y := siAt o (p + 16) }

/-- Every record of a record set, in order. -/
def recsOf (o : OBytes) : List VRec := (upto (rCount o)).map (recAt o)

/-- Repeats do not fall along the list. -/
def repsRise : List VRec → Bool
  | a :: b :: t => decide (a.rep ≤ b.rep) && repsRise (b :: t)
  | _ => true

/-- R94, R92: the check of a record set beside the record-set ranges already present. -/
def chkRecords (o : OBytes) (present : List (Nat × Nat)) : Nat :=
  let rs := recsOf o
  if !zeroAt o 4 4 ∨ !zeroAt o 20 44 ∨ o.length ≠ 64 + 32 * rCount o then 0x11
  else if rLast o < rFirst o ∨ !repsRise rs
      ∨ rs.any (fun r => r.rep < rFirst o ∨ rLast o < r.rep ∨ 7 < r.bar ∨ 11 < r.slot)
      ∨ present.any (fun p => p.1 ≤ rLast o ∧ rFirst o ≤ p.2) then 0x15
  else if (upto (rCount o)).any (fun i => 2 ≤ byteAt o (64 + 32 * i + 6) ∨ byteAt o (64 + 32 * i + 7) ≠ 0
      ∨ !zeroAt o (64 + 32 * i + 10) 2 ∨ !zeroAt o (64 + 32 * i + 20) 12) then 0x11
  else 0

/-- Descriptor fields (R93). -/
def dRepeat (o : OBytes) : Nat := leAt o 4 4
def dVdReq (o : OBytes) : Bool := byteAt o 8 % 2 == 1
def dAce (o : OBytes) : Nat := leAt o 10 2

/-- A slot entry of the descriptor (R93). -/
structure SlotDef where
  en : Nat := 0
  mode : Nat := 0
  filter : Nat := 0
  tone : Nat := 0
  obj : Nat := 0xFFFF
  paint : Nat := 0
  x : Int := 0
  y : Int := 0
  stepX : Nat := 65536
  stepY : Nat := 65536
deriving DecidableEq, Repr

/-- Slot `s` of bar `b`. -/
def slotDef (o : OBytes) (b s : Nat) : SlotDef :=
  let p := 64 + 512 * b + 64 + 32 * s
  { en := byteAt o p, mode := byteAt o (p + 1), filter := byteAt o (p + 2), tone := byteAt o (p + 3), obj := leAt o (p + 4) 2,
    paint := leAt o (p + 6) 2, x := siAt o (p + 8), y := siAt o (p + 12), stepX := leAt o (p + 16) 4,
    stepY := leAt o (p + 20) 4 }

/-- R93: the ORDER list of a bar. -/
def orderOf (o : OBytes) (b : Nat) : List Nat := (upto 12).map (fun i => byteAt o (64 + 512 * b + 1 + i))

/-- R105: the slots of a bar, bottom first. -/
def blendOrder (o : OBytes) (b : Nat) : List Nat := if byteAt o (64 + 512 * b) = 1 then orderOf o b else upto 12

/-- R99: vertical taps of a filter at a step. -/
def tapsAt (filter step : Nat) : Nat :=
  match filter with
  | 0 => 1
  | 1 => if step ≤ 65536 then 2 else cdiv (2 * step) 65536
  | 2 => if step ≤ 65536 then 4 else cdiv (4 * step) 65536
  | _ => if step ≤ 65536 then 6 else cdiv (6 * step) 65536

/-- R92: the first range error of a descriptor's slot entry. -/
def chkSlot (o : OBytes) (b s : Nat) : Bool :=
  let d := slotDef o b s
  decide (1 < d.en) ||
    (decide (d.en = 1) &&
      (decide (8 ≤ d.mode) || decide (15 < d.tone) || decide (4096 ≤ d.paint)
        || (decide (s < 4) && (decide (3 < d.filter) || decide (d.stepX < 0x1000) || decide (0x20000 < d.stepX)
            || decide (d.stepY < 0x1000) || decide (0x20000 < d.stepY)))))

/-- R92, R93: an enabled slot entry with non-zero reserved bytes. -/
def slotRsvd (o : OBytes) (b s : Nat) : Bool :=
  decide ((slotDef o b s).en = 1) && !zeroAt o (64 + 512 * b + 64 + 32 * s + 24) 8

/-- A list is a permutation of slots 0 to 11. -/
def isPerm (l : List Nat) : Bool := (upto 12).all (fun i => l.contains i)

/-- R101: line-buffer bytes of a bar's enabled image slots, given the widest STRIDE that each slot places. -/
def lineBuf (o : OBytes) (b : Nat) (stride : Nat → Nat) : Nat :=
  ((upto 4).map (fun s => let d := slotDef o b s
    if d.en = 1 then tapsAt d.filter d.stepY * stride s else 0)).foldl (· + ·) 0

/-- R93, R92: the check of a composition descriptor, except the line-buffer limit. -/
def chkDesc (o : OBytes) : Nat :=
  if o.length ≠ 4160 then 0x11
  else if byteAt o 9 ≠ 0 ∨ !zeroAt o 12 52 then 0x11
  else if 16777216 < dRepeat o ∨ (upto 8).any (fun b => 1 < byteAt o (64 + 512 * b)) then 0x12
  else if (upto 8).any (fun b => (upto 12).any (fun s => chkSlot o b s)) then 0x12
  else if (upto 8).any (fun b => !zeroAt o (64 + 512 * b + 13) 51 || (upto 12).any (slotRsvd o b)) then 0x11
  else if (upto 8).any (fun b => byteAt o (64 + 512 * b) = 1 ∧ !isPerm (orderOf o b)) then 0x14
  else 0

/-- Ace header fields (R106). -/
def aMask (o : OBytes) : Nat := byteAt o 6
def aSeal (o : OBytes) : Nat := byteAt o 7
def aX (o : OBytes) : Int := siAt o 20
def aY (o : OBytes) : Int := siAt o 24
def aPaint (o : OBytes) (b : Nat) : Nat := leAt o (32 + 2 * b) 2 % 4096

/-- Check window `w` of an Ace object: column offset, line offset, width, height. -/
def aWindow (o : OBytes) (w : Nat) : Nat × Nat × Nat × Nat :=
  (leAt o (48 + 8 * w) 2, leAt o (50 + 8 * w) 2, leAt o (52 + 8 * w) 2, leAt o (54 + 8 * w) 2)

/-- Planes of an Ace object. -/
def aPlanes (o : OBytes) : Nat := ((upto 8).filter (fun b => bits (aMask o) b 1 = 1)).length

/-- R106, R92: the check of an Ace header. -/
def chkAce (o : OBytes) : Nat :=
  if byteAt o 4 ≠ 5 ∨ byteAt o 5 ≠ 0 ∨ aMask o = 0 ∨ 15 < aSeal o ∨ lWidth o = 0 ∨ 262144 < lWidth o ∨ lHeight o = 0
      ∨ 16777216 < lHeight o ∨ lStride o % 64 ≠ 0 ∨ lStride o < cdiv (lWidth o) 8 ∨ !zeroAt o 28 4
      ∨ ((aWindow o 0).2.2.1 = 0 ∧ (aWindow o 1).2.2.1 = 0)
      ∨ o.length ≠ 64 + aPlanes o * lHeight o * lStride o then 0x11
  else 0

/-- R89: the CLASS field. -/
def oClass (o : OBytes) : Nat := leAt o 2 2

/-- R89, R92: the header check of an object under its number, beside the record-set ranges already present; 0: passed. -/
def chkHeader (num : Nat) (o : OBytes) (present : List (Nat × Nat)) : Nat :=
  let c := oClass o
  if leAt o 0 2 ≠ 0xA55A ∨ (c ≠ 1 ∧ c ≠ 2 ∧ c ≠ 3 ∧ c ≠ 4 ∧ c ≠ 16) then 0x10
  else if (c = 4 ∧ num ≠ 0) ∨ (num = 0 ∧ c ≠ 4) then 0x16
  else if c = 1 then chkLayer o
  else if c = 2 then chkMap o
  else if c = 3 then chkRecords o present
  else if c = 4 then chkDesc o
  else chkAce o

/-! ### Objects of a job -/

/-- The object of a number, usable and not freed. -/
def Job.usable (j : Job) (n : Nat) : Option Obj := j.objs.find? (fun o => o.num = n ∧ o.st = 2 ∧ !o.freed)

/-- The object entry of a number, freed ones included. -/
def Job.entry (j : Job) (n : Nat) : Option Obj := j.objs.find? (fun o => o.num = n)

/-- The record sets usable in a job, in the order of their first repeat. -/
def Job.recSets (j : Job) : List Obj := j.objs.filter (fun o => o.st = 2 ∧ !o.freed ∧ o.cls = 3)

/-- R88: formats a slot accepts. -/
def slotTakes (s fmt : Nat) : Bool :=
  if s < 4 then decide (1 ≤ fmt ∧ fmt ≤ 4) else if s < 12 then decide (fmt = 1 ∨ fmt = 3 ∨ fmt = 5 ∨ fmt = 6) else decide (fmt = 5)

/-- R97: the tile counts of a map fit its layer. -/
def mapFits (layer map : OBytes) : Bool :=
  decide (mTx map = cdiv (lWidth layer) 256) && decide (mTy map = cdiv (lHeight layer) 64)

/-- R97: the map a layer-data object names is usable, of its class, and fits. -/
def Job.mapOk (j : Job) (o : OBytes) : Bool :=
  decide (lMap o = 0xFFFF) ||
    match j.usable (lMap o) with
    | some m => decide (m.cls = 2) && mapFits o m.bytes
    | none => false

/-- R97: object `n` may be placed in slot `s`. -/
def Job.refOk (j : Job) (s n : Nat) : Bool :=
  match j.usable n with
  | none => false
  | some o => decide (o.cls = 1) && slotTakes s (lFormat o.bytes) && j.mapOk o.bytes

/-- R97: repeat `k` is covered by a usable record set. -/
def Job.covered (j : Job) (k : Nat) : Bool := j.recSets.any (fun o => rFirst o.bytes ≤ k ∧ k ≤ rLast o.bytes)

/-- R97: every reference of a staged job holds, and with VD_REQ every repeat is covered. -/
def Job.refsOk (j : Job) (lines : Nat) : Bool :=
  match j.usable 0 with
  | none => false
  | some d =>
    (upto 8).all (fun b => (upto 12).all (fun s => let e := slotDef d.bytes b s
      e.en ≠ 1 || e.obj = 0xFFFF || j.refOk s e.obj))
    && j.recSets.all (fun o => (recsOf o.bytes).all (fun r => r.flags % 2 = 1 || j.refOk r.slot r.obj))
    && j.objs.all (fun o => decide (o.st ≠ 2) || o.freed || decide (o.cls ≠ 1) || j.mapOk o.bytes)
    && (decide (dAce d.bytes = 0xFFFF) ||
        match j.usable (dAce d.bytes) with | some a => decide (a.cls = 16) | none => false)
    && (!dVdReq d.bytes ||
        (if dRepeat d.bytes = 0 then j.covered 0
         else (upto (cdiv lines (dRepeat d.bytes))).all (fun k => j.covered k)))

/-- R101: the widest STRIDE of the objects that slot `s` of bar `b` places, among those usable. -/
def Job.widest (j : Job) (d : OBytes) (b s : Nat) : Nat :=
  let objs := (slotDef d b s).obj ::
    (j.recSets.flatMap (fun o => (recsOf o.bytes).filter (fun r => r.bar = b ∧ r.slot = s ∧ r.flags % 2 = 0))).map (·.obj)
  (objs.map (fun n => match j.usable n with | some o => lStride o.bytes | none => 0)).foldl max 0

/-- R101, error 0x13: some bar's enabled image slots need more than 1,048,576 B of line buffers. -/
def Job.bufBad (j : Job) (d : OBytes) : Bool :=
  (upto 8).any (fun b => 1048576 < lineBuf d b (j.widest d b))

/-! ### Pixels (R91, R102) -/

/-- R102: the tile code of a map at a pixel. -/
def tileCode (m : OBytes) (x y : Nat) : Nat :=
  bits (byteAt m (64 + y / 64 * cdiv (mTx m) 4 + x / 256 / 4)) (2 * (x / 256 % 4)) 2

/-- R91: the value and alpha of a pixel as its format holds them; `paint` is what M1 pixels paint. -/
def rawPixel (o : OBytes) (paint x y : Nat) : Nat × Nat :=
  let row := 64 + y * lStride o
  match lFormat o with
  | 1 => (byteAt o (row + x), 255)
  | 2 => (leAt o (row + 2 * x) 2, 255)
  | 3 => (byteAt o (row + 2 * x), byteAt o (row + 2 * x + 1))
  | 4 => (leAt o (row + 4 * x) 2, byteAt o (row + 4 * x + 3))
  | 5 => if bits (byteAt o (row + x / 8)) (7 - x % 8) 1 = 1 then (paint, 255) else (0, 0)
  | 6 =>
    let nib := if x % 2 = 0 then byteAt o (row + x / 2) / 16 else byteAt o (row + x / 2) % 16
    let e := leAt o (32 + 2 * nib) 2
    (e % 4096, e / 4096 * 17)
  | _ => (0, 0)

/-- R102: a pixel with its map in force: EMPTY tiles have alpha 0, OPAQUE tiles alpha 255. -/
def pixel (o : OBytes) (map : Option OBytes) (paint x y : Nat) : Nat × Nat :=
  let p := rawPixel o paint x y
  match map with
  | none => p
  | some m =>
    match tileCode m x y with
    | 0 => (p.1, 0)
    | 2 => (p.1, 255)
    | _ => p

/-! ### Scaler (R99, R100) -/

/-- R99: the source position of output offset `u` at `step`, in 16.16. -/
def srcPos (u : Nat) (step : Nat) : Int := (u : Int) * step + ((step : Int) - 65536) / 2

/-- π × 2⁸⁰, rounded down. -/
def piFix : Nat := 3797952473636338580787993

/-- Taylor terms of sine: `k` more terms, the last term `t` (2⁸⁰ scale), `n` the index of the next factor. -/
def sinTerms : Nat → Int → Int → Nat → Int
  | 0, _, _, _ => 0
  | k + 1, x2, t, n => t + sinTerms k x2 (-(t * x2) / ((2 : Int) ^ 80 * ((n : Int) + 1) * (n + 2))) (n + 2)

/-- sin(π p/q) in 2⁸⁰ units, for |p/q| reduced to at most 1/2 by the half-turn symmetries. -/
def sinPi (p : Int) (q : Nat) : Int :=
  let r := p % (2 * q)
  let (r, sg) : Int × Int := if r ≤ q then (r, 1) else (r - q, -1)
  let r := if 2 * r ≤ q then r else q - r
  let x := r * (piFix : Int) / q
  sg * sinTerms 24 (x * x / (2 : Int) ^ 80) x 1

/-- R99: the raw weight of a tap at distance p/q, up to a factor common to every tap of the footprint. -/
def rawWeight (filter : Nat) (p : Int) (q : Nat) : Int :=
  let a : Int := p.natAbs
  let d : Int := q
  match filter with
  | 1 => if a < d then d - a else 0
  | 2 =>
    if a ≤ d then 3 * a ^ 3 - 5 * a ^ 2 * d + 2 * d ^ 3
    else if a < 2 * d then -(a ^ 3) + 5 * a ^ 2 * d - 8 * a * d ^ 2 + 4 * d ^ 3
    else 0
  | _ =>
    if p = 0 then (piFix : Int) * piFix
    else if a < 3 * d then 3 * (sinPi p q) * (sinPi p (3 * q)) * (d * d) / (a * a)
    else 0

/-- R99: the taps of a footprint at a phase and step, as offsets from the base pixel. -/
def tapList (filter step phase : Nat) : List Int :=
  let n : Nat := match filter with | 1 => 2 | 2 => 4 | _ => 6
  let st := max 65536 step
  ((List.range 29).map (fun (i : Nat) => (i : Int) - 14)).filter (fun i => decide ((64 * i - phase).natAbs * 2048 < n * st))

/-- The index of the first largest magnitude. -/
def argMaxAbs : List Int → Nat → Nat → Nat → Nat
  | [], _, best, _ => best
  | c :: t, i, best, m => if m < c.natAbs then argMaxAbs t (i + 1) i c.natAbs else argMaxAbs t (i + 1) best m

/-- R99: the coefficients of a footprint, offset and coefficient. -/
def coefs (filter step phase : Nat) : List (Int × Int) :=
  if filter = 0 then [(0, 512)]
  else
    let taps := tapList filter step phase
    let ws := taps.map (fun i =>
      if step ≤ 65536 then rawWeight filter (64 * i - phase) 64 else rawWeight filter ((64 * i - phase) * 1024) step)
    let sum := ws.foldl (· + ·) 0
    let cs := ws.map (fun w => rdivI (512 * w) sum.toNat)
    let diff := 512 - cs.foldl (· + ·) 0
    let k := argMaxAbs cs 0 0 0
    taps.zip (cs.set k (cs.getD k 0 + diff))

/-- An integer held between 0 and `n − 1`. -/
def edge (i : Int) (n : Nat) : Nat := (clampI 0 ((n : Int) - 1) i).toNat

/-- R99: the source pixels of one axis, of `n`, that output offset `u` takes. -/
def footprint (filter step n u : Nat) : List Nat :=
  let p := srcPos u step
  (if filter = 0 then [0] else tapList filter step ((p % 65536).toNat / 1024)).map (fun i => edge (p / 65536 + i) n)

/-- The output offsets below `ext` whose footprint takes source pixel `i`; a footprint reaches at most 15 pixels. -/
def takers (filter step n ext i : Nat) : List Nat :=
  ((upto (cdiv (31 * 65536) step + 2)).map ((i - 15) * 65536 / step + ·)).filter (fun u =>
    decide (u < ext) && (footprint filter step n u).contains i)

/-- R100: the value and alpha the scaler gives for output offset (u, v) of an object, before tone mapping. -/
def scaled (o : OBytes) (map : Option OBytes) (d : SlotDef) (u v : Nat) : Nat × Nat :=
  let px := srcPos u d.stepX
  let py := srcPos v d.stepY
  let bx := px / 65536
  let by_ := py / 65536
  let fx := (px % 65536).toNat / 1024
  let fy := (py % 65536).toNat / 1024
  let cx := coefs d.filter d.stepX fx
  let cy := coefs d.filter d.stepY fy
  let sums := cy.foldl (fun acc yc => cx.foldl (fun (acc : Int × Int) xc =>
      let p := pixel o map d.paint (edge (bx + xc.1) (lWidth o)) (edge (by_ + yc.1) (lHeight o))
      (acc.1 + xc.2 * yc.2 * (p.2 : Int), acc.2 + xc.2 * yc.2 * ((p.1 * p.2 : Nat) : Int))) acc) ((0 : Int), (0 : Int))
  let al := clampI 0 255 ((sums.1 + 131072) / 262144)
  let wv := max 0 ((sums.2 + 131072) / 262144)
  let top : Nat := if lFormat o = 2 ∨ lFormat o = 4 then 65535 else 255
  if al = 0 then (0, 0) else (min top (rdivI wv al.toNat).toNat, al.toNat)

/-- R99: the output extent of an object in a slot: columns and lines. -/
def extent (s : Nat) (o : OBytes) (d : SlotDef) : Nat × Nat :=
  if s < 4 then (cdiv (lWidth o * 65536) d.stepX, cdiv (lHeight o * 65536) d.stepY) else (lWidth o, lHeight o)

/-- Value and alpha of a placed object at output offset (u, v), before tone mapping. -/
def sample (s : Nat) (o : OBytes) (map : Option OBytes) (d : SlotDef) (u v : Nat) : Nat × Nat :=
  if s < 4 then scaled o map d u v else pixel o map d.paint u v

/-! ### Placements (R95) -/

/-- A placement in a slot: first job line, left edge, object, from a record, EMPTY. -/
structure Placement where
  first : Int := 0
  x : Int := 0
  obj : Nat := 0xFFFF
  fromRec : Bool := false
  empty : Bool := false
deriving DecidableEq, Repr

/-- The lines a placement covers end before this line; none: no end (EMPTY, or an object that has never arrived). -/
def Job.placeEnd (j : Job) (s : Nat) (d : SlotDef) (p : Placement) : Option Int :=
  if p.empty then none
  else match j.entry p.obj with
    | some o => if o.st = 2 then some (p.first + (extent s o.bytes d).2) else none
    | none => none

/-- A placement covers job line `l`. -/
def Job.covers (j : Job) (s : Nat) (d : SlotDef) (l : Nat) (p : Placement) : Bool :=
  decide (p.first ≤ l) && (match j.placeEnd s d p with | some e => decide ((l : Int) < e) | none => true)

/-- R95: the default placement that may cover job line `l`: the latest start at or before it. -/
def defaultPlace (d : SlotDef) (rep l : Nat) : List Placement :=
  if d.obj = 0xFFFF then []
  else if bits d.mode 2 1 = 1 ∧ rep ≠ 0 then
    let k := ((l : Int) - d.y) / rep
    if k < 0 then [] else [{ first := k * rep + d.y, x := d.x, obj := d.obj }]
  else [{ first := d.y, x := d.x, obj := d.obj }]

/-- R95: the record placements of slot `s` on bar `b`, in record-set order. -/
def Job.recPlaces (j : Job) (b s rep : Nat) : List Placement :=
  ((j.recSets.flatMap (fun o => recsOf o.bytes)).filter (fun r => r.bar = b ∧ r.slot = s)).map (fun r =>
    { first := (r.rep * rep : Nat) + r.y, x := r.x, obj := r.obj, fromRec := true, empty := r.flags % 2 = 1 })

/-- R95: of two placements that cover the line, the later first line wins; on equal lines the later in the list. -/
def laterPlace (a : Option Placement) (p : Placement) : Option Placement :=
  match a with
  | none => some p
  | some q => if q.first ≤ p.first then some p else some q

/-- R95: clipped to the `cols` columns of the bar and to the job, the placement's object covers something; an object that has
not arrived may, and EMPTY does. -/
def Job.onPress (j : Job) (s : Nat) (d : SlotDef) (cols : Nat) (p : Placement) : Bool :=
  p.empty || match j.entry p.obj with
    | some o => decide (o.st ≠ 2) ||
        (decide (p.x < cols) && decide (0 < p.x + (extent s o.bytes d).1) && decide (0 < p.first + (extent s o.bytes d).2))
    | none => true

/-- R95, R111: the placement in force in slot `s` of bar `b` on job line `l`.  The latest start takes the slot from its first
line on; the rest of an earlier object is not shown, even where the later object has ended. -/
def Job.inForce (j : Job) (d : OBytes) (cols b s l : Nat) : Option Placement :=
  let e := slotDef d b s
  if e.en ≠ 1 then none
  else
    let ps := defaultPlace e (dRepeat d) l ++ j.recPlaces b s (dRepeat d)
    match (ps.filter (fun p => decide (p.first ≤ (l : Int)) && j.onPress s e cols p)).foldl laterPlace none with
    | some p => if j.covers s e l p then some p else none
    | none => none

/-- R94: the repeat of a job line. -/
def repeatOf (d : OBytes) (l : Nat) : Nat := if dRepeat d = 0 then 0 else l / dRepeat d

/-! ### Blending (R104, R105, R108) -/

/-- R104: value `s` with alpha `a` blended onto `d`. -/
def blend (mode d s a : Nat) : Nat :=
  match mode % 4 with
  | 0 => (a * s + (255 - a) * d + 127) / 255
  | 1 => min 4095 (d + (a * s + 127) / 255)
  | 2 => max d ((a * s + 127) / 255)
  | _ => ((255 - a) * d + 127) / 255

/-- The map in force of a layer object: one whose tile counts fit. -/
def Job.mapOf (j : Job) (o : OBytes) : Option OBytes :=
  if lMap o = 0xFFFF then none
  else match j.usable (lMap o) with
    | some m => if m.cls = 2 ∧ mapFits o m.bytes then some m.bytes else none
    | none => none

/-- The placement slot `s` shows on job line `l`, with its object's bytes: in force, not EMPTY, usable, of the right format. -/
def Job.shown (j : Job) (d : OBytes) (cols b s l : Nat) : Option (Placement × OBytes) :=
  match j.inForce d cols b s l with
  | none => none
  | some p =>
    if p.empty then none
    else match j.usable p.obj with
      | none => none
      | some o => if o.cls == 1 && slotTakes s (lFormat o.bytes) then some (p, o.bytes) else none

/-- What slot `s` contributes to column `c` of job line `l`: value before tone mapping, format and alpha; none where the slot
shows nothing. -/
def Job.slotAt (j : Job) (d : OBytes) (cols b s l c : Nat) : Option (Nat × Nat × Nat) :=
  match j.shown d cols b s l with
  | none => none
  | some (p, o) =>
    let e := slotDef d b s
    let ext := extent s o e
    let u := (c : Int) - p.x
    let v := (l : Int) - p.first
    if 0 ≤ u ∧ u < ext.1 ∧ 0 ≤ v ∧ v < ext.2 then
      let r := sample s o (j.mapOf o) e u.toNat v.toNat
      some (r.1, lFormat o, r.2)
    else none

/-- R106: the plane number of bar `b` in an Ace object. -/
def acePlane (o : OBytes) (b : Nat) : Nat := ((upto b).filter (fun i => bits (aMask o) i 1 = 1)).length

/-- R108: the Ace layer over column `c` of job line `l` on bar `b`, the repeat starting at job line `start`. -/
def aceOver (o : OBytes) (b c : Nat) (line start : Int) (d : Nat) : Nat :=
  if bits (aMask o) b 1 = 0 then d
  else
    let u := (c : Int) - aX o
    let v := line - start - aY o
    if 0 ≤ u ∧ u < lWidth o ∧ 0 ≤ v ∧ v < lHeight o then
      let at_ := 64 + (acePlane o b * lHeight o + v.toNat) * lStride o + u.toNat / 8
      if bits (byteAt o at_) (7 - u.toNat % 8) 1 = 1 then aPaint o b else d
    else d

/-- R106, R108: the repeat starts of the Ace placements that cover job line `l`. -/
def aceStarts (o : OBytes) (rep l : Nat) : List Int :=
  if rep = 0 then (if aY o ≤ l ∧ (l : Int) < aY o + lHeight o then [0] else [])
  else
    let lo := max 0 (((l : Int) - aY o - lHeight o) / rep + 1)
    let hi := ((l : Int) - aY o) / rep
    (upto (hi + 1 - lo).toNat).map (fun (i : Nat) => (lo + i) * rep)

/-- R87, R104–R108: the composed 12-bit value of column `c`; `tone` maps a value of a format through a tone curve. -/
def Job.composeAt (j : Job) (d : OBytes) (ace : Option OBytes) (tone : Nat → Nat → Nat → Nat) (cols b l c : Nat) : Nat :=
  let base := (blendOrder d b).foldl (fun acc s =>
    match j.slotAt d cols b s l c with
    | none => acc
    | some (v, fmt, a) =>
      let e := slotDef d b s
      let v12 := if fmt = 5 ∨ fmt = 6 then v else tone e.tone fmt v
      blend e.mode acc v12 a) 0
  match ace with
  | none => base
  | some o => (aceStarts o (dRepeat d) l).foldl (fun acc st => aceOver o b c l st acc) base

/-! ### Fetched and skipped bytes (R102, R103, R110) -/

/-- R102: a pixel lies in an OPAQUE tile; an object without a map is all OPAQUE if its format has no alpha. -/
def opaqueAt (o : OBytes) (map : Option OBytes) (x y : Nat) : Bool :=
  match map with
  | some m => tileCode m x y == 2
  | none => lFormat o == 1 || lFormat o == 2

/-- The source columns, and the source lines, that an output offset of a slot takes. -/
def footX (s : Nat) (o : OBytes) (e : SlotDef) (u : Nat) : List Nat := if s < 4 then footprint e.filter e.stepX (lWidth o) u else [u]
def footY (s : Nat) (o : OBytes) (e : SlotDef) (v : Nat) : List Nat := if s < 4 then footprint e.filter e.stepY (lHeight o) v else [v]

/-- R103: column `c` of job line `l` is covered by slot `s`. -/
def Job.coveredBy (j : Job) (d : OBytes) (cols b s l c : Nat) : Bool :=
  match j.shown d cols b s l with
  | none => false
  | some (p, o) =>
    let e := slotDef d b s
    let ext := extent s o e
    let u := (c : Int) - p.x
    let v := (l : Int) - p.first
    decide (e.mode % 4 = 0 ∨ e.mode % 4 = 3) && decide (0 ≤ u ∧ u < ext.1 ∧ 0 ≤ v ∧ v < ext.2) &&
      (footY s o e v.toNat).all (fun y => (footX s o e u.toNat).all (fun x => opaqueAt o (j.mapOf o) x y))

/-- The slots blended above slot `s`. -/
def slotsAbove (d : OBytes) (b s : Nat) : List Nat := ((blendOrder d b).dropWhile (· ≠ s)).drop 1

/-- R103, R110: the pixels that slot `s` fetches, and those it does not (EMPTY, or in a unit that serves only covered columns, with
`skip`), of the source line of job line `l`. -/
def Job.slotPixels (j : Job) (d : OBytes) (cols b s l : Nat) (skip : Bool) (p : Placement) (o : OBytes) : Nat × Nat :=
  let e := slotDef d b s
  let ext := extent s o e
  let v := ((l : Int) - p.first).toNat
  let y := if s < 4 then edge (srcPos v e.stepY / 65536) (lHeight o) else v
  let outs := fun (x : Nat) => (if s < 4 then takers e.filter e.stepX (lWidth o) ext.1 x else [x]).filterMap (fun (u : Nat) =>
    let c := p.x + u
    if 0 ≤ c ∧ c < cols then some c.toNat else none)
  let lines := (if s < 4 then takers e.filter e.stepY (lHeight o) ext.2 y else [y]).filterMap (fun (v : Nat) =>
    let k := p.first + v
    if decide (0 ≤ k) && (match j.lines with | some n => decide (k < n) | none => true) then some k.toNat else none)
  let per := 512 / fmtBits (lFormat o)
  let ups := slotsAbove d b s
  (upto (cdiv (lWidth o) per)).foldl (fun acc k =>
    let xs := ((upto per).map (k * per + ·)).filter (fun x => decide (x < lWidth o) && !(outs x).isEmpty)
    let full := xs.filter (fun x => match j.mapOf o with | some m => tileCode m x y ≠ 0 | none => true)
    let hidden := skip && lines.all (fun l' => xs.all (fun x => (outs x).all (fun c => ups.any (fun t => j.coveredBy d cols b t l' c))))
    if hidden then (acc.1, acc.2 + xs.length) else (acc.1 + full.length, acc.2 + (xs.length - full.length))) (0, 0)

/-- R110: a slot's bytes of a number of pixels, an image slot's as the average over lines. -/
def slotBytes (s : Nat) (o : OBytes) (e : SlotDef) (n : Nat) : Nat :=
  let b := n * fmtBits (lFormat o) / 8
  if s < 4 then b * e.stepY / 65536 else b

/-- R110: the Ace layer's bytes on a line: its clipped width in bits, once per placement that covers the line. -/
def aceBytes (ace : Option OBytes) (d : OBytes) (cols b l : Nat) : Nat :=
  match ace with
  | none => 0
  | some o =>
    if bits (aMask o) b 1 = 0 then 0
    else (aceStarts o (dRepeat d) l).length * cdiv (min (cols : Int) (aX o + lWidth o) - max 0 (aX o)).toNat 8

/-- R103, R110: F of a line, and the bytes not fetched. -/
def Job.fetchOf (j : Job) (d : OBytes) (ace : Option OBytes) (cols b l : Nat) (skip : Bool) : Nat × Nat :=
  (upto 12).foldl (fun acc s =>
    match j.shown d cols b s l with
    | none => acc
    | some (p, o) =>
      let r := j.slotPixels d cols b s l skip p o
      (acc.1 + slotBytes s o (slotDef d b s) r.1, acc.2 + slotBytes s o (slotDef d b s) r.2)) (aceBytes ace d cols b l, 0)

end Sys2Proof.Machine
end

