-- ==== Sys2Proof/Machine/Mot.lean ====
section
/-! DEFINITION. The motion generator, the web axis, the choppers' currents and the sequences (R245–R262); what the modes do
with them is in Seat. -/
namespace Sys2Proof.Machine

/-! ### Units and settings -/

/-- Velocity units in one step/s, and position units in one step (see `Axis`). -/
def velUnit : Int := 256000000
def posUnit : Int := 256000000000000

/-- Scoreboard index of axis a (R318). -/
def axisBoard (a : Nat) : Nat := 72 + a

/-- The channel of scoreboard j is retired. -/
def State.retired (s : State) (j : Nat) : Bool := (vgetD s.flt.boards j {}).retired

/-- VMAX, ACC and DEC of an axis; 0 is used as 1 (R248). -/
def State.vmax (s : State) (a : Nat) : Nat := max 1 (s.f (F.MOT_VMAX_VALUE a))
def State.acc (s : State) (a : Nat) : Nat := max 1 (s.f (F.MOT_ACC_VALUE a))
def State.dec (s : State) (a : Nat) : Nat := max 1 (s.f (F.MOT_DEC_VALUE a))

/-- A segment of axis a's table (R249). -/
structure SegDef where
  dur : Nat
  fin : Bool
  sync : Bool
  delta : Int
  vend : Int
deriving DecidableEq, Repr

/-- Segment n of a table window. -/
def segAt (m : RegMap) (n : Nat) : SegDef :=
  let w0 := (rget m (4 * n)).toNat
  { dur := bits w0 0 24, fin := bits w0 24 1 == 1, sync := bits w0 25 1 == 1,
    delta := sgn 32 (rget m (4 * n + 1)).toNat, vend := sgn 32 (rget m (4 * n + 2)).toNat }

/-- R250: the segments from `n` on, at most `k`, up to the first END, pass the check against VMAX. -/
def segsOk (m : RegMap) (vmax : Nat) : Nat → Nat → Bool
  | 0, _ => false
  | k + 1, n =>
    let g := segAt m n
    decide (g.dur ≠ 0) && decide (g.vend.natAbs ≤ vmax) &&
      (if g.fin then decide (g.vend = 0) else segsOk m vmax k (n + 1))

/-- R250: COUNT as used, and never past segment 1,023. -/
def segCount (first count : Nat) : Nat :=
  let c := if count = 0 ∨ 1024 < count then 1024 else count
  min c (1024 - first)

/-- R250: the check of a run from `first` over `count` segments. -/
def State.segCheck (s : State) (a : Fin 16) (first count : Nat) : Bool :=
  segsOk s.mot.seg[a] (s.vmax a.val) (segCount first count) first

/-- An axis at rest with no run or move in progress (MOVING = 0). -/
def Axis.still (x : Axis) : Bool := decide (x.vel = 0) && x.run == .none

/-! ### One tick of an axis (R246–R252) -/

/-- What a tick of an axis uses. -/
structure TickIn where
  mode : Nat := 0
  vmax : Nat := 1
  acc : Nat := 1
  dec : Nat := 1
  /-- Velocity target of mode 2, in velocity units. -/
  goal : Int := 0
  /-- Velocity the web axis or follow mode imposes. -/
  drive : Int := 0
  seg : RegMap := []
  /-- Every axis of the running sequence has reached a SYNC or END segment. -/
  release : Bool := false
deriving Repr

/-- What a tick reports: ACC_CLAMP, SEG_ERR, END reached. -/
structure TickOut where
  clamp : Bool := false
  segErr : Bool := false
  ended : Bool := false
deriving DecidableEq, Repr

/-- Acceleration and deceleration per tick, in velocity units. -/
def perTick (a : Nat) : Int := (a : Int) * 256

/-- R247, row 1: the deceleration per tick needed to stop within d. -/
def needed (v d : Int) : Int := if d ≤ 0 then v else (v * v + 2 * d - 1) / (2 * d)

/-- R247: speed after a tick along the direction of travel, from speed v with d to go; RAMP; ACC_CLAMP. -/
def moveSpeed (i : TickIn) (ramp : Bool) (v d : Int) : Int × Bool × Bool :=
  let dd := perTick i.dec
  let vm := (i.vmax : Int) * velUnit
  if 2 * d * dd < v * v then (max 0 (v - needed v d), ramp, true)
  else if 2 * dd * d ≤ v * v + 2 * dd * v then (max 0 (v - dd), true, false)
  else if vm < v then (max vm (v - dd), ramp, false)
  else if ramp then (v, ramp, false)
  else if v < vm then
    (max v (min (min vm (v + perTick i.acc)) ((isqrt (dd * dd + 2 * dd * d).toNat : Int) - dd)), ramp, false)
  else (v, ramp, false)

/-- R247: a tick of a position move. -/
def moveTick (i : TickIn) (x : Axis) : Axis × TickOut :=
  let gap := x.target - x.pos
  let sg : Int := if gap < 0 then -1 else 1
  let d : Int := gap.natAbs
  let r := moveSpeed i x.ramp (max 0 (sg * x.vel)) d
  let v := min r.1 d
  let left := d - v
  if r.1 = 0 ∧ left < posUnit then
    ({ x with pos := x.target, vel := 0, run := .none, ramp := false, atTarget := true, accel := decide (x.vel ≠ 0) },
     { clamp := r.2.2 })
  else
    ({ x with pos := x.pos + sg * v, vel := sg * v, ramp := r.2.1, accel := decide (sg * v ≠ x.vel) }, { clamp := r.2.2 })

/-- R246: a position is a signed 48-bit count of steps: one that leaves it wraps, with what is reckoned from it. -/
def Axis.wrap (x : Axis) : Axis :=
  let k : Int := if x.pos / posUnit ≥ 2 ^ 47 then -(2 ^ 48) else if x.pos / posUnit < -(2 ^ 47) then 2 ^ 48 else 0
  if k = 0 then x
  else { x with
    pos := x.pos + k * posUnit
    stepPos := x.stepPos + k
    run := match x.run with
      | .seg n t p0 v0 => .seg n t (p0 + k * posUnit) v0
      | .stop (some g) => .stop (some (g + k * posUnit))
      | r => r }

/-- Velocity moved towards a goal, at `up` while its magnitude rises and at `down` while it falls (R246). -/
def velTo (up down v goal : Int) : Int :=
  if 0 ≤ v ∧ 0 ≤ goal then (if v < goal then min goal (v + up) else max goal (v - down))
  else if v ≤ 0 ∧ goal ≤ 0 then (if goal < v then max goal (v - up) else min goal (v + down))
  else if 0 < v then max 0 (v - down)
  else min 0 (v + down)

/-- R248, R260: a tick of an axis that stops at DEC; after a position move the first row of R247 applies. -/
def stopTick (i : TickIn) (tgt : Option Int) (x : Axis) : Axis × TickOut :=
  let v0 : Int := x.vel.natAbs
  let sg : Int := if x.vel < 0 then -1 else 1
  let dd := perTick i.dec
  let hard : Bool := match tgt with
    | some t => decide (0 < sg * (t - x.pos)) && decide (2 * (sg * (t - x.pos)) * dd < v0 * v0)
    | none => false
  let dv := if hard then needed v0 (sg * ((tgt.getD x.pos) - x.pos)) else dd
  let v := max 0 (v0 - dv)
  ({ x with
    pos := x.pos + sg * v
    vel := sg * v
    run := if v = 0 then .none else x.run
    ramp := false
    accel := decide (v ≠ v0) }, { clamp := hard })

/-- R250: position and velocity at time t of a segment of duration T, from p0 and v0. -/
def cubic (p0 v0 delta v1 : Int) (dur t : Nat) : Int × Int :=
  let T : Int := dur
  let u : Int := t
  let a := 3 * delta - (2 * v0 + v1) * T
  let b := (v0 + v1) * T - 2 * delta
  (p0 + v0 * u + (a * u * u) / (T * T) + (b * u * u * u) / (T * T * T),
   v0 + (2 * a * u) / (T * T) + (3 * b * u * u) / (T * T * T))

/-- R250: a tick of a segment run. -/
def segTick (i : TickIn) (n t : Nat) (p0 v0 : Int) (x : Axis) : Axis × TickOut :=
  let g := segAt i.seg n
  let delta := g.delta * posUnit
  let v1 := g.vend * velUnit
  if t + 1 < g.dur then
    let r := cubic p0 v0 delta v1 g.dur (t + 1)
    ({ x with pos := r.1, vel := r.2, run := .seg n (t + 1) p0 v0, accel := decide (r.2 ≠ x.vel) }, {})
  else if g.fin then
    ({ x with pos := p0 + delta, vel := 0, run := .none, accel := decide (x.vel ≠ 0) }, { ended := true })
  else if g.sync then
    ({ x with pos := p0 + delta, vel := 0, run := .sync n, accel := decide (x.vel ≠ 0) }, { segErr := decide (g.vend ≠ 0) })
  else
    ({ x with pos := p0 + delta, vel := v1, run := .seg (n + 1) 0 (p0 + delta) v1, accel := decide (v1 ≠ x.vel) }, {})

/-- R246: a tick of an axis that no move, run or stop controls. -/
def freeTick (i : TickIn) (x : Axis) : Axis × TickOut :=
  let v := match i.mode with
    | 2 => velTo (perTick i.acc) (perTick i.dec) x.vel i.goal
    | 4 => i.drive
    | _ => 0
  ({ x with pos := x.pos + v, vel := v, accel := decide (v ≠ x.vel) }, {})

/-- R246: one tick of the generator on an axis. -/
def axisTick (i : TickIn) (x : Axis) : Axis × TickOut :=
  match x.run with
  | .none => freeTick i x
  | .move => moveTick i x
  | .stop t => stopTick i t x
  | .seg n t p0 v0 => segTick i n t p0 v0 x
  | .sync n =>
    if i.release then ({ x with run := .seg (n + 1) 0 x.pos 0, accel := false }, {}) else ({ x with vel := 0, accel := false }, {})

/-- R251: the 5 ns cycle of a tick from position p0 to p1 in which the straight line between them crosses `edge`; an edge crossed
in an earlier tick counts as crossed at its start. -/
def crossCycle (p0 p1 edge : Int) : Nat :=
  if p0 = p1 then 0 else (min 199 (max 0 ((edge - p0) * 200 / (p1 - p0)))).toNat

/-- R251: the STEP pulses of a tick, at most `fuel`, from emitted position n towards the integer part of p1: each at the cycle
of its crossing, and not before `free`, with 2 × STEP_W cycles from one to the next; the position they make and the next `free`. -/
def stepPulses (w : Nat) (p0 p1 : Int) : Nat → Int → Nat → List Nat × Int × Nat
  | 0, n, free => ([], n, free)
  | fuel + 1, n, free =>
    let g := p1 / posUnit
    if n = g then ([], n, free)
    else
      let edge := if n < g then (n + 1) * posUnit else n * posUnit
      let c := max free (crossCycle p0 p1 edge)
      if 200 ≤ c then ([], n, free)
      else
        let r := stepPulses w p0 p1 fuel (if n < g then n + 1 else n - 1) (c + 2 * w)
        (c :: r.1, r.2)

/-- R251: the STEP pulses and DIR of a tick that began at position p0; DIR changes when the last pulse is over, 2 × STEP_W cycles
before the first pulse of the new direction.  Second: the velocity is above the highest step rate. -/
def stepTick (w : Nat) (p0 : Int) (x : Axis) : Axis × Bool :=
  let due := x.pos / posUnit - x.stepPos
  let dir := if due = 0 then x.dir else decide (due < 0)
  let r := stepPulses w p0 x.pos 20 x.stepPos (x.stepFree + (if dir = x.dir then 0 else 2 * w))
  ({ x with stepPos := r.2.1, dir := dir, stepFree := r.2.2 - 200, pulses := r.1 },
   decide (velUnit * 100000000 < (x.vel.natAbs : Int) * w))

/-- R24: STEP and DIR pads follow the generator; in the safe state they are idle. -/
def State.stepsOn (s : State) : Bool := s.tbl.holder && (s.inMode .ready || s.inMode .print || s.inMode .service)

/-- R19, R24, R288: the pads are high impedance: the seat drives nothing and no pad hold runs. -/
def State.padsOff (s : State) : Bool := !s.tbl.holder || s.inMode .boot || s.inMode .standby

/-- DIR as the pad of an axis 12 to 15 carries it, DIR_INV applied (R24). -/
def State.dirLevel (s : State) (a : Fin 16) : Bool := s.stepsOn && (s.mot.ax[a].dir ^^ s.fb (F.MOT_CFG_DIR_INV a.val))

/-- R19, R24, R288: STEP pulses of the last tick and DIR as the pads of an axis 12 to 15 carry them; none: high impedance. -/
def State.stepPads (s : State) (a : Fin 16) : Option (List Nat × Bool) :=
  if s.pad.held then some ([], vgetD s.pad.dirs (a.val - 12) false)
  else if s.padsOff then none
  else some (s.mot.ax[a].pulses, s.dirLevel a)

/-! ### Chopper currents (R255–R258) -/

/-- R257: θ of an axis at its integer position. -/
def Axis.theta (x : Axis) (mstepLog2 : Nat) : Nat :=
  ((x.pos / posUnit) * (64 / 2 ^ min 6 mstepLog2 : Nat) % 256).toNat

/-- R257: round(I × |sin(2πθ ÷ 256)|). -/
def dacOf (i theta : Nat) : Nat := ((2 * i * (sinPi theta 128).natAbs + 2 ^ 80) / 2 ^ 81)

/-- The thresholds A and B of an axis. -/
def State.dacs (s : State) (a : Nat) (x : Axis) : Nat × Nat :=
  let t := x.theta (s.f (F.MOT_CFG_MSTEP_LOG2 a))
  (dacOf x.cur t, dacOf x.cur (t + 64))

/-- The drive sign of phase A (sin) or B (cos) at θ. -/
def signAt (t : Nat) : Bool := decide (t % 256 < 128)

/-- R257: the current level the state of the tick selects; at rest is a velocity of 0, in a SYNC wait as well (R250). -/
def State.curLevel (s : State) (a : Nat) (x : Axis) : Nat :=
  if x.accel then s.f (F.MOT_CUR_ACC_I a)
  else if x.vel ≠ 0 then s.f (F.MOT_CUR_CRUISE_I a)
  else if x.parked then s.f (F.MOT_CUR_PARK_I a)
  else s.f (F.MOT_CUR_REST_I a)

/-- R257: I moves by one DAC step every 64 µs towards the selected level, from the next on-time after a change of that level; with
`idle` (no phase of the axis has on-times: its gates are off or I is 0) it moves at once (DESIGN CHOICE, log entry 63). -/
def Axis.curTick (x : Axis) (idle : Bool) (level : Nat) : Axis :=
  let y := { x with level := level, curGo := idle || (x.curGo && decide (level = x.level)) }
  if x.cur = level ∨ y.curGo = false then { y with curUs := 0 }
  else if 63 ≤ x.curUs then
    { y with curUs := 0, cur := if x.cur < level then x.cur + 1 else x.cur - 1 }
  else { y with curUs := x.curUs + 1 }

/-- R24, R245, R311: the gates of chopper axis a are driven. -/
def State.gatesOn (s : State) (a : Fin 16) : Bool :=
  s.tbl.holder && !s.retired (axisBoard a.val) &&
    ((s.inMode .halt && s.sys.flow == .halt && (s.sys.seqStep == .lift || s.sys.seqStep == .cap) && s.mot.ax[a].seq.isSome)
      || ((s.inMode .ready || s.inMode .print || s.inMode .service) && decide (s.thm.stop ≠ 2)
          && (s.mot.ax[a].seq.isSome || decide (s.f (F.MOT_CFG_MODE a.val) ≠ 0))))

/-- Axis a changed by `f`. -/
def State.onAxis (s : State) (a : Fin 16) (f : Axis → Axis) : State := s.onMot fun m => { m with ax := vmod m.ax a f }

/-! ### The web axis (R18, R252–R254) -/

/-- R19: the mode whose web axis the seat computes: its own, on a standby the holder's. -/
def State.webMode (s : State) : Mode := if s.inMode .standby then s.sys.shadow else s.sys.mode

/-- R253: the generator drives the web axis from w. -/
def State.webOn (s : State) : Bool :=
  s.webMode == .print || s.mot.stop.isSome
    || (s.webMode == .service && (s.sys.svc == some .calPrint || s.sys.svc == some .laneTest))

/-- The lowest maximum fire rate among the head types that enabled heads use (R158); 0 with no enabled head. -/
def State.fMax (s : State) : Nat :=
  match ((upto 8).flatMap s.headsOf).map (fun h => (s.htype h.type).fmax) with
  | [] => 0
  | x :: t => t.foldl min x

/-- R158: the overspeed clamp, 0.98 × V_fire in 10⁻⁶ mm/s: the line pitch is NUM ÷ DEN steps (R146), and a step 1/4,096 of
the primary channel's signal period (R136). -/
def State.clampSpeed (s : State) : Nat :=
  let nm := clampN 1000 1000000 (s.f (F.ENC_PITCH_PITCH (s.f F.ENC_WEB_SRC_PRIMARY)))
  s.fMax * s.f F.LTM_PITCH_NUM * nm * 98 / (max 1 (s.f F.LTM_PITCH_DEN_DEN) * 4096 * 100)

/-- R253: the operator target in 10⁻⁶ mm/s. -/
def State.opSpeed (s : State) : Nat := min (s.f F.MOT_WEB_TGT_MMS) (s.f F.MOT_WEB_VMAX_MMS) * 1000000

/-- R18: the lowest of the three targets and which one binds. -/
def State.webTarget (s : State) : Nat × Nat :=
  let op := s.opSpeed
  let g := match s.ltm.gov with | some l => if l < op then (l, 1) else (op, 0) | none => (op, 0)
  if s.ltm.clamp && decide (s.clampSpeed < g.1) then (s.clampSpeed, 2) else g

/-- R253: the web command after one tick, and the binding limit; at all other times than those of R253 it is 0. -/
def State.webTick (s : State) : Nat × Nat :=
  let w := s.mot.w
  let a := max 1 (s.f F.MOT_WEB_ACC_MMS2)
  match s.mot.stop with
  | some _ => (w - s.mot.dec, 3)
  | none =>
    if s.webOn then
      let t := s.webTarget
      if t.2 = 1 ∧ (t.1 ≤ w ∨ s.mot.src = 1) then (if w ≤ t.1 ∧ s.mot.src ≠ 1 then min t.1 (w + a) else t.1, 1)
      else (if w < t.1 then min t.1 (w + a) else max t.1 (w - a), if t.2 = 1 then 0 else t.2)
    else (0, 0)

/-- R252, R253: velocity units of the web command. -/
def State.webVel (s : State) (w : Nat) : Int :=
  let sc := s.f F.MOT_WEB_SCALE_SCALE
  ((w * (if sc = 0 then 65536 else sc) / 256 : Nat) : Int)

/-- R18: the severity of a stop. -/
def StopKind.rank : StopKind → Nat
  | .haltRamp => 1 | .orderly => 2 | .emergency => 3

/-- R18, R253: a stop brought onto the web axis: a more severe one takes its own deceleration unless that is smaller.  The
deceleration is the one `MOT_WEB_DEC` holds when the stop comes; a write during the ramp is for the next stop (DESIGN CHOICE, log
entry 58). -/
def State.webStop (s : State) (k : StopKind) : State :=
  let i := match k with | .haltRamp => 0 | .orderly => 1 | .emergency => 2
  let d := max 1 (s.f (F.MOT_WEB_DEC_MMS2 i))
  match s.mot.stop with
  | none => s.onMot fun m => { m with stop := some k, dec := d }
  | some o => if o.rank < k.rank then s.onMot fun m => { m with stop := some k, dec := max d m.dec } else s

/-! ### Sequences (R259, R260) -/

/-- Sequence numbers of R259. -/
def seqLift : Fin 5 := 0
def seqLower : Fin 5 := 1
def seqCap : Fin 5 := 2
def seqUncap : Fin 5 := 3
def seqWipe : Fin 5 := 4

/-- Sequence i changed by `f`. -/
def State.onSeq (s : State) (i : Fin 5) (f : Seq → Seq) : State := s.onMot fun m => { m with seqs := vmod m.seqs i f }

/-- R259: the interlock of a sequence holds. -/
def State.seqInterlock (s : State) (i : Fin 5) : Bool :=
  match i.val with
  | 1 => s.mot.uncapDone && s.mot.rest
  | 2 => s.mot.liftDone && s.mot.rest
  | 3 => s.mot.liftDone
  | 4 => s.mot.liftDone && s.mot.uncapDone
  | _ => true

/-- R259: the axes of a sequence: those named in AXES whose COUNT is not 0. -/
def State.seqAxes (s : State) (i : Fin 5) : List (Fin 16) :=
  (List.finRange 16).filter (fun a => bits (s.f (F.MOT_SEQ_CFG_AXES i.val)) a.val 1 = 1 ∧ a.val < 12
    ∧ s.f (F.MOT_SEQ_SEG_COUNT a.val i.val) ≠ 0)

/-- An axis brought to rest at DEC, its table or target abandoned (R248, R260). -/
def Axis.brake (x : Axis) : Axis :=
  { x with
    run := if x.vel = 0 then .none else
      match x.run with | .move => .stop (some x.target) | .stop t => .stop t | _ => .stop none
    seq := none }

/-- Sequence i ended without being done: its axes stop at DEC. -/
def State.seqDrop (s : State) (i : Fin 5) : State :=
  (s.onMot fun m => { m with ax := m.ax.map (fun x => if x.seq = some i then x.brake else x) }).onSeq i fun q =>
    { q with running := false, axes := [], starts := [] }

/-- R260: sequence i fails. -/
def State.seqFail (s : State) (i : Fin 5) : State :=
  ((s.seqDrop i).onSeq i fun q => { q with fail := true }).event 0x0B1 i.val

/-- R259: sequence i starts: its condition is voided, its axes are held and wait for rest. -/
def State.seqBegin (s : State) (i : Fin 5) : State :=
  let ax := s.seqAxes i
  (s.onMot fun m => { m with
    liftDone := m.liftDone && i != seqLower
    uncapDone := m.uncapDone && i != seqCap
    ax := Vector.ofFn (fun (a : Fin 16) => if ax.contains a then { m.ax[a] with seq := some i } else m.ax[a]) }).onSeq i
    fun _ => { running := true, axes := ax.map (·.val), starts := ax.map (·.val) }

/-- R259: sequence i is refused. -/
def State.seqRefuse (s : State) (i : Fin 5) : State :=
  s.setF F.MOT_SEQ_STAT_SEQ_REJ (insBits (s.f F.MOT_SEQ_STAT_SEQ_REJ) i.val 1 1)

/-- R250, R260: an axis of a running sequence starts at the sequence's FIRST, or the sequence fails. -/
def State.seqAxisStart (s : State) (i : Fin 5) (a : Fin 16) : State :=
  let first := s.f (F.MOT_SEQ_SEG_FIRST a.val i.val)
  if s.retired (axisBoard a.val) then s.seqFail i
  else if s.segCheck a first (s.f (F.MOT_SEQ_SEG_COUNT a.val i.val)) then
    (s.onAxis a fun x => { x with run := .seg first 0 x.pos 0, atTarget := false }).onSeq i fun q =>
      { q with starts := q.starts.filter (· ≠ a.val) }
  else (s.setF (F.MOT_FLAGS_SEG_ERR a.val) 1).seqFail i

/-- The axes of sequence i that wait for rest and have reached it start. -/
def State.seqStarts (s : State) (i : Fin 5) : State :=
  (List.finRange 16).foldl (fun s a =>
    if s.mot.seqs[i].running && s.mot.seqs[i].starts.contains a.val && s.mot.ax[a].still then s.seqAxisStart i a else s) s

/-- Every axis of a sequence waits at a SYNC segment or has ended. -/
def State.seqSynced (s : State) (i : Fin 5) : Bool :=
  s.mot.seqs[i].running && s.mot.seqs[i].starts.isEmpty &&
    (List.finRange 16).all (fun a => !s.mot.seqs[i].axes.contains a.val ||
      (match s.mot.ax[a].run with | .sync _ => true | _ => false))

/-! ### The generator's tick (R246) -/

/-- The effective mode of an axis; the web axis takes w in every mode (R253). -/
def State.axisMode (s : State) (a : Fin 16) : Nat :=
  let m := s.f (F.MOT_CFG_MODE a.val)
  if s.mot.ax[a].seq.isSome then 3
  else if a.val = 12 then 0
  else if m = 4 ∧ 13 ≤ a.val then 4
  else if m < 4 then m else 0

/-- What the tick of axis a uses, the web command being w. -/
def State.tickIn (s : State) (a : Fin 16) (w : Nat) : TickIn :=
  let vm := (s.vmax a.val : Int) * velUnit
  let ratio := if 13 ≤ a.val then sgn 32 (s.f (F.MOT_FOLLOW_RATIO (a.val - 13))) else 0
  { mode := s.axisMode a, vmax := s.vmax a.val, acc := s.acc a.val, dec := s.dec a.val,
    goal := clampI (-vm) vm (sgn 32 (s.f (F.MOT_VTGT_VTGT a.val)) * velUnit),
    drive := s.webVel w * ratio / 65536, seg := s.mot.seg[a],
    release := match s.mot.ax[a].seq with | some i => s.seqSynced i | none => true }

/-- STEP_W as used: 5 to 255. -/
def State.stepW (s : State) (a : Nat) : Nat := max 5 (s.f (F.MOT_CFG_STEP_W a))

/-- R256: a phase begins an on-time, or its off-time, or rests. -/
def Phase.start (p : Phase) (now : Nat) : Phase := { p with on := true, off := false, since := now }
def Phase.decay (p : Phase) (now : Nat) : Phase := { p with on := false, off := true, since := now }
def Phase.rest (p : Phase) : Phase := { p with on := false, off := false }

/-- R255, R256, R258: a phase in a tick: gates off or held off: no on-time; a set current of 0: slow decay; at a change of the
drive sign, and where neither an on-time nor an off-time runs, an on-time begins. -/
def Phase.chopTick (p : Phase) (now : Nat) (gates : Bool) (level : Nat) (turned : Bool) : Phase :=
  if !gates || p.heldOff || decide (level = 0) then p.rest
  else if turned || !(p.on || p.off) then p.start now
  else p

/-- The chopper part of a tick: rest time, current scale, phases. -/
def State.chopTick (s : State) (a : Fin 16) (x0 x : Axis) : Axis :=
  let lg := s.f (F.MOT_CFG_MSTEP_LOG2 a.val)
  let t0 := x0.theta lg
  let t1 := x.theta lg
  let g := s.gatesOn a
  let x1 := x.curTick (!g || decide (x.cur = 0)) (s.curLevel a.val x)
  let d := s.dacs a.val x1
  let pa := x1.pa.chopTick s.nowNs g d.1 (signAt t0 != signAt t1)
  let pb := x1.pb.chopTick s.nowNs g d.2 (signAt (t0 + 64) != signAt (t1 + 64))
  { x1 with pa := pa, pb := pb, curGo := x1.curGo || (pa != x1.pa && pa.on) || (pb != x1.pb && pb.on) }

/-- Phase A or B of an axis. -/
def Axis.phase (x : Axis) (phaseB : Bool) : Phase := if phaseB then x.pb else x.pa

/-- R255, R256: the gate pair (X1, X2) of a phase: drive, fast decay for the first FD_SHARE ÷ 16 of OFF_T, then slow decay; off
while the gates are not driven or the phase is held off.  DIR_INV turns the drive of phase A, and with it the motor (DESIGN CHOICE,
log entry 63). -/
def State.gatePair (s : State) (a : Fin 16) (phaseB : Bool) : Bool × Bool :=
  let x := s.mot.ax[a]
  let p := x.phase phaseB
  let t := x.theta (s.f (F.MOT_CFG_MSTEP_LOG2 a.val))
  let pos := if phaseB then signAt (t + 64) else signAt t ^^ s.fb (F.MOT_CFG_DIR_INV a.val)
  let fast := max 1 (s.f (F.MOT_CHOP_OFF_T a.val)) * 200 * s.f (F.MOT_CHOP_FD_SHARE a.val) / 16
  if !s.gatesOn a || p.heldOff then (false, false)
  else if p.on then (pos, !pos)
  else if p.off && decide (s.nowNs < p.since + fast) then (!pos, pos)
  else (true, true)

/-- R19, R24, R288: the gate pair as the pads of axis a carry it; none: high impedance. -/
def State.gatePads (s : State) (a : Fin 12) (phaseB : Bool) : Option (Bool × Bool) :=
  let i := 2 * a.val + (if phaseB then 1 else 0)
  if s.pad.held then some (vgetD s.pad.gates i (false, false))
  else if s.padsOff then none
  else some (s.gatePair ⟨a.val, by omega⟩ phaseB)

/-- The rest time of an axis after a tick; leaving rest ends parking. -/
def Axis.restTick (x : Axis) : Axis :=
  if x.vel = 0 then { x with restUs := min (x.restUs + 1) 1000000000 } else { x with restUs := 0, parked := false }

/-- One tick of axis a. -/
def State.tickOne (s : State) (w : Nat) (a : Fin 16) : State :=
  let x0 := s.mot.ax[a]
  let r := if a.val = 12 then
      let v := s.webVel w
      (({ x0 with pos := x0.pos + v, vel := v, run := .none, accel := decide (v ≠ x0.vel) } : Axis), ({} : TickOut))
    else axisTick (s.tickIn a w) x0
  let x1 := r.1.restTick
  let st := if 12 ≤ a.val then stepTick (s.stepW a.val) x0.pos x1 else (s.chopTick a x0 x1, false)
  let evt := r.2.clamp && !x0.clampEvt
  let s1 := s.onAxis a fun _ => { st.1.wrap with
    clampEvt := x0.clampEvt || r.2.clamp
    pulses := if s.stepsOn then st.1.pulses else [] }
  let s2 := if r.2.clamp then s1.setF (F.MOT_FLAGS_ACC_CLAMP a.val) 1 else s1
  let s3 := if r.2.segErr then s2.setF (F.MOT_FLAGS_SEG_ERR a.val) 1 else s2
  let s4 := if st.2 then s3.setF (F.MOT_FLAGS_VEL_CLAMP a.val) 1 else s3
  let s5 := if evt then s4.event 0x0B0 a.val else s4
  match r.2.ended, x0.seq with
  | true, some i => s5.onSeq i fun q => { q with axes := q.axes.filter (· ≠ a.val) }
  | _, _ => s5

/-- R246, R253: one tick of 1 µs: the web command, every axis, the axes of sequences that wait for rest. -/
def State.genTick (s : State) : State :=
  let wt := s.webTick
  let s1 := (List.finRange 5).foldl (fun s i => s.seqStarts i) s
  let s2 := (List.finRange 16).foldl (fun s a => s.tickOne wt.1 a) s1
  s2.onMot fun m => { m with
    w := wt.1
    src := wt.2
    zeroUs := if wt.1 = 0 then min 10000 (m.zeroUs + 1) else 0
    rest := m.rest && decide (wt.1 = 0) }

/-- PARK_SELECT (R257): at rest for PARK_DLY × 10 ms, with PARK_DLY ≠ 0. -/
def execParkSelect (a : Fin 12) (s : State) : Host.Outcome State Fault Refusal :=
  .next (s.live fun s =>
    let i : Fin 16 := ⟨a.val, by omega⟩
    s.when (decide (s.f (F.MOT_CUR_DLY_PARK_DLY a.val) ≠ 0) && decide (s.mot.ax[i].vel = 0)) fun s =>
      s.onAxis i fun x => { x with parked := true })

/-! ### Commands of an axis (R248) -/

/-- R248: GO in mode 1. -/
def Axis.go (x : Axis) : Axis :=
  { x with run := .move, ramp := false, clampEvt := false, atTarget := false }

/-- MOT_GO (R248, R250, R262): ignored unless at rest, or while a sequence holds the axis. -/
def State.motGo (s : State) (a : Fin 16) : Option State :=
  let x := s.mot.ax[a]
  if !x.still || x.seq.isSome then none
  else match s.axisMode a with
    | 1 => some (s.onAxis a Axis.go)
    | 3 =>
      let first := s.f (F.MOT_SEG_FIRST a.val)
      if s.segCheck a first (s.f (F.MOT_SEG_COUNT a.val)) then
        some (s.onAxis a fun x => { x with run := .seg first 0 x.pos 0, atTarget := false })
      else some (s.setF (F.MOT_FLAGS_SEG_ERR a.val) 1)
    | _ => none

/-- Address of `MOT_CMD[a]`. -/
def motCmdAddr (a : Fin 16) : Nat := 0x18001C + a.val * 0x200

/-- A session's write as its forwarding record carries it (R290). -/
def State.fwdWrite (s : State) (ses : Fin 5) (a : Nat) (data : Word) : State :=
  s.forward (.write ses.val ((s.roleOf ses).getD .operator) a data (s.lineOf 0))

/-- MOT_GO. -/
def State.cmdGo (s : State) (ses : Fin 5) (a : Fin 16) : State :=
  s.sesCmd ses .installer (motCmdAddr a) 1 fun s => (s.motGo a).map (fun t => t.fwdWrite ses (motCmdAddr a) 1)

def execMotGo (ses : Fin 5) (a : Fin 16) (s : State) : Host.Outcome State Fault Refusal := .next (s.cmdGo ses a)

/-- R248, R262: STOP abandons the target or table. -/
def State.motStop (s : State) (a : Fin 16) : Option State :=
  if s.mot.ax[a].seq.isSome then none else some (s.onAxis a Axis.brake)

/-- MOT_STOP. -/
def State.cmdStop (s : State) (ses : Fin 5) (a : Fin 16) : State :=
  s.sesCmd ses .operator (motCmdAddr a) 2 fun s => (s.motStop a).map (fun t => t.fwdWrite ses (motCmdAddr a) 2)

def execMotStop (ses : Fin 5) (a : Fin 16) (s : State) : Host.Outcome State Fault Refusal := .next (s.cmdStop ses a)

/-- R248: the write of `MOT_TARGET_HI` applies both words, or sets TGT_REJ while the axis moves. -/
def State.targetFx (s : State) (a : Fin 16) (hi : Nat) : State :=
  if s.mot.ax[a].still then
    let lo := s.f (F.MOT_TARGET_LO_TARGET a.val)
    (s.setF (F.MOT_TARGET_HI_TARGET a.val) (hi % 65536)).onAxis a fun x =>
      { x with target := sgn 48 (hi % 65536 * 2 ^ 32 + lo) * posUnit }
  else s.setF (F.MOT_FLAGS_TGT_REJ a.val) 1

/-- R248: a session's write of `MOT_TARGET_HI`; one that is refused is no successful write. -/
def State.setTarget (s : State) (ses : Fin 5) (a : Fin 16) (hi : Nat) : Option State :=
  let ad := 0x180018 + a.val * 0x200
  let s1 := s.targetFx a hi
  if s.mot.ax[a].still then
    some ((s1.auditWrite ses ad (s.f (F.MOT_TARGET_HI_TARGET a.val)) (hi % 65536)).fwdWrite ses ad (BitVec.ofNat 32 hi))
  else some (s1.fwdWrite ses ad (BitVec.ofNat 32 hi))

/-- TARGET_WRITE. -/
def State.cmdTarget (s : State) (ses : Fin 5) (a : Fin 16) (hi : Nat) : State :=
  s.sesWriteBy ses .installer (0x180018 + a.val * 0x200) (BitVec.ofNat 32 hi) fun s => s.setTarget ses a hi

def execTargetWrite (ses : Fin 5) (a : Fin 16) (hi : BitVec 16) (s : State) : Host.Outcome State Fault Refusal :=
  .next (s.cmdTarget ses a hi.toNat)

/-- A phase of axis a changed. -/
def State.onPhase (s : State) (a : Fin 16) (phaseB : Bool) (f : Phase → Phase) : State :=
  s.onAxis a fun x => if phaseB then { x with pb := f x.pb } else { x with pa := f x.pa }

/-- The DAC threshold of a phase (R257). -/
def State.threshold (s : State) (a : Fin 16) (phaseB : Bool) : Nat :=
  let d := s.dacs a.val s.mot.ax[a]
  if phaseB then d.2 else d.1

/-- CHOPPER_OFF_END (R256): the off-time ends and a new on-time begins, where the phase carries current; without one it decays
slowly. -/
def execChopperOffEnd (a : Fin 12) (phaseB : Bool) (s : State) : Host.Outcome State Fault Refusal :=
  .next (s.live fun s =>
    let i : Fin 16 := ⟨a.val, by omega⟩
    let p := s.mot.ax[i].phase phaseB
    s.when (s.gatesOn i && p.off) fun s =>
      if s.threshold i phaseB = 0 then s.onPhase i phaseB Phase.rest
      else (s.onPhase i phaseB fun p => p.start s.nowNs).onAxis i fun x => { x with curGo := true })

/-- SHORT_HOLD_END (R258): the phase is no longer held off. -/
def execShortHoldEnd (a : Fin 12) (phaseB : Bool) (s : State) : Host.Outcome State Fault Refusal :=
  .next (s.live fun s => s.onAxis ⟨a.val, by omega⟩ fun x =>
    if phaseB then { x with pb := { x.pb with heldOff := false } } else { x with pa := { x.pa with heldOff := false } })

end Sys2Proof.Machine
end

