-- ==== Sys2Proof/Machine/Flt.lean ====
section
/-! DEFINITION. Scoreboards: upsets, classing and retirement marks (R318–R322), the nozzle counts (R326) and telemetry
(R327). -/
namespace Sys2Proof.Machine

/-! ### Scoreboards (R318–R320) -/

/-- R318: the kind of scoreboard j. -/
def kindOf (j : Nat) : Nat :=
  if j < 8 then 0 else if j < 48 then 1 else if j < 60 then 2 else if j < 64 then 3 else if j < 68 then 4
  else if j < 72 then 5 else 6

/-- R318: the first scoreboard of a kind. -/
def kindBase : Nat → Nat
  | 0 => 0 | 1 => 8 | 2 => 48 | 3 => 60 | 4 => 64 | 5 => 68 | _ => 72

/-- R319: the window count C, saturating at 0xFFFF. -/
def Board.count (x : Board) : Nat := min 0xFFFF (x.buckets.foldl (· + ·) 0)

/-- An upset added to the current bucket, saturating. -/
def Board.hit (x : Board) : Board :=
  match x.buckets with
  | [] => x
  | b :: t => { x with buckets := min 0xFFFF (b + 1) :: t }

/-- R319: a bucket boundary: the oldest bucket is cleared and becomes the current one. -/
def Board.turn (x : Board) : Board := { x with buckets := 0 :: x.buckets.take 15 }

/-- Scoreboard j. -/
def State.board (s : State) (j : Nat) : Board := vgetD s.flt.boards j {}

/-- Scoreboard j changed by `f`. -/
def State.onBoard (s : State) (j : Nat) (f : Board → Board) : State := s.onFlt fun t => { t with boards := vmodN t.boards j f }

/-- The retirement of channel j is due; its own chapter carries it out. -/
def State.retireDue (s : State) (j : Nat) : State :=
  if (s.board j).retired || s.flt.due.contains j then s else s.onFlt fun t => { t with due := t.due ++ [j] }

/-- R319: the upsets counted exceed the kind's threshold. -/
def State.overPerm (s : State) (j : Nat) : Bool :=
  let p := s.f (F.FLT_PERM_COUNT (kindOf j))
  decide (p ≠ 0xFFFF) && decide (p < (s.board j).count)

/-- R320: channel j is classed permanent; in `FROZEN` the class is recorded and nothing is retired (R321). -/
def State.classed (s : State) (j : Nat) : State :=
  let s1 := (s.onBoard j fun x => { x with perm := true }).event 0x0F0 (j - kindBase (kindOf j) + 256 * kindOf j)
  if s.inMode .frozen then s1 else s1.retireDue j

/-- R319, R322: one upset on channel j.  A retired channel counts none. -/
def State.upset (s : State) (j : Nat) : State :=
  if (s.board j).retired then s
  else
    let s1 := ((s.onBoard j Board.hit).bump (F.FLT_SB_TOTAL_COUNT j)).onFlt fun t => { t with telUpsets := t.telUpsets + 1 }
    if !(s.board j).perm && s1.overPerm j then s1.classed j else s1

/-- Channel j is marked retired (R320). -/
def State.markRetired (s : State) (j : Nat) : State :=
  (s.onBoard j fun x => { x with retired := true, pend := false }).onFlt fun t => { t with due := t.due.filter (· ≠ j) }

/-- R321: scoreboards of a kind cleared; `all`: their classing and retirement too. -/
def State.clearBoards (s : State) (all : Bool) (p : Nat → Bool) : State :=
  s.onFlt fun t => { t with
    boards := Vector.ofFn (fun (j : Fin 84) =>
      if p j.val then
        (if all then {} else { t.boards[j] with buckets := List.replicate 16 0 })
      else t.boards[j])
    due := if all then t.due.filter (fun j => !p j) else t.due }

/-- SCOREBOARD_BUCKET (R319): in `IDLE/COLD` the buckets of gated islands stand still (R321); only TBL stays clocked. -/
def execScoreboardBucket (kind : Fin 7) (s : State) : Host.Outcome State Fault Refusal :=
  .next (s.live fun s => s.when (!s.sys.cold || decide (kind.val = 2)) fun s => s.onFlt fun t => { t with
    boards := Vector.ofFn (fun (j : Fin 84) => if kindOf j.val = kind.val then t.boards[j].turn else t.boards[j]) })

/-! ### Nozzle counts (R326) -/

/-- The level a head record holds at position p (R129). -/
def levelIn (l : List Byte) (p : Nat) : Nat := bits (l.getD (p / 4) 0).toNat (2 * (p % 4)) 2

/-- R326: drops of level 1 to 3 in nozzle group g of a head record. -/
def Head.drops (h : Head) (l : List Byte) (g : Nat) : Nat :=
  ((upto 64).filter (fun i => levelIn l (h.position (64 * g + i)) ≠ 0)).length

/-- Key of a nozzle group: head b × 40 + h, group g. -/
def nozKey (b h g : Nat) : Nat := (b * 40 + h) * 42 + g

/-- R326: drops added to a group; whole units of 2²⁰ are carried, the remainder kept. -/
def Flt.addDrops (t : Flt) (key d : Nat) : Flt :=
  let n := (rget t.frac key).toNat + d
  { t with
    frac := rset t.frac key (BitVec.ofNat 32 (n % 1048576))
    noz := rset t.noz key (BitVec.ofNat 32 (satAdd 32 (rget t.noz key).toNat (n / 1048576))) }

/-- The counts of one head's part of a record. -/
def Flt.countHead (t : Flt) (b : Nat) (h : Head) (l : List Byte) : Flt :=
  (upto (h.n / 64)).foldl (fun t g => t.addDrops (nozKey b h.h g) (h.drops l g)) t

/-- The counts of a lane record: the heads' records follow each other. -/
def Flt.countRec (t : Flt) (b : Nat) : List Head → List Byte → Flt
  | [], _ => t
  | h :: hs, l => (t.countHead b h (l.take (h.n / 4))).countRec b hs (l.drop (h.n / 4))

/-- R326: a lane record sent, or taken by a standby in step, is counted. -/
def State.countDrops (s : State) (n : Nat) (l : List Byte) : State :=
  s.onFlt fun t => t.countRec (n / 5) (s.laneHeads n) l

end Sys2Proof.Machine
end

