-- ==== Sys2Proof/Machine/Encode.lean ====
section
/-! DEFINITION. Encoder channels (R131–R145): from a sample to quadrature, position, speed and calibration, and the web
source. -/
namespace Sys2Proof.Machine

/-- Channel ch changed by `f`. -/
def State.onCh (s : State) (ch : Fin 4) (f : EncCh → EncCh) : State := s.onEnc fun e => { e with ch := vmod e.ch ch f }

/-- R136: the position in steps, before it wraps modulo 2⁴⁸. -/
def EncCh.pos (x : EncCh) : Int := 4096 * x.n + 1024 * x.q + x.f + x.ofs

/-- Instant of a channel's last sample in ns (R132: one every 250 ns). -/
def EncCh.now (x : EncCh) : Nat := x.k * 250

/-! ### Correction, quadrature, phase (R133, R134, R136) -/

/-- A corrected sample: s, and c as a numerator over √d2. -/
structure Corr where
  s : Int
  num : Int
  d2 : Nat
deriving DecidableEq, Repr

/-- Settings of a channel that a sample uses. -/
structure EncSet where
  dirInv : Bool
  hyst : Nat
  lo : Nat
  hi : Nat
  so : Int
  co : Int
  gain : Nat
  phase : Int
  idxMode : Nat
  preset : Int
  /-- `ENC_STILL_TMO` in ns. -/
  tmo : Nat
deriving DecidableEq, Repr

/-- The settings in force of channel ch. -/
def State.encSet (s : State) (ch : Nat) : EncSet :=
  { dirInv := s.fb (F.ENC_CFG_DIR_INV ch), hyst := s.f (F.ENC_CFG_HYST ch), lo := s.f (F.ENC_AMP_LIM_LO ch),
    hi := s.f (F.ENC_AMP_LIM_HI ch), so := s.fi (F.ENC_CAL_OFS_SIN_OFS ch), co := s.fi (F.ENC_CAL_OFS_COS_OFS ch),
    gain := (let g := s.f (F.ENC_CAL_GP_GAIN ch); if g = 0 then 0x8000 else g),
    phase := clampI (-16384) 16384 (s.fi (F.ENC_CAL_GP_PHASE ch)), idxMode := s.f (F.ENC_CFG_IDX_MODE ch),
    preset := sgn 48 (s.f (F.ENC_IDX_PRESET_LO_PRESET ch) + 2 ^ 32 * s.f (F.ENC_IDX_PRESET_HI_PRESET ch))
    tmo := max 1 (s.f (F.ENC_STILL_TMO_MS ch)) * 1000000 }

/-- R133: the corrected values of an offset-free sample (S, C). -/
def EncSet.correct (e : EncSet) (sc : Int × Int) : Corr :=
  let s := sc.1 - e.so
  { s := if e.dirInv then -s else s, num := (sc.2 - e.co) * e.gain - s * e.phase,
    d2 := 2 ^ 30 - e.phase.natAbs * e.phase.natAbs }

/-- r² × d2 of a corrected sample. -/
def Corr.r2 (c : Corr) : Nat := c.s.natAbs * c.s.natAbs * c.d2 + c.num.natAbs * c.num.natAbs

/-- R133: the radius in 1/256 code, rounded down. -/
def Corr.r256 (c : Corr) : Nat := isqrt (c.r2 * 65536 / c.d2)

/-- R134: line A of a corrected sample; before the first sample its sign decides within the hysteresis. -/
def Corr.lineA (c : Corr) (hyst : Nat) (seen old : Bool) : Bool :=
  if (hyst : Int) < 2 * c.s then true else if 2 * c.s < -(hyst : Int) then false else if seen then old else decide (0 ≤ c.s)

/-- R134: line B of a corrected sample. -/
def Corr.lineB (c : Corr) (hyst : Nat) (seen old : Bool) : Bool :=
  let far := decide (hyst * hyst * c.d2 < 4 * (c.num.natAbs * c.num.natAbs))
  if far then decide (0 < c.num) else if seen then old else decide (0 ≤ c.num)

/-- R134: the quadrant of A and B. -/
def quadOf (a b : Bool) : Nat := match a, b with | true, true => 0 | true, false => 1 | false, false => 2 | false, true => 3

/-- The largest k below 2^n + base with y·cos(kπ/2048) ≥ x·sin(kπ/2048), by bisection. -/
def phaseAux (y x : Int) : Nat → Nat → Nat
  | 0, k => k
  | n + 1, k =>
    let m := k + 2 ^ n
    if x * sinPi m 2048 ≤ y * sinPi (1024 - m) 2048 then phaseAux y x n m else phaseAux y x n k

/-- R136: the phase within quadrant q, 0 to 1,023; outside q the nearest edge. -/
def Corr.phase (c : Corr) (q : Nat) : Nat :=
  let s := c.s * (isqrt (c.d2 * 2 ^ 64) : Int)
  let n := c.num * 2 ^ 32
  let yx : Int × Int := match q with | 0 => (s, n) | 1 => (-n, s) | 2 => (-s, -n) | _ => (n, -s)
  if 0 ≤ yx.1 ∧ 0 ≤ yx.2 then phaseAux yx.1 yx.2 10 0 else if yx.2 < yx.1 then 1023 else 0

/-! ### One sample (R135–R139, R142) -/

/-- What a sample gave beside the channel's new state. -/
structure SampleOut where
  illegal : Bool := false
  ampFault : Bool := false
  overfreq : Bool := false
  index : Bool := false
  /-- The jump of an index that set P, and whether REF was set before. -/
  jump : Option (Int × Bool) := none
deriving DecidableEq, Repr

/-- R137: radius outside its limits. -/
def EncSet.ampBad (e : EncSet) (c : Corr) : Bool :=
  decide (e.hi ≤ e.lo) || decide (c.r2 < e.lo * e.lo * c.d2) || decide (e.hi * e.hi * c.d2 < c.r2)

/-- R138: a sample added to a run. -/
def EncRun.add (r : EncRun) (sc : Int × Int) (rad : Nat) : EncRun :=
  if !r.begun then r
  else { r with
    count := r.count + 1
    maxS := if r.count = 0 then sc.1 else max r.maxS sc.1
    minS := if r.count = 0 then sc.1 else min r.minS sc.1
    maxC := if r.count = 0 then sc.2 else max r.maxC sc.2
    minC := if r.count = 0 then sc.2 else min r.minC sc.2
    sumS := r.sumS + sc.1
    sumC := r.sumC + sc.2
    sumSC := r.sumSC + sc.1 * sc.2
    rMax := max r.rMax rad
    rMin := if r.count = 0 then rad else min r.rMin rad
    rSum := r.rSum + rad }

/-- R138: a period boundary in a run: a period between 4 µs and 1 ms counts, any other discards those collected. -/
def EncRun.mark (r : EncRun) (period : Option Nat) : EncRun :=
  match period with
  | some p => if r.begun ∧ 4000 ≤ p ∧ p ≤ 1000000 then { r with periods := min 1024 (r.periods + 1) } else { begun := true }
  | none => { begun := true }

/-- The calibration's part of a period boundary; a complete run collects no more. -/
def EncCal.mark (c : EncCal) (period : Option Nat) : EncCal :=
  match c with | .collect r => if r.periods = 1024 then c else .collect (r.mark period) | _ => c

/-- R142: a period boundary at time `t` while stepping in direction `d`. -/
def EncCh.mark (x0 : EncCh) (t : Nat) : EncCh × Bool :=
  let x := { x0 with timedBack := decide (x0.step < 0), still := false }
  if x.turned then
    ({ x with turned := false, marks := [t], need := 1, period := 0, cal := x.cal.mark none }, false)
  else match x.marks with
    | [] => ({ x with marks := [t], cal := x.cal.mark none }, false)
    | m :: _ => ({ x with
        marks := t :: x.marks.take 64
        period := t - m
        cal := x.cal.mark (some (t - m)) }, decide (t - m < 2000))

/-- R142: no period boundary within the standstill timeout: speed reads 0 and the history clears. -/
def EncCh.restAt (x : EncCh) (t tmo : Nat) : EncCh :=
  match x.marks with
  | m :: _ => if m + tmo ≤ t then { x with still := true, marks := [], need := 2, period := 0 } else x
  | [] => { x with still := true, need := 2, period := 0 }

/-- R139: an index that sets P puts the crossing at the preset. -/
def EncCh.toPreset (x : EncCh) (edge preset : Int) : EncCh × Int :=
  let o := preset - edge
  ({ x with ofs := o, ref := true, errSince := false }, o - x.ofs)

/-- R134, R142: the step of q a sample makes towards the derived quadrant. -/
def stepOf (q dq : Nat) : Int := if dq = q then 0 else if dq = (q + 1) % 4 then 1 else -1

/-- R134–R139, R142: a sample that counts: quadrant `dq` equals q or lies next to it. -/
def EncCh.advance (x : EncCh) (e : EncSet) (c : Corr) (dq : Nat) (idx : Bool) : EncCh × SampleOut :=
  let st := stepOf x.q dq
  let old := 4096 * x.n + 1024 * x.q + x.f
  let edge : Option Int := if st = 1 ∧ x.q = 3 then some (4096 * (x.n + 1)) else if st = -1 ∧ x.q = 0 then some (4096 * x.n) else none
  let n := if st = 1 ∧ x.q = 3 then x.n + 1 else if st = -1 ∧ x.q = 0 then x.n - 1 else x.n
  let y : EncCh := { x with
    n := n
    q := dq
    f := c.phase dq
    held := false
    turned := x.turned || (decide (st ≠ 0) && decide (x.step ≠ 0) && decide (st ≠ x.step))
    step := if st = 0 then x.step else st
    back := if st = 0 then x.back else decide (st < 0) }
  match edge with
  | none => (y, {})
  | some g =>
    let new := 4096 * y.n + 1024 * y.q + y.f
    let part : Nat := if new = old then 250 else (rdivI ((g - old) * (if old < new then 1 else -1) * 250) (new - old).natAbs).toNat
    let m := y.mark (x.now - 250 + min 250 part)
    if !idx || x.posSet then (m.1, { overfreq := m.2 })
    else if e.idxMode = 1 ∨ (e.idxMode = 2 ∧ x.armed) then
      let z := m.1.toPreset g e.preset
      ({ z.1 with armed := z.1.armed && decide (e.idxMode ≠ 2) }, { overfreq := m.2, index := true, jump := some (z.2, x.ref) })
    else (m.1, { overfreq := m.2, index := true })

/-- R131: the index level a code gives: above 50 mV high, below −50 mV low, between them as before. -/
def idxLevel (code : Int) (old : Bool) : Bool := if 409 < code then true else if code < -409 then false else old

/-- R138: one slew step of each field, at most 1 LSB. -/
def slewOne (cur goal : Int) : Int := cur + clampI (-1) 1 (goal - cur)

/-- R140: the first sample after a restart or after MOT was gated: q and f are the sample's; after gating P keeps its value. -/
def EncCh.begin (x : EncCh) (c : Corr) (dq : Nat) : EncCh :=
  { x with
    seen := true, woken := false, q := dq, f := c.phase dq
    ofs := if x.seen then x.pos - (4096 * x.n + 1024 * dq + c.phase dq) else x.ofs }

/-- R133–R142: one sample of a channel: offset-free codes S and C, and the offset-free code of IDX. -/
def EncCh.sample (x : EncCh) (e : EncSet) (sc : Int × Int) (idxCode : Int) : EncCh × SampleOut :=
  let c := e.correct sc
  let a := c.lineA e.hyst x.seen x.a
  let b := c.lineB e.hyst x.seen x.b
  let dq := quadOf a b
  let fresh := !x.seen || x.woken
  let both := !fresh && a != x.a && b != x.b
  let bad := e.ampBad c
  let nb := if bad then min 4 (x.ampBad + 1) else 0
  let ng := if bad then 0 else min 4 (x.ampGood + 1)
  let fault := if x.ampFault then decide (ng < 4) else decide (4 ≤ nb)
  let idx := idxLevel idxCode x.idx
  let cal := match x.cal with | .collect r => if r.periods = 1024 then x.cal else .collect (r.add sc c.r256) | k => k
  let y : EncCh := { x with
    a := a, b := b, idx := idx, ampBad := nb, ampGood := ng, ampFault := fault, amp := min 16383 (c.r256 / 256), cal := cal
    errSince := x.errSince || both || (fault && !x.ampFault)
    held := x.held || both || fault }
  let o : SampleOut := { illegal := both, ampFault := fault && !x.ampFault }
  let r := if fresh then (y.begin c dq, o)
    else if both || fault || (y.held && decide ((dq + 4 - x.q) % 4 = 2)) then (y, o)
    else
      let z := y.advance e c dq idx
      (z.1, { z.2 with illegal := both, ampFault := o.ampFault })
  ({ (if r.1.marks.isEmpty then r.1 else r.1.restAt x.now e.tmo) with posSet := false }, r.2)

/-! ### The web source (R141, R143) -/

/-- R143: the named alternate is usable. -/
def State.altUsable (s : State) : Bool :=
  let a := s.f F.ENC_WEB_SRC_ALT
  s.fb F.ENC_WEB_SRC_ALT_EN && decide (s.f F.ENC_ALT_RATIO_RATIO ≠ 0) && decide (a ≠ s.f F.ENC_WEB_SRC_PRIMARY)
    && s.fb (F.ENC_CFG_EN a) && !s.retired (64 + a)

/-- Channel number of a register field. -/
def chOf (n : Nat) : Fin 4 := ⟨n % 4, by omega⟩

/-- R143: the alternate becomes the web source. -/
def State.useAlt (s : State) : State :=
  s.onEnc fun e => { e with act := chOf (s.f F.ENC_WEB_SRC_ALT), onAlt := true, lost := false, frac := 0 }

/-- R143: a commit of `ENC_SRC` judges the web source afresh; P_web continues without a jump. -/
def State.judgeSource (s : State) : State :=
  let p := s.f F.ENC_WEB_SRC_PRIMARY
  if s.fb (F.ENC_CFG_EN p) && !s.retired (64 + p) then
    s.onEnc fun e => { e with act := chOf p, onAlt := false, lost := false, frac := 0 }
  else if s.altUsable then s.useAlt
  else s.onEnc fun e => { e with lost := true }

/-- R143: ΔP of the web source moves P_web: of the alternate, times RATIO, the fraction carried. -/
def State.moveWeb (s : State) (d : Int) : State :=
  if s.enc.onAlt then
    let t := s.enc.frac + d * s.f F.ENC_ALT_RATIO_RATIO
    s.onEnc fun e => { e with pweb := e.pweb + t / 65536, frac := t % 65536 }
  else s.onEnc fun e => { e with pweb := e.pweb + d }

/-- R139, R143: a jump Δ of the web source's position reaches P_web and line timing, unless the alternate is active. -/
def State.webJump (s : State) (ch : Fin 4) (d : Int) : State :=
  if s.enc.act = ch ∧ !s.enc.onAlt ∧ !s.enc.lost then
    s.onEnc fun e => { e with pweb := e.pweb + d, pmax := e.pmax + d, jump := e.jump + d }
  else s

/-- R132: the position starts on its way to line timing. -/
def State.passSample (s : State) (t : Nat) : State :=
  s.onEnc fun e => { e with fly := e.fly ++ [(t, e.pweb, e.jump)], jump := 0 }

/-- R139: EVT_ENC_IDX_SLIP's argument. -/
def slipArg (d : Int) : Nat := twos 16 (clampI (-32768) 32767 d)

/-! ### Speed (R142) -/

/-- R142: the standstill timeout of channel ch. -/
def State.restCheck (s : State) (ch : Fin 4) : State :=
  s.onCh ch fun x => x.restAt (s.enc.tick * 250) (s.encSet ch.val).tmo

/-- R142: the period boundary the speed uses: sum of the last k periods and k. -/
def EncCh.speedSpan (x : EncCh) (avgLog2 : Nat) : Option (Nat × Nat) :=
  let p := x.marks.length - 1
  let k := min p (2 ^ min 6 avgLog2)
  match x.marks with
  | [] => none
  | t :: _ => if p < x.need ∨ k = 0 then none else some (t - x.marks.getD k 0, k)

/-- R142: SPD_VALID. -/
def EncCh.spdValid (x : EncCh) (avgLog2 : Nat) : Bool := !x.still && (x.speedSpan avgLog2).isSome

/-- R142: the pitch in nm, clamped. -/
def State.encPitch (s : State) (ch : Nat) : Nat := clampN 1000 1000000 (s.f (F.ENC_PITCH_PITCH ch))

/-- R142: `ENC_SPEED` in µm/s. -/
def State.encSpeed (s : State) (ch : Fin 4) : Int :=
  let x := s.enc.ch[ch]
  match x.still, x.speedSpan (s.f (F.ENC_CFG_AVG_LOG2 ch.val)) with
  | false, some (sum, k) =>
    if sum = 0 then 0
    else
      let p := s.encPitch ch.val
      let e := x.now - x.marks.headD 0
      let v := rdivI (k * p * 1000000 : Nat) sum
      let w := if x.period < e then min v (rdivI (p * 1000000 : Nat) e) else v
      if x.timedBack then -w else w
  | _, _ => 0

/-! ### Commands -/

/-- ENCODER_SAMPLE's channel part: the register flags, counters, events and upsets of a sample. -/
def State.sampleFx (s : State) (ch : Fin 4) (o : SampleOut) : State :=
  let s1 := s.when o.illegal fun s => ((s.setF (F.ENC_FLAGS_ILLEGAL ch.val) 1).bump (F.ENC_ILL_CNT_COUNT ch.val)).upset (64 + ch.val)
  let s2 := s1.when o.ampFault fun s => ((s.setF (F.ENC_FLAGS_AMP ch.val) 1).event 0x050 ch.val).upset (64 + ch.val)
  let s3 := s2.when o.overfreq fun s => s.setF (F.ENC_FLAGS_OVERFREQ ch.val) 1
  let s4 := s3.when o.index fun s => s.setF (F.ENC_FLAGS_INDEX ch.val) 1
  match o.jump with
  | some (d, ref) => (s4.when (ref && decide (d ≠ 0)) fun s => s.event 0x051 (slipArg d)).webJump ch d
  | none => s4

/-- R138: the slew of a finished run: every 64 samples each field moves by at most 1 LSB. -/
def State.slewTick (s : State) (ch : Fin 4) : State :=
  match s.enc.ch[ch].cal with
  | .slew so co ga ph n =>
    if n + 1 < 64 then s.onCh ch fun x => { x with cal := .slew so co ga ph (n + 1) }
    else
      let e := s.encSet ch.val
      let v : Int × Int × Int × Int := (slewOne e.so so, slewOne e.co co, slewOne e.gain ga, slewOne e.phase ph)
      let s1 := (((s.setF (F.ENC_CAL_OFS_SIN_OFS ch.val) (twos 14 v.1)).setF (F.ENC_CAL_OFS_COS_OFS ch.val) (twos 14 v.2.1)).setF
        (F.ENC_CAL_GP_GAIN ch.val) v.2.2.1.toNat).setF (F.ENC_CAL_GP_PHASE ch.val) (twos 16 v.2.2.2)
      s1.onCh ch fun x => { x with cal := if v = (so, co, ga, ph) then .none else .slew so co ga ph 0 }
  | _ => s

/-- R141: in `PRINT`, the web source has gone back beyond the limit. -/
def State.reversed (s : State) : Bool :=
  let lim := max 1 (s.f F.ENC_REV_LIMIT_LINES)
  let den := max 1 (s.f F.LTM_PITCH_DEN_DEN)
  decide ((lim * s.f F.LTM_PITCH_NUM : Nat) < (s.enc.pmax - s.enc.pweb) * den)

/-- R131, R132: the instant of channel ch's next sample: the current one if the channel has no sample of it, else the next. -/
def State.instant (s : State) (ch : Fin 4) : Nat := if s.enc.ch[ch].k < s.enc.tick then s.enc.tick else s.enc.tick + 1

/-- R133–R143: a sample of channel ch, up to the position on its way to line timing. -/
def State.encSample (s : State) (ch : Fin 4) (sin cos idx : BitVec 14) : State :=
  let t := s.instant ch
  let x := { s.enc.ch[ch] with k := t }
  let ad := s.enc.adc[ch]
  let r := x.sample (s.encSet ch.val) (sin.toInt - ad.1, cos.toInt - ad.2.1) (idx.toInt - ad.2.2)
  let move := r.1.pos - x.pos - (match r.2.jump with | some (d, _) => d | none => 0)
  let web := decide (s.enc.act = ch) && !s.enc.lost
  let s1 := (s.onEnc fun e => { e with tick := t }).onCh ch fun _ => r.1
  let s2 := if web && x.seen then s1.moveWeb move else s1
  let s3 := (s2.sampleFx ch r.2).slewTick ch
  if web then s3.passSample x.now else s3

/-- R139: POS_SET: P becomes the preset, with REF, and Δ goes to line timing. -/
def State.posSet (s : State) (ch : Fin 4) : State :=
  let x := s.enc.ch[ch]
  let p := (s.encSet ch.val).preset
  let d := p - x.pos
  (s.onCh ch fun x => { x with ofs := x.ofs + d, ref := true, errSince := false, posSet := true }).webJump ch d

/-- `ENC_CMD` of channel ch. -/
def encCmdAddr (ch : Fin 4) : Nat := 0x10011C + ch.val * 0x100

/-- R139: ARM and POS_SET of `ENC_CMD`, which the holder forwards. -/
def State.encFx (s : State) (ch : Fin 4) (w : Word) : State :=
  (s.when (w.getLsbD 0) fun s => s.onCh ch fun x => { x with armed := true }).when
    (w.getLsbD 1 && s.fb (F.ENC_CFG_EN ch.val)) fun s => s.posSet ch

/-- A write of `ENC_CMD`: in `STANDBY` only CAL is a seat's own (R291). -/
def State.encCmd (s : State) (ses : Fin 5) (ch : Fin 4) (w : Word) : State :=
  s.sesCmd ses .installer (encCmdAddr ch) w fun s =>
    if s.inMode .standby && !w.getLsbD 2 then none
    else
      let own := !s.inMode .standby
      let s1 := s.when own fun s => s.encFx ch w
      let s2 := s1.when (w.getLsbD 2 && s1.enc.ch[ch].cal == .none) fun s => s.onCh ch fun x => { x with cal := .collect {} }
      some (if own then s2.fwdWrite ses (encCmdAddr ch) (w &&& 3#32) else s2)

/-- ENC_ARM (R139). -/
def execEncArm (ses : Fin 5) (ch : Fin 4) (s : State) : Host.Outcome State Fault Refusal := .next (s.encCmd ses ch 1)

/-- ENC_POS_SET (R139). -/
def execEncPosSet (ses : Fin 5) (ch : Fin 4) (s : State) : Host.Outcome State Fault Refusal := .next (s.encCmd ses ch 2)

/-- ENC_CAL (R138). -/
def execEncCal (ses : Fin 5) (ch : Fin 4) (s : State) : Host.Outcome State Fault Refusal := .next (s.encCmd ses ch 4)

/-- R138: the values a complete run gives: SIN_OFS, COS_OFS, GAIN, PHASE and RESID; ⟨s·c′⟩ is over the offset-free values.
Values beyond a field's range are clamped to it.  Where an amplitude is 0 the quotient is open: `g` and `p` stand for it. -/
def EncRun.result (r : EncRun) (g p : Nat) : Int × Int × Int × Int × Nat :=
  let so := tdivI (r.maxS + r.minS) 2
  let co := tdivI (r.maxC + r.minC) 2
  let aS2 := r.maxS - r.minS
  let aC2 := r.maxC - r.minC
  let n : Int := r.count
  let prod := r.sumSC * 4 - 2 * (r.maxS + r.minS) * r.sumC - 2 * (r.maxC + r.minC) * r.sumS
    + (r.maxS + r.minS) * (r.maxC + r.minC) * n
  let gain := if aC2 = 0 then (g : Int) else rdivI (32768 * aS2) aC2.natAbs
  let ph := if n * aS2 * aC2 = 0 then (p : Int) else rdivI (32768 * 2 * prod) (n * aS2 * aC2).natAbs
  let dev := max (r.rMax * r.count - r.rSum) (r.rSum - r.rMin * r.count)
  let resid := if r.rSum = 0 then 0 else dev * 65536 * 100000000 / (r.rSum * 628318531)
  (clampI (-8192) 8191 so, clampI (-8192) 8191 co, clampI 1 65535 gain, clampI (-16384) 16384 ph, min 65535 resid)

/-- ENC_CAL_COMPLETE (R138): the run has its 1,024 periods. -/
def State.encCalDone (s : State) (ch : Fin 4) : State :=
  match s.enc.ch[ch].cal with
  | .collect r =>
    if r.periods < 1024 then s
    else
      let v := r.result s.freeNat s.drawn.freeNat
      (((s.drawn.drawn.onCh ch fun x => { x with cal := .slew v.1 v.2.1 v.2.2.1 v.2.2.2.1 0 }).setF (F.ENC_CAL_QUAL_RESID ch.val)
        v.2.2.2.2).setF (F.ENC_CAL_QUAL_COUNT ch.val) (satAdd 16 (s.f (F.ENC_CAL_QUAL_COUNT ch.val)) 1)).setF
        (F.ENC_CAL_TIME_SEC ch.val) (s.tim.sec % 2 ^ 32)
  | _ => s

def execEncCalComplete (ch : Fin 4) (s : State) : Host.Outcome State Fault Refusal := .next (s.live fun s => s.encCalDone ch)

/-- A calibration run on channel ch is abandoned; values in force stay (R138, R145). -/
def State.encCalDrop (s : State) (ch : Fin 4) : State :=
  (s.onCh ch fun x => { x with cal := match x.cal with | .collect _ => .none | c => c }).onChl fun c => { c with
    running := c.running.filter (fun u => u ≠ (1, ch.val)) }

/-- ENC_CAL_TIMEOUT (R138): a run not complete within 60 s is abandoned. -/
def execEncCalTimeout (ch : Fin 4) (s : State) : Host.Outcome State Fault Refusal :=
  .next (s.live fun s => match s.enc.ch[ch].cal with
    | .collect r => if r.periods < 1024 then s.encCalDrop ch else s
    | _ => s)

/-- ENC_STILL_TIMEOUT (R142, R145): it counts once no boundary has been timed for the time `ENC_STILL_TMO` sets. -/
def execEncStillTimeout (ch : Fin 4) (s : State) : Host.Outcome State Fault Refusal := .next (s.live fun s => s.restCheck ch)

/-- R143: the web source after a reset is the primary; where it is still retired the alternate takes over, or LOST is set. -/
def State.sourceRestart (s : State) : State :=
  let p := s.f F.ENC_WEB_SRC_PRIMARY
  let s1 := s.onEnc fun e => { e with act := chOf p, onAlt := false, lost := false, frac := 0 }
  if !s1.retired (64 + p) then s1
  else if s1.altUsable then s1.useAlt
  else s1.onEnc fun e => { e with lost := true }

/-- R140: the channels restart: P at 0, REF and ARMED clear; the web source is the primary again. -/
def State.encRestart (s : State) : State :=
  (s.onEnc fun e => { adc := e.adc, tick := e.tick + 1, pweb := 0 }).sourceRestart

/-- R140: on leaving `IDLE/COLD` REF reads 0; P keeps its value, and the motion meanwhile is not counted. -/
def State.encWake (s : State) : State := s.onEnc fun e => { e with ch := e.ch.map (fun x => { x with ref := false, woken := x.seen }) }

/-- `ENC_CFG`.EN = 0: the channel is held at zero, REF = 0. -/
def State.encOff (s : State) (ch : Fin 4) : State :=
  s.onCh ch fun x => { k := x.k, armed := x.armed }

end Sys2Proof.Machine
end

