-- ==== Sys2Proof/Machine/Fine.lean ====
section
/-! DEFINITION. Line timing's view of the heads, and their fine delays (R153, R154). -/
namespace Sys2Proof.Machine

/-- Bar and head of every enabled head. -/
def State.allHeads (s : State) : List (Fin 8 × Head) := (List.finRange 8).flatMap (fun b => (s.headsOf b.val).map (fun h => (b, h)))

/-- Head index b × 40 + h. -/
def headIdx (b h : Nat) : Nat := b * 40 + h

/-- LTM's view of head i, changed by `f`. -/
def State.onLHead (s : State) (i : Nat) (f : LHead → LHead) : State := s.onLtm fun l => { l with heads := vmodN l.heads i f }

/-- LTM's view of head i. -/
def State.lhead (s : State) (i : Nat) : LHead := vgetD s.ltm.heads i {}

/-- R153: the fine target e_t of a head before it is clamped. -/
def State.fineTarget (s : State) (b : Fin 8) (h : Nat) : Int :=
  let lim : Int := s.f (F.LTM_BAR_TRIM_REG_LIM b.val)
  s.f (F.LTM_HEAD_FINE_FINE (headIdx b.val h)) + s.fi (F.LTM_BAR_TRIM_TRIM b.val) + clampI (-lim) lim s.ltm.trim[b]

/-- R153: e_t of a head. -/
def State.fineGoal (s : State) (b : Fin 8) (h : Nat) : Nat := (clampI 0 63 (s.fineTarget b h)).toNat

/-- R154: the fine delay of a head in force: outside a print it is e_t. -/
def State.eNow (s : State) (b : Fin 8) (h : Nat) : Nat := if s.ltm.armed then (s.lhead (headIdx b.val h)).e else s.fineGoal b h

/-- R153: EVT_FINE_CLAMP when a head begins to clamp. -/
def State.fineOne (s : State) (b : Fin 8) (h : Nat) : State :=
  let i := headIdx b.val h
  let t := s.fineTarget b h
  let c := decide (t < 0) || decide (63 < t)
  (s.when (c && !(s.lhead i).clamped) fun s => s.raise 0x062 b.val i).onLHead i fun x => { x with clamped := c }

/-- R153: every head's target is judged again. -/
def State.fineScan (s : State) : State := s.allHeads.foldl (fun s p => s.fineOne p.1 p.2.h) s

/-- R154: e of every head starts from its target, judged under R153. -/
def State.fineStart (s : State) : State :=
  s.allHeads.foldl (fun s p => (s.fineOne p.1 p.2.h).onLHead (headIdx p.1.val p.2.h) fun x => { x with e := s.fineGoal p.1 p.2.h }) s

/-- R154: one step of e at a line boundary; a decrease needs `dec`.  Second: a decrease waits. -/
def fineStep (e goal : Nat) (dec : Bool) : Nat × Bool :=
  if e < goal then (e + 1, false) else if goal < e then (if dec then (e - 1, false) else (e, true)) else (e, false)

/-- R154: every head's e at a line boundary. -/
def State.fineSteps (s : State) (dec : Bool) : State :=
  let s1 := s.fineScan
  (s1.allHeads).foldl (fun s p =>
    let i := headIdx p.1.val p.2.h
    let r := fineStep (s.lhead i).e (s.fineGoal p.1 p.2.h) dec
    (s.onLHead i fun x => { x with e := r.1 }).onLtm fun l => { l with defer := l.defer || r.2 })
    (s1.onLtm fun l => { l with defer := false })

/-- R153, R154, R156, R157: a commit of NZM_GEOM on bar b: a head now enabled starts afresh, with e at its target; one no longer
enabled clamps nothing. -/
def State.headsNew (s : State) (b : Fin 8) (was : List Nat) : State :=
  let now := (s.headsOf b.val).map (·.h)
  let s1 := (upto 40).foldl (fun s h =>
    if was.contains h && now.contains h then s
    else s.onLHead (headIdx b.val h) fun _ => { e := s.fineGoal b h }) s
  now.foldl (fun s h => s.fineOne b h) s1

end Sys2Proof.Machine
end

