-- ==== Sys2Proof/Machine/Code.lean ====
section
/-! DEFINITION. 8b/10b code groups (R164), injected errors (R190), and the order in which a lane's blocks leave (R177).

PRESUMED (log entry 59): the spec names the code of IEEE 802.3 Clause 36 and does not print it; the sub-block tables and the
negative running disparity a transmitter starts with are that standard's.  A code group has bit a in bit 0, sent first. -/
namespace Sys2Proof.Machine

/-- The n low bits of `v` in reverse order: the tables are written with the bit sent first on the left. -/
def flipBits : Nat → Nat → Nat
  | 0, _ => 0
  | n + 1, v => (v % 2) * 2 ^ n + flipBits n (v / 2)

/-- Ones among the n low bits of `v`. -/
def onesIn : Nat → Nat → Nat
  | 0, _ => 0
  | n + 1, v => v % 2 + onesIn n (v / 2)

/-- The 5b/6b sub-blocks abcdei at negative running disparity. -/
def sixOf : List Nat :=
  [0b100111, 0b011101, 0b101101, 0b110001, 0b110101, 0b101001, 0b011001, 0b111000, 0b111001, 0b100101, 0b010101, 0b110100,
   0b001101, 0b101100, 0b011100, 0b010111, 0b011011, 0b100011, 0b010011, 0b110010, 0b001011, 0b101010, 0b011010, 0b111010,
   0b110011, 0b100110, 0b010110, 0b110110, 0b001110, 0b101110, 0b011110, 0b101011]

/-- The 3b/4b sub-blocks fghj of data at negative running disparity. -/
def fourOf : List Nat := [0b1011, 0b1001, 0b0101, 0b1100, 0b1101, 0b1010, 0b0110, 0b1110]

/-- The 3b/4b sub-blocks fghj of special code groups at negative running disparity. -/
def fourOfK : List Nat := [0b1011, 0b0110, 0b1010, 0b1100, 0b1101, 0b0101, 0b1001, 0b0111]

/-- The running disparity after a sub-block of n bits; `true` is positive. -/
def rdAfter (n v : Nat) (rd : Bool) : Bool := if onesIn n v * 2 = n then rd else decide (n < onesIn n v * 2)

/-- The sub-block abcdei of the low five bits. -/
def sixBits (k : Bool) (x : Nat) (rd : Bool) : Nat :=
  let v := if k && x == 28 then 0b001111 else sixOf.getD x 0
  if rd && (onesIn 6 v != 3 || v == 0b111000) then 63 - v else v

/-- The sub-block fghj of the high three bits, at the running disparity after the first sub-block. -/
def fourBits (k : Bool) (x y : Nat) (rd : Bool) : Nat :=
  if k then (if rd then 15 - fourOfK.getD y 0 else fourOfK.getD y 0)
  else
    let alt := y == 7 && (if rd then x == 11 || x == 13 || x == 14 else x == 17 || x == 18 || x == 20)
    let v := if alt then 0b0111 else fourOf.getD y 0
    if rd && (onesIn 4 v != 2 || v == 0b1100) then 15 - v else v

/-- R164: the code group of a data (`k = false`) or special byte, and the running disparity after it. -/
def codeGroup (k : Bool) (b : Byte) (rd : Bool) : BitVec 10 × Bool :=
  let x := b.toNat % 32
  let y := b.toNat / 32
  let u := sixBits k x rd
  let rd1 := rdAfter 6 u rd
  let v := fourBits k x y rd1
  (BitVec.ofNat 10 (flipBits 6 u + 64 * flipBits 4 v), rdAfter 4 v rd1)

/-- The special bytes of the code. -/
def specials : List Nat := [0x1C, 0x3C, 0x5C, 0x7C, 0x9C, 0xBC, 0xDC, 0xFC, 0xF7, 0xFB, 0xFD, 0xFE]

/-- A code group that stands for some byte at some running disparity. -/
def isCode (g : BitVec 10) : Bool :=
  (List.range 256).any (fun b => (codeGroup false (BitVec.ofNat 8 b) false).1 == g || (codeGroup false (BitVec.ofNat 8 b) true).1 == g)
    || specials.any (fun b => (codeGroup true (BitVec.ofNat 8 b) false).1 == g || (codeGroup true (BitVec.ofNat 8 b) true).1 == g)

/-- R190: the invalid code group an injection sends: the rule names none (a free value among them). -/
def badGroup : BitVec 10 := if isCode Config.invalidGroup then 0 else Config.invalidGroup

/-- The code groups of data bytes from a running disparity. -/
def codeData : List Byte → Bool → List (BitVec 10) × Bool
  | [], rd => ([], rd)
  | b :: t, rd =>
    let g := codeGroup false b rd
    let r := codeData t g.2
    (g.1 :: r.1, r.2)

/-- R164, R165: the 32 code groups of a block: its header symbol, then the data. -/
def Block.groups (b : Block) (rd : Bool) : List (BitVec 10) × Bool :=
  let h := codeGroup true b.hdr rd
  let r := codeData b.body h.2
  (h.1 :: r.1, r.2)

/-- The running disparity before data symbol `p` of a block, numbered from 1. -/
def Block.rdAt (b : Block) (p : Nat) (rd : Bool) : Bool := ((Block.mk b.hdr (b.body.take (p - 1)) none []).groups rd).2

/-- R190: the code groups of a block with an injected error.  The running disparity goes on as without it: the rule does not say
(DESIGN CHOICE, log entry 60). -/
def Inject.groups (i : Inject) (b : Block) (rd : Bool) : List (BitVec 10) :=
  let l := (b.groups rd).1
  let g := l.getD i.pos 0
  match i.kind with
  | 0 => l.set i.pos (g ^^^ BitVec.ofNat 10 (2 ^ i.bit))
  | 1 => l.set i.pos badGroup
  | 2 => l.set i.pos (codeGroup false (b.body.getD (i.pos - 1) 0) (!(b.rdAt i.pos rd))).1
  | _ => l.set 0 (codeGroup false 0 rd).1

/-- R190: the block type an injection names: 1 idle, 2 line data, 3 fire, 4 width, 5 control, 6 training; others 0. -/
def Block.kind (b : Block) : Nat :=
  if b.hdr = 0xBC then 1 else if b.hdr = 0x3C then 2
  else if b.hdr = 0x7C then (if b.body.headD 0 = 0 then 3 else 4)
  else if b.hdr = 0xF7 then 5 else if b.hdr = 0xFB then 6 else 0

/-- R190: an injection is due on a block. -/
def Inject.hits (i : Inject) (b : Block) : Bool := decide (i.left ≠ 0) && (i.blk == 0 || i.blk == b.kind)

/-- R164, R190: a block leaves on a lane: it is coded from the lane's running disparity, and spoiled where an injection is due. -/
def Lane.put (x : Lane) (b : Block) : Lane :=
  let r := b.groups x.rd
  if x.inj.hits b then
    { x with tx := x.tx ++ [{ b with spoiled := some x.inj, code := x.inj.groups b x.rd }], rd := r.2
             inj := { x.inj with left := x.inj.left - 1 } }
  else { x with tx := x.tx ++ [{ b with code := r.1 }], rd := r.2 }

/-- Blocks that leave one after another. -/
def Lane.puts (x : Lane) (l : List Block) : Lane := l.foldl Lane.put x

/-- Blocks of the bring-up, which nothing else contends with. -/
def Lane.send (x : Lane) (l : List Block) : Lane := { x with tx := [] }.puts l

/-! ### What a lane sends first (R177) -/

/-- R177: the first block of the pending set in the order of the rule; the Bool marks a RECORD_END. -/
def Pend.next (p : Pend) : Option (Block × Option Nat × Pend) :=
  match p.fire with
  | b :: t => some (b, none, { p with fire := t })
  | [] =>
    match p.width with
    | b :: t => some (b, none, { p with width := t })
    | [] =>
      match p.recs with
      | r :: t =>
        match r.data with
        | b :: d => some (b, none, { p with recs := { r with data := d } :: t })
        | [] => some (r.fin, some r.line, { p with recs := t })
      | [] =>
        match p.ctl with
        | b :: t => some (b, none, { p with ctl := t })
        | [] => none

/-- Blocks that are pending. -/
def Pend.size (p : Pend) : Nat :=
  p.fire.length + p.width.length + (p.recs.map (fun r => r.data.length + 1)).foldl (· + ·) 0 + p.ctl.length

/-- R172, R177: the block boundary at `b`, of block time `blk`: the first pending block leaves, or an idle block. -/
def Lane.boundary (x : Lane) (idle : Block) (b blk : Rat) : Lane :=
  match x.pend.next with
  | some (k, fin, p) =>
    let y := ({ x with pend := p } : Lane).put k
    { y with ran := b, recEnd := match fin with | some l => some (l, b + blk) | none => x.recEnd }
  | none => { x.put idle with ran := b }

/-- n block boundaries, the first at `b`. -/
def Lane.boundaries (x : Lane) (idle : Block) (blk : Rat) : Nat → Rat → Lane
  | 0, _ => x
  | n + 1, b => (x.boundary idle b blk).boundaries idle blk n (b + blk)

/-- The lane's first block boundary after instant `t`. -/
def Lane.nextAt (x : Lane) (blk t : Rat) : Rat :=
  let o : Rat := (x.phase : Nat) / 10
  o + (((t - o) / blk).floor + 1 : Int) * blk

/-- R177: the block boundaries up to instant `t` pass.  A run of idle blocks is listed once, and as often as injections still
want them (R190). -/
def Lane.runTo (x : Lane) (idle : Block) (blk t : Rat) : Lane :=
  let k := ((x.nextAt blk t - x.nextAt blk x.ran) / blk).floor.toNat
  let p := x.pend.size
  let want := if x.inj.hits idle then max 1 x.inj.left else 1
  let n := if k ≤ p then k else p + min want (k - p)
  { ({ x with tx := [] } : Lane).boundaries idle blk n (x.nextAt blk x.ran) with ran := max x.ran t }

/-- R174: a fire block pending at instant `t` leaves at the next boundary. -/
def Lane.fire (x : Lane) (idle f : Block) (blk t : Rat) : Lane :=
  let y := x.runTo idle blk t
  ({ y with pend := { y.pend with fire := y.pend.fire ++ [f] } } : Lane).boundary idle (y.nextAt blk t) blk

/-- R177: control blocks leave once what is pending before them has left; idle follows (R172). -/
def Lane.control (x : Lane) (idle : Block) (l : List Block) : Lane :=
  let y : Lane := { x with tx := [], pend := { x.pend with ctl := x.pend.ctl ++ l } }
  (y.boundaries idle 0 y.pend.size y.ran).put idle

/-- R186: the lane has nothing left to send but idle. -/
def Lane.idles (x : Lane) (idle : Block) : Lane := ({ x with pend := {}, tx := [] } : Lane).put idle

/-- R186: the record in progress and its RECORD_END leave, then idle. -/
def Lane.finish (x : Lane) (idle : Block) : Lane :=
  ({ x with pend := { recs := x.pend.recs.take 1 } } : Lane).control idle []

/-! ### Eye scans (R191) -/

/-- The longest run of `true`; `k` is the run that ends where the list begins. -/
def longestRun : Nat → List Bool → Nat
  | k, [] => k
  | k, true :: t => longestRun (k + 1) t
  | k, false :: t => max k (longestRun 0 t)

/-- R191: the eye width: the widest run of open phases at zero voltage offset, bit i of `phases` being phase i. -/
def eyeWidth (phases : BitVec 64) : Nat := longestRun 0 ((List.range 64).map phases.getLsbD)

/-- R191: the eye height: the open span at the centre phase in 4 mV points, bit i of `volts` being the offset −256 + 4 × i mV.  The
span is the longest run of open points, each counted as 4 mV (DESIGN CHOICE, log entry 60). -/
def eyeHeight (volts : BitVec 128) : Nat := 4 * longestRun 0 ((List.range 128).map volts.getLsbD)

/-! ### Pattern tests (R189) -/

/-- R189: the degree and the second tap of a PRBS; 0 for a repeated pattern. -/
def RawPat.taps (p : RawPat) : Nat × Nat :=
  match p.pat with | 0 => (7, 6) | 1 => (15, 14) | 2 => (23, 18) | 3 => (31, 28) | _ => (0, 0)

/-- The n low bits of `v`, lowest first. -/
def bitsUp (n v : Nat) : List Bool := (List.range n).map v.testBit

/-- R189: one period of a repeated pattern in the order sent: K28.5 in its two disparity forms, 1010, 1111100000, or the 20 user
bits, bit 0 first. -/
def RawPat.period (p : RawPat) : List Bool :=
  match p.pat with
  | 4 => bitsUp 10 (codeGroup true 0xBC false).1.toNat ++ bitsUp 10 (codeGroup true 0xBC true).1.toNat
  | 5 => bitsUp 2 0b01
  | 6 => bitsUp 10 0b0000011111
  | _ => bitsUp 20 p.user

/-- R189: the bit of the pattern, before INV, that follows the bits `h`, newest first. -/
def RawPat.follow (p : RawPat) (h : List Bool) : Bool :=
  if p.taps.1 = 0 then h.getD (p.period.length - 1) false
  else (h.getD (p.taps.1 - 1) false) != (h.getD (p.taps.2 - 1) false)

/-- R189: `n` more bits of the pattern as the lane sends them, from the bits `h` before them. -/
def RawPat.bits (p : RawPat) : Nat → List Bool → List Bool
  | 0, _ => []
  | n + 1, h => (p.follow h != p.inv) :: p.bits n (p.follow h :: h)

/-- R189: the checker has found the pattern in the bits `h`, newest first.  The rule does not say how it synchronises itself: here,
on one period of a repeated pattern, or on twice the degree of a PRBS (DESIGN CHOICE, log entry 60). -/
def RawPat.found (p : RawPat) (h : List Bool) : Bool :=
  if p.taps.1 = 0 then
    let l := p.period
    (List.range l.length).any (fun k => (l.drop k ++ l.take k).reverse == h.take l.length)
  else decide (2 * p.taps.1 ≤ h.length) && (h.take (2 * p.taps.1)).any (fun b => b) &&
    (List.range p.taps.1).all (fun i => h.getD i false == p.follow (h.drop (i + 1)))

/-- What the checker holds: the pattern's last bits, newest first; synchronised; bits checked and bits in error. -/
structure Checker where
  h : List Bool := []
  sync : Bool := false
  bits : Nat := 0
  errs : Nat := 0
deriving DecidableEq, Repr

/-- R189: one bit received: before synchronisation it joins the bits looked at; after it, it is compared with the pattern. -/
def RawPat.checkBit (p : RawPat) (c : Checker) (b : Bool) : Checker :=
  if c.sync then
    let e := p.follow c.h
    { c with h := (e :: c.h).take 62, bits := c.bits + 1, errs := c.errs + (if e = (b != p.inv) then 0 else 1) }
  else
    let h := ((b != p.inv) :: c.h).take 62
    { c with h := h, sync := p.found h }

/-- R189: the checker over the bits of a test. -/
def RawPat.check (p : RawPat) (rx : List Bool) : Checker := rx.foldl p.checkBit {}

end Sys2Proof.Machine
end

