-- ==== Sys2Proof/Machine/Caravan.lean ====
section
/-! DEFINITION. The Caravan queues' own commands (R56–R66, R358): the mover, stalls, lost event records and dune ring registers.
Entry writes and pointer resets, which reach into the blocks beside a queue, are in Queues.lean. -/
namespace Sys2Proof.Machine


/-- The event queue a queue number is, if it is one. -/
def evtIdx (q : Fin 64) : Option (Fin 4) := if h : 60 ≤ q.val then some ⟨q.val - 60, by omega⟩ else none

/-- R58, R59: an entry offered by the producer of queue q, whose records are dropped (events) or which stalls and holds it.  While
the producer holds an entry it offers no other. -/
def State.qOffer (s : State) (q : Fin 64) (e : Entry) : State :=
  if s.cvq[q].held.isSome then s
  else
    match e, evtIdx q with
    | .evt r, some i => s.evtPut i r
    | _, _ =>
      let s0 := s.settle q
      if s0.tailRoom q then s0.qPut q e else s0.onQ q (fun qu => { qu with held := some e })

/-- The oldest crest entry of a queue. -/
def State.qHead (s : State) (q : Fin 64) : Option Entry := s.cvq[q].crest.head?

/-- R58: the consumer frees the oldest crest entry. -/
def State.qFree (s : State) (q : Fin 64) : State := s.onQ q (fun qu => { qu with crest := qu.crest.drop 1 })

/-- The print lines of the lane records a queue holds. -/
def laneLines : List Entry → List Nat
  | [] => []
  | .lane r :: t => r.line :: laneLines t
  | _ :: t => laneLines t

/-- The bytes of the payload chunks a queue holds. -/
def chunksOf : List Entry → List (List Byte)
  | [] => []
  | .chunk b :: t => b :: chunksOf t
  | _ :: t => chunksOf t

/-- The archive pieces a queue holds. -/
def archsOf : List Entry → List ArchPiece
  | [] => []
  | .arch p :: t => p :: archsOf t
  | _ :: t => archsOf t

/-- Every entry of a queue, oldest first. -/
def Queue.all (qu : Queue) : List Entry := qu.crest ++ qu.dune ++ qu.tail

/-- A queue emptied; the producer's held entry and the count of unreported records stay outside it. -/
def Queue.flush (qu : Queue) : Queue := { qu with crest := [], dune := [], tail := [] }

/-- A queue flushed by a reset or a retirement (R35, R65): the producer's held entry goes with it, and no event is raised. -/
def State.qFlush (s : State) (q : Fin 64) : State := s.onQ q (fun qu => { qu.flush with held := none })

/-- A run record added to a job's trailer list (R84), joined to the run before it when it continues it. -/
def addRun (l : List Run) (bar line status : Nat) : List Run :=
  match l with
  | r :: t =>
    if r.bar = bar ∧ r.status = status ∧ pl (r.first + r.count) = pl line then { r with count := r.count + 1 } :: t
    else { bar := bar, first := line, count := 1, status := status } :: r :: t
  | [] => [{ bar := bar, first := line, count := 1, status := status }]

/-- A run record of status `st` covers a line of a bar. -/
def runCovers (l : List Run) (st b line : Nat) : Bool :=
  l.any (fun r => r.bar = b ∧ r.status = st ∧ lineDist r.first line < r.count)

/-- R64: the lines whose screened data an archive queue lost are marked UNARCHIVED (status 2), each line of a bar once. -/
def State.markLost (s : State) : List ArchPiece → State
  | [] => s
  | p :: t =>
    (s.modJob p.tag (fun j =>
      if runCovers j.runs 2 p.bar p.line then j
      else { j with runs := addRun j.runs p.bar p.line 2 })).markLost t


/-- MOVER_TRANSFER (R58, R60). -/
def execMoverTransfer (q : Fin 64) (s : State) : Host.Outcome State Fault Refusal :=
  .next (s.live fun s => s.moveOne q)

/-- R67: payload may be pulled: the host lets the QP820 be bus master; a seat in `STANDBY` takes what is forwarded (R68). -/
def State.pulls (s : State) : Bool := s.ing.bme || s.inMode .standby

/-- R59: the held entry, or the next payload chunk of an ingest ring, is written once a slot is free. -/
def State.resume (s : State) (q : Fin 64) : State :=
  if !s.tailRoom q then s
  else match s.cvq[q].held with
    | some e => (s.onQ q (fun qu => { qu with held := none })).qPut q e
    | none =>
      if h : 40 ≤ q.val ∧ q.val < 48 then
        let r : Fin 8 := ⟨q.val - 40, by omega⟩
        match s.ing.rings[r].pull with
        | [] => s
        | c :: t =>
          if !s.pulls then s else (s.onIng fun g => { g with rings := vmod g.rings r (fun x => { x with pull := t }) }).qPut q (.chunk c)
      else s

/-- EVQ_LOST_INSERT (R59). -/
def execEvqLostInsert (i : Fin 4) (s : State) : Host.Outcome State Fault Refusal :=
  .next (s.live fun s => s.evqLost i)


/-- R66: whether the dune ring of queue q lies within CAP, tested at each write and whenever CAP changes. -/
def State.ringTest (s : State) (q : Fin 64) : State :=
  let sz := min 1024 (s.f (F.CVQ_DUNE_SIZE_SIZE q))
  let bad := decide (s.f F.MEM_CAP_MIB < s.f (F.CVQ_DUNE_BASE_BASE q) + sz) && decide (sz ≠ 0)
  s.onQ q fun qu => { qu with ringBad := bad }

/-- The dune ring register a DUNE_RING_WRITE names. -/
def duneFld (q : Fin 64) (size : Bool) : Fld := if size then F.CVQ_DUNE_SIZE_SIZE q else F.CVQ_DUNE_BASE_BASE q

/-- R66: a dune ring register written, and its ring tested again.  Entries the dune holds stay in the queue (DESIGN CHOICE, log
entry 58: the spec names none of them). -/
def State.duneFx (s : State) (q : Fin 64) (size : Bool) (data : Word) : State := (s.setF (duneFld q size) data.toNat).ringTest q

/-- R66: a dune ring register accepts a write only in `IDLE/WARM` or `HALT`. -/
def State.duneWrite (s : State) (ses : Fin 5) (q : Fin 64) (size : Bool) (data : Word) : State :=
  let f := duneFld q size
  s.sesWriteBy ses .installer f.addr data fun s =>
    if s.idleWarm || s.inMode .halt then
      let t := s.duneFx q size data
      some ((t.auditWrite ses f.addr (s.word f).toNat (t.word f).toNat).forward
        (.write ses.val ((s.roleOf ses).getD .installer) f.addr data (s.lineOf 0)))
    else none

/-- DUNE_RING_WRITE (R66). -/
def execDuneRingWrite (ses : Fin 5) (q : Fin 64) (size : Bool) (data : Word) (s : State) :
    Host.Outcome State Fault Refusal :=
  .next (s.duneWrite ses q size data)

end Sys2Proof.Machine
end

