-- ==== Sys2Proof/Machine/Screen.lean ====
section
/-! DEFINITION. From a composed line to lane records (R112–R129): tone curves and offsets, correction, stitching, nozzles
out, screening and packing. -/
namespace Sys2Proof.Machine

/-- R113: a value of a format through a tone curve whose knots `k` gives. -/
def toneMap (k : Nat → Nat) (fmt v : Nat) : Nat :=
  let u := if fmt = 1 ∨ fmt = 3 then v * 257 else v
  let i := u / 64
  let f := u % 64
  (k i * (64 - f) + k (i + 1) * f + 32) / 64

/-- The tone function of a bar: curve, format, value. -/
def Bar.toneFn (x : Bar) (curve fmt v : Nat) : Nat :=
  toneMap (fun i => (rget x.tone (curve * 2048 + i)).toNat % 4096) fmt v

/-- R115: the tone offset added to a composed value. -/
def toneOfs (o : Nat → Int) (v : Nat) : Nat :=
  if v = 0 then 0
  else
    let i := v / 256
    let f : Int := (v % 256 : Nat)
    (clampI 0 4095 ((v : Int) + (o i * (256 - f) + o (i + 1) * f + 128) / 256)).toNat

/-- R116: a knot in force one line later. -/
def knotStep (slew : Nat) (now goal : Int) : Int :=
  if slew = 0 then goal else now + clampI (-slew) slew (goal - now)

/-- R117: fields of a correction entry. -/
def eGain (w : Word) : Nat := bits w.toNat 0 14
def eOfs (w : Word) : Int := sgn 12 (bits w.toNat 14 12)
def eOutLo (w : Word) : Bool := w.getLsbD 26
def eOutHi (w : Word) : Bool := w.getLsbD 27

/-- The word of GAIN and OFFSET, flags clear. -/
def eWord (gain : Nat) (ofs : Int) : Word := BitVec.ofNat 32 (gain % 16384 + twos 12 ofs * 16384)

/-- GAIN and OFFSET of `e` under the out flags of `w`. -/
def eMerge (w e : Word) : Word := (w &&& 0x0C000000#32) ||| (e &&& 0x03FFFFFF#32)

/-- R118: gain and offset applied. -/
def correct (w : Word) (v1 : Nat) : Nat :=
  if v1 = 0 then 0 else (clampI 0 4095 (((v1 * eGain w + 4096) / 8192 : Nat) + eOfs w)).toNat

/-- R123: the random value of a column on a job line. -/
def seamRand (c j : Nat) : Nat := (c * 0x9E37 + j % 2 ^ 32 * 0x7F4B) % 2 ^ 32 / 16 % 4096

/-- R123: the higher-numbered head prints overlap offset `o` of column `c` on job line `j`. -/
def seamHi (pos width o c j : Nat) : Bool :=
  let lo : Int := (pos : Int) - (width / 2 : Nat)
  if (o : Int) < lo then false
  else if lo + width ≤ o then true
  else decide ((seamRand c j : Int) < ((o : Int) - lo) * 4096 / width)

/-- R123, R124: the head that prints column `c` of job line `j`, and whether the column is out. -/
def choose (pos width : Nat → Nat) (hs : List Head) (inf : RegMap) (j c : Nat) : Nat × Bool :=
  let w := rget inf c
  match coverers hs c with
  | [] => (40, false)
  | [h] => (h.h, eOutLo w)
  | a :: b :: _ =>
    let ov := a.start + a.n - b.start
    let hi := seamHi (min (pos a.h) ov) (width a.h) (c - b.start) c j
    match hi, eOutLo w, eOutHi w with
    | false, false, _ => (a.h, false)
    | false, true, false => (b.h, false)
    | false, true, true => (a.h, true)
    | true, _, false => (b.h, false)
    | true, false, true => (a.h, false)
    | true, true, true => (b.h, true)

/-- R124: the columns a bar counts as out. -/
def State.outCount (s : State) (b : Fin 8) : Nat :=
  let hs := s.headsOf b.val
  ((upto (colsOf hs)).filter (fun c =>
    let w := rget s.bars[b].inf c
    match coverers hs c with
    | [] => false
    | [_] => eOutLo w
    | _ => eOutLo w && eOutHi w)).length

/-- R125: what out columns give their neighbours: `v` values, `out` flags, a column to the left and right of each. -/
def spread (nbGain : Nat) (v : List Nat) (out : List Bool) : List Nat :=
  let share := (v.zip out).map (fun p => if p.2 then (p.1 * nbGain + 128) / 256 else 0)
  let fromRight := share.drop 1 ++ [0]
  let fromLeft := 0 :: share
  ((v.zip out).zip (fromRight.zip fromLeft)).map (fun p =>
    if p.1.2 then 0 else min 4095 (p.1.1 + p.2.1 + p.2.2))

/-- Steps 4 and 5 (R125, R126): contributions `add` taken in, out columns spread or dropped. -/
def compensate (comp : Word) (add : Nat → Nat) (v2 : List Nat) (out : List Bool) : List Nat :=
  let v3 := v2.zipIdx.map (fun p => min 4095 (p.1 + add p.2))
  if comp.getLsbD 0 then spread (bits comp.toNat 8 8) v3 out
  else (v3.zip out).map (fun p => if p.2 then 0 else p.1)

/-- R127: the level of value `v` in a three-threshold cell. -/
def level3 (t1 t2 t3 v : Nat) : Nat :=
  (if t1 < v then 1 else 0) + (if t2 < v then 1 else 0) + (if t3 < v then 1 else 0)

/-- R127: the level of value `v` in a single-threshold cell. -/
def level1 (t v : Nat) : Nat := 3 * v / 4096 + (if t < 3 * v % 4096 then 1 else 0)

/-- R127, R128: the level of value `v` at cell (x, y) of a matrix W columns wide. -/
def levelAt (m : RegMap) (fmt1 : Bool) (w x y v : Nat) : Nat :=
  let i := y * w + x
  if fmt1 then level1 (bits (rget m (i / 2)).toNat (16 * (i % 2)) 12) v
  else
    let a := (rget m (2 * i)).toNat
    level3 (bits a 0 12) (bits a 16 12) (bits (rget m (2 * i + 1)).toNat 0 12) v

/-- R129: bytes of levels, four to a byte, first level lowest. -/
def packLevels : List Nat → List Byte
  | a :: b :: c :: d :: t => BitVec.ofNat 8 (a % 4 + 4 * (b % 4) + 16 * (c % 4) + 64 * (d % 4)) :: packLevels t
  | _ => []

/-- R129: the level of a head's position `p`: `lev` gives head and level by column. -/
def Head.levelOf (h : Head) (lev : Nat → Nat × Nat) (p : Nat) : Nat :=
  let per := h.n / h.rows
  let k := if h.grouped then p % per * h.rows + p / per else p
  let c := if h.mirror then h.start + h.n - 1 - k else h.start + k
  let e := lev c
  if e.1 = h.h then e.2 else 0

/-- R129: the head record. -/
def Head.record (h : Head) (lev : Nat → Nat × Nat) : List Byte := packLevels ((upto h.n).map (h.levelOf lev))

/-- R57, R129: a record padded with zero bytes to a multiple of 64. -/
def pad64 (l : List Byte) : List Byte := l ++ List.replicate (cdiv l.length 64 * 64 - l.length) 0

/-- R129: the lane record of slice `k`; none where the slice carries no enabled head. -/
def laneRecord (hs : List Head) (lev : Nat → Nat × Nat) (k : Nat) : Option (List Byte) :=
  match hs.filter (fun h => h.h / 8 = k) with
  | [] => none
  | l => some (pad64 (l.flatMap (fun h => h.record lev)))

end Sys2Proof.Machine
end

