-- ==== Sys2Proof/Machine/Raster.lean ====
section
/-! DEFINITION. The bar engines' commands (R87–R130): composing a line, the slewer, the correction, tone-curve and matrix
windows. -/
namespace Sys2Proof.Machine

/-! ### Correction tables (R117–R121) -/

/-- Block b marked dirty. -/
def Bar.mark (x : Bar) (blk : Nat) : Bar :=
  { x with
    dirty := if x.dirty.contains blk then x.dirty else x.dirty ++ [blk]
    flight := x.flight.map (fun f => if f.block = blk then { f with touched := true } else f) }

/-- R119: a window write reaches the target; out flags reach the in-force table at the same moment. -/
def Bar.winPut (x : Bar) (col : Nat) (w : Word) : Bar :=
  let e := w &&& 0x0FFFFFFF#32
  ({ x with
    tgt := rset x.tgt col e
    inf := rset x.inf col (eMerge e (rget x.inf col)) }).mark (col / 1024)

/-- R119: the colour hold unit writes GAIN and OFFSET of a target entry. -/
def Bar.holdPut (x : Bar) (col : Nat) (e : Nat) : Bar :=
  ({ x with tgt := rset x.tgt col (eMerge (rget x.tgt col) (BitVec.ofNat 32 e)) }).mark (col / 1024)

/-- R238: OUT_LO set through the path of R119, without slewing. -/
def Bar.autoPut (x : Bar) (col : Nat) : Bar :=
  { x with tgt := rset x.tgt col (rget x.tgt col ||| 0x04000000#32), inf := rset x.inf col (rget x.inf col ||| 0x04000000#32) }

/-- R120: one field moved towards its target by at most the slew limit; 0: no limit. -/
def slewTo (lim : Nat) (cur goal : Int) : Int := if lim = 0 then goal else cur + clampI (-lim) lim (goal - cur)

/-- R120: an entry one visit on. -/
def slewEntry (sg so : Nat) (cur goal : Word) : Word :=
  eWord (slewTo sg (eGain cur) (eGain goal)).toNat (slewTo so (eOfs cur) (eOfs goal))

/-- Columns of a block. -/
def blockCols (cols blk : Nat) : List Nat := ((upto 1024).map (fun i => blk * 1024 + i)).filter (fun c => c < cols)

/-- R120: the slewer's visit on print line n. -/
def Bar.visit (x : Bar) (cols sg so n : Nat) : Bar :=
  let blk := n % cdiv cols 1024
  if cols = 0 ∨ !x.dirty.contains blk then x
  else
    let vals := (blockCols cols blk).foldl (fun m c => rset m c (slewEntry sg so (rget x.inf c) (rget x.tgt c))) []
    { x with flight := x.flight ++ [{ block := blk, due := pl (n + 16), vals := vals }] }

/-- R120: the results of a visit written into the in-force table, and the dirty mark cleared where the block is level. -/
def Bar.writeback (x : Bar) (cols : Nat) (f : Flight) : Bar :=
  let cs := blockCols cols f.block
  let inf := cs.foldl (fun m c => rset m c (eMerge (rget m c) (rget f.vals c))) x.inf
  let level := cs.all (fun c => (rget inf c &&& 0x03FFFFFF#32) == (rget x.tgt c &&& 0x03FFFFFF#32))
  { x with
    inf := inf
    flight := x.flight.drop 1
    dirty := if level && !f.touched then x.dirty.filter (· ≠ f.block) else x.dirty }

/-- R121: with no job bound a dirty block takes its target. -/
def Bar.takeTarget (x : Bar) (cols blk : Nat) : Bar :=
  if x.dirty.contains blk then
    { x with
      inf := (blockCols cols blk).foldl (fun m c => rset m c (eMerge (rget m c) (rget x.tgt c))) x.inf
      flight := x.flight.filter (fun f => f.block ≠ blk)
      dirty := x.dirty.filter (· ≠ blk) }
  else x

/-! ### Which line a bar composes (R150, R357) -/

/-- R150: the first print line of each bound job that has become known. -/
def fixStarts (len : BJob → Option Nat) : Option (Nat × Option Nat) → List BJob → List BJob
  | _, [] => []
  | prev, j :: t =>
    let st := match j.start, prev with
      | some x, _ => some x
      | none, some (x, some n) => some (pl (x + n + j.gap))
      | none, _ => none
    { j with start := st } :: fixStarts len (st.map (fun x => (x, len j))) t

/-- Every bound job's first print line, as far as the lengths are known. -/
def State.settleStarts (s : State) : State := s.onJobs (fixStarts s.linesOf none)

/-- A bound job is composed in the states BOUND and PRINTING (R76). -/
def State.composes (s : State) (j : BJob) : Bool := s.jobSt j.handle == .bound || s.jobSt j.handle == .printing

/-- The job whose lines bar b composes next. -/
def State.curJob (s : State) (b : Fin 8) : Option BJob :=
  s.sys.jobs.find? (fun j => j.bars.getLsbD b.val && s.composes j && j.start.isSome &&
    (match s.linesOf j with | some n => decide (j.done[b] < n) | none => true))

/-- The print line bar b begins next. -/
def State.nextPrint (s : State) (b : Fin 8) : Option Nat :=
  match s.curJob b with
  | some j => j.start.map (fun st => pl (st + j.done[b]))
  | none => none

/-- The print line bar b works on: the one that waits for its sideband, else the next. -/
def State.barPos (s : State) (b : Fin 8) : Option Nat :=
  match s.bars[b].mid with
  | some m => some m.line
  | none => s.nextPrint b

/-- The engine of bar b may work: clocked, and in a mode that fills or drains the lane queues (R24, R68). -/
def State.engineOn (s : State) : Bool :=
  !s.thm.gated && (s.inMode .ready || s.inMode .print ||
    (s.inMode .standby && !s.sys.cold && (s.sys.shadow == .ready || s.sys.shadow == .print)))

/-! ### Queues of the engine (R59, R129) -/

/-- One entry of the engine's line put into its queue if that has room. -/
def State.pumpOne (s : State) (e : Nat × Entry) : State × Bool :=
  if h : e.1 < 64 then
    let q : Fin 64 := ⟨e.1, h⟩
    let s0 := s.settle q
    if s0.tailRoom q && s0.cvq[q].held.isNone then (s0.qPut q e.2, true) else (s0, false)
  else (s, true)

/-- The entries of a line put into their queues in order; an entry that finds no room keeps its place, and so do later
entries of its queue (R59). -/
def State.pumpList (s : State) : List (Nat × Entry) → List Nat → State × List (Nat × Entry)
  | [], _ => (s, [])
  | e :: t, full =>
    if full.contains e.1 then
      let r := s.pumpList t full
      (r.1, e :: r.2)
    else
      let p := s.pumpOne e
      if p.2 then p.1.pumpList t full
      else
        let r := p.1.pumpList t (e.1 :: full)
        (r.1, e :: r.2)

/-- Bar b's line put into its queues as far as they have room. -/
def State.pump (s : State) (b : Fin 8) : State :=
  let r := s.pumpList s.bars[b].outQ []
  r.1.onBar b fun x => { x with outQ := r.2 }

/-! ### What a line needs (R95–R98) -/

/-- What a slot shows on a line: the placement, what is awaited, what is a bad reference. -/
structure SlotNeed where
  slot : Nat := 0
  obj : Nat := 0xFFFF
  fromRec : Bool := false
  mode : Nat := 0
  first : Int := 0
  wait : Option Nat := none
  bad : Option Nat := none
deriving DecidableEq, Repr

/-- R97, R98: slot `s` on job line `l` of bar `b`. -/
def Job.slotNeed (j : Job) (d : OBytes) (cols b l s : Nat) : SlotNeed :=
  match j.inForce d cols b s l with
  | none => { slot := s }
  | some p =>
    if p.empty then { slot := s, fromRec := true }
    else
      let n : SlotNeed := { slot := s, obj := p.obj, fromRec := p.fromRec, mode := (slotDef d b s).mode % 4, first := p.first }
      match j.usable p.obj with
      | none => { n with wait := some p.obj }
      | some o =>
        if !(o.cls == 1 && slotTakes s (lFormat o.bytes)) then { n with obj := 0xFFFF, bad := some p.obj }
        else if lMap o.bytes = 0xFFFF then n
        else match j.usable (lMap o.bytes) with
          | none => { n with wait := some (lMap o.bytes) }
          | some m => if m.cls = 2 ∧ mapFits o.bytes m.bytes then n else { n with bad := some (lMap o.bytes) }

/-- R97: the Ace layer of the job, slot 12. -/
def Job.aceNeed (j : Job) (d : OBytes) : SlotNeed :=
  if dAce d = 0xFFFF then { slot := 12 }
  else match j.usable (dAce d) with
    | none => { slot := 12, obj := dAce d, wait := some (dAce d) }
    | some o => if o.cls = 16 then { slot := 12, obj := dAce d } else { slot := 12, bad := some (dAce d) }

/-- Everything job line `l` needs on bar `b` of `cols` columns. -/
def Job.needs (j : Job) (d : OBytes) (cols b l : Nat) : List SlotNeed :=
  (upto 12).map (j.slotNeed d cols b l) ++ [j.aceNeed d]

/-- R96: a record set covering the line's repeat is needed and not usable. -/
def Job.uncovered (j : Job) (d : OBytes) (l : Nat) : Bool := (j.streaming || dVdReq d) && !j.covered (repeatOf d l)

/-- The object awaited first; 0xFFFF for a record set (R98). -/
def Job.awaited (j : Job) (d : OBytes) (cols b l : Nat) : Option Nat :=
  if j.uncovered d l then some 0xFFFF else (j.needs d cols b l).findSome? (·.wait)

/-- `LYR_SLOT_STAT` of bar b; `objs`: the wait is for objects, not for a record set (R98). -/
def State.slotStat (s : State) (b : Fin 8) (objs : Bool) (ns : List SlotNeed) : State :=
  ns.foldl (fun s n =>
    (((s.setF (F.LYR_SLOT_STAT_OBJ b.val n.slot) n.obj).setF (F.LYR_SLOT_STAT_WAIT b.val n.slot)
      (if objs && n.wait.isSome then 1 else 0)).setF (F.LYR_SLOT_STAT_RECORD b.val n.slot)
      (if n.fromRec then 1 else 0)).setF (F.LYR_SLOT_STAT_MODE b.val n.slot) n.mode) s

/-- `LYR_JOB`, `LYR_LINE` and `LYR_REPEAT` of bar b. -/
def State.lineStat (s : State) (b : Fin 8) (h : BitVec 16) (l rep : Nat) : State :=
  ((((s.setF (F.LYR_JOB_HANDLE b.val) h.toNat).setF (F.LYR_LINE_LO_LINE b.val) (l % 2 ^ 32)).setF
    (F.LYR_LINE_HI_LINE b.val) (l / 2 ^ 32)).setF (F.LYR_REPEAT_REPEAT b.val) rep).onBar b fun x => { x with job := h, line := l }

/-- R98: a wait on print line n for an object: counted once per line, EVT_LYR_WAIT on the first line of each wait. -/
def State.layerWait (s : State) (b : Fin 8) (n obj : Nat) : State :=
  let x := s.bars[b]
  let s1 := if x.waitLine = some n then s else s.bump (F.LYR_WAIT_CNT_COUNT b.val)
  let s2 := if x.waitObj = some obj ∧ x.waitLine = some n then s1 else s1.raise 0x040 b.val obj
  s2.onBar b fun x => { x with waitLine := some n, waitObj := some obj }

/-- R97: the bad references of a line, each raised once per placement. -/
def State.badRefs (s : State) (b : Fin 8) (ns : List SlotNeed) : State :=
  ns.foldl (fun s n =>
    match n.bad with
    | none => s
    | some o =>
      if vgetD s.bars[b].bad n.slot none = some (n.first, o) then s
      else ((s.raise 0x041 b.val o).bump (F.LYR_BADREF_CNT_COUNT b.val)).onBar b fun x =>
        { x with bad := vsetN x.bad n.slot (some (n.first, o)) }) s

/-! ### Beginning a line (R112–R126) -/

/-- R116: the knots in force at the start of print line n, after the colour hold unit's knots have replaced committed ones;
its acts are forwarded with the line at which they took effect (R237). -/
def State.knotsOn (s : State) (b : Fin 8) (n : Nat) : State :=
  let s1 := s.bars[b].knotQ.foldl (fun s k =>
    (s.setF (F.TON_OFS_OFS b.val k.1) (twos 12 k.2)).forward (.hold (.knot b.val k.1 k.2) n)) s
  s1.onBar b fun x => { x with
    knotQ := []
    oNow := Vector.ofFn (fun (i : Fin 17) => knotStep (s1.f (F.TON_SLEW_STEP b.val)) x.oNow[i] (s1.fi (F.TON_OFS_OFS b.val i.val))) }

/-- R116: with no job bound the knots in force equal the committed ones. -/
def State.knotsFree (s : State) (b : Fin 8) : State :=
  s.onBar b fun x => { x with oNow := Vector.ofFn (fun (i : Fin 17) => s.fi (F.TON_OFS_OFS b.val i.val)) }

/-- A table window address in a forwarding record, with the bar it was written for. -/
def winAddr (b : Fin 8) (a : Nat) : Nat := a + b.val * 2 ^ 24

/-- R236: a window write that dirties a block clears the accumulators of its columns, and the block takes a new settle line. -/
def State.columnWritten (s : State) (b : Fin 8) (col : Nat) : State :=
  let keep := fun (m : RegMap) => rfilter (fun c => c / 1024 != col / 1024) m
  s.onChl fun c => { c with
    colE := vmod c.colE b keep
    colN := vmod c.colN b keep
    run := vmod c.run b keep
    blkWait := vmod c.blkWait b (fun l => if l.contains (col / 1024) then l else l ++ [col / 1024]) }

/-- R119: colour-hold entries and then window writes reach the target at the start of a line; window writes are forwarded
with the line index at which they took effect. -/
def State.targetsOn (s : State) (b : Fin 8) (n : Nat) : State :=
  let w := s.bars[b].winQ
  let s1 := s.onBar b fun x =>
    let y := x.autoQ.foldl Bar.autoPut (x.holdQ.foldl (fun x e => x.holdPut e.1 e.2) x)
    { w.foldl (fun x e => x.winPut e.1 e.2.1) y with winQ := [], holdQ := [], autoQ := [] }
  let s2 := s.bars[b].holdQ.foldl (fun s e => s.forward (.hold (.gain b.val e.1 e.2) n)) s1
  let s3 := s.bars[b].autoQ.foldl (fun s c => s.forward (.hold (.out b.val c) n)) s2
  w.foldl (fun s e =>
    (s.forward (.write e.2.2.1 e.2.2.2 (winAddr b (0x400000 + 4 * e.1)) e.2.1 n)).columnWritten b e.1) s3

/-- R126: bar b is a donor under the NZM_COMP word `comp`: its substitute bar. -/
def State.subOf (s : State) (b : Nat) (comp : Word) : Option (Fin 8) :=
  let t := bits comp.toNat 24 3
  if h : t < 8 then
    if comp.getLsbD 1 && decide (t ≠ b) && s.hasHeads t then some ⟨t, h⟩ else none
  else none

/-- `NZM_COMP` in force on bar b. -/
def State.compWord (s : State) (b : Nat) : Word := s.word (F.NZM_COMP_MODE b)

/-- R126: the bars whose `NZM_COMP` in force gives ink to bar b. -/
def State.donorsOf (s : State) (b : Fin 8) : List (Fin 8) :=
  (List.finRange 8).filter (fun d => d ≠ b ∧ s.subOf d.val (s.compWord d.val) = some b ∧ s.hasHeads d.val)

/-- R126: donor d has written its entry for line `m` of bar b, or has begun or passed that line without one. -/
def State.donorReady (s : State) (b : Fin 8) (m : MidLine) (d : Fin 8) : Bool :=
  s.bars[d].side.any (fun e => e.line = m.line ∧ e.sub = b.val) ||
    (match s.bars[d].mid with | some k => decide (k.line = m.line) | none => false) ||
    (match s.sys.jobs.find? (fun j => j.handle = m.handle) with
     | some j => !j.bars.getLsbD d.val || decide (m.job < j.done[d])
     | none => true)

/-- R126: the contributions of a donor to bar b at print line n and column c. -/
def Bar.gives (x : Bar) (b n c : Nat) : Nat :=
  ((x.side.filter (fun e => e.line = n ∧ e.sub = b)).map (fun e =>
    ((e.cols.filter (fun p => p.1 = c)).map (fun p => (p.2 * e.gain + 128) / 256)).foldl (· + ·) 0)).foldl (· + ·) 0

/-- R102, R103, R110: the bytes fetched and not fetched on a line are counted in whole MiB. -/
def State.countFetch (s : State) (b : Fin 8) (got skip : Nat) : State :=
  let x := s.bars[b]
  let a := x.fetchRem + got
  let k := x.skipRem + skip
  let s1 := (s.bumpBy (F.LYR_FETCH_MIB_MIB b.val) (a / 1048576)).bumpBy (F.LYR_SKIP_MIB_MIB b.val) (k / 1048576)
  ((s1.onBar b fun x => { x with lastF := got, fetchRem := a % 1048576, skipRem := k % 1048576 }).onFlt fun t =>
    { t with telFetch := vmod t.telFetch b (· + got) }).peak (F.LYR_FETCH_PEAK_BYTES b.val) got

/-- Steps 1 to 3 of R112 and the donor's part of step 4, with the tables in force at the line's start. -/
def State.beginLine (s : State) (b : Fin 8) (bj : BJob) (j : Job) (d : OBytes) (l n : Nat) : State :=
  let s1 := (s.targetsOn b n).knotsOn b n
  let hs := s1.headsOf b.val
  let cols := colsOf hs
  let x := s1.bars[b]
  let dirty := x.dirty.contains (n % cdiv cols 1024)
  let ace := if dAce d = 0xFFFF then none
    else match j.usable (dAce d) with | some o => if o.cls = 16 then some o.bytes else none | none => none
  let comp := s1.compWord b.val
  let v2 := (upto cols).map (fun c =>
    correct (rget x.inf c) (toneOfs (fun i => vgetD x.oNow i 0) (j.composeAt d ace x.toneFn cols b.val l c)))
  let ch := (upto cols).map (choose (fun h => s1.f (F.NZM_SEAM_POS b.val h)) (fun h => s1.f (F.NZM_SEAM_WIDTH b.val h)) hs x.inf l)
  let out := ch.map (·.2)
  let outCols := ((v2.zip out).zipIdx.filter (fun p => p.1.2)).map (fun p => (p.2, p.1.1))
  let sub := s1.subOf b.val comp
  let m : MidLine := { line := n, job := l, handle := bj.handle, v2 := v2, out := out, pick := ch.map (·.1), comp := comp }
  let s2 := s1.onBar b fun y => { (y.visit cols (s1.f (F.NZM_SLEW_SLEW_G b.val)) (s1.f (F.NZM_SLEW_SLEW_O b.val)) n) with
    mid := some m
    subOvf := sub.isSome && decide (64 < outCols.length)
    side := match sub with
      | some t => if bj.done[t] ≤ l then
          y.side ++ [{ line := n, sub := t.val, gain := bits comp.toNat 16 8, cols := outCols.take 64 }] else y.side
      | none => y.side }
  let f := j.fetchOf d ace cols b.val l (s1.fb (F.LYR_CTL_SKIP_EN b.val))
  s2.countFetch b (f.1 + (if dirty then 4096 else 0)) f.2

/-! ### Finishing a line (R126–R129, R96, R98) -/

/-- R77, R96, R98: an object of a streaming job past its last use line, or a record set past its last repeat, is freed. -/
def Job.past (j : Job) (l : Nat) (o : Obj) : Bool :=
  decide (o.st = 2) && !o.freed &&
    (if o.cls = 1 then j.streaming && decide (lLastUse o.bytes ≠ 0xFFFFFFFFFFFF) && decide (lLastUse o.bytes ≤ l)
     else if o.cls = 3 then
       match j.usable 0 with
       | some d => (decide (dRepeat d.bytes ≠ 0) && decide ((rLast o.bytes + 1) * dRepeat d.bytes ≤ l + 1)) ||
           (decide (j.lines = some (l + 1)) && decide (rLast o.bytes * dRepeat d.bytes ≤ l))
       | none => false
     else false)

/-- The objects of a job freed once job line `l` has been composed on every bar; a map goes with the last layer object that
names it. -/
def Job.freeUpTo (j : Job) (l : Nat) : Job :=
  let gone := j.objs.filter (j.past l)
  let j1 := { j with objs := j.objs.map (fun o => if j.past l o then { o with freed := true } else o) }
  let maps := (gone.filter (fun o => o.cls = 1 ∧ lMap o.bytes ≠ 0xFFFF)).map (fun o => lMap o.bytes)
  { j1 with objs := j1.objs.map (fun o =>
      if maps.contains o.num && o.cls == 2 &&
        !(j1.objs.any (fun p => p.st = 2 ∧ !p.freed ∧ p.cls = 1 ∧ lMap p.bytes = o.num))
      then { o with freed := true } else o) }

/-- The job lines that every bar of a bound job has composed. -/
def BJob.allDone (j : BJob) : Nat :=
  (((List.finRange 8).filter (fun b => j.bars.getLsbD b.val)).map (fun b => j.done[b])).foldl min
    (((List.finRange 8).map (fun b => j.done[b])).foldl max 0)

/-- Job line l has been composed on bar b: progress, and what R96 and R98 free. -/
def State.lineComposed (s : State) (b : Fin 8) (h : BitVec 16) : State :=
  let s1 := s.onJobs fun l => l.map (fun j => if j.handle = h then { j with done := vmod j.done b (· + 1) } else j)
  match s1.sys.jobs.find? (fun j => j.handle = h) with
  | none => s1
  | some j => if j.allDone = 0 then s1 else s1.modJob (tagOf h) fun k => k.freeUpTo (j.allDone - 1)

/-- The 4 KiB pieces of a line's screened data. -/
def archPieces (tag bar line : Nat) : Nat → List Byte → List Entry
  | 0, _ => []
  | n + 1, l =>
    if l.length ≤ 4096 then [.arch { tag := tag, bar := bar, line := line, data := l, last := true }]
    else .arch { tag := tag, bar := bar, line := line, data := l.take 4096 } :: archPieces tag bar line n (l.drop 4096)

/-- Steps 4 to 7 of R112: contributions, compensation, screening, and the records put into the queues. -/
def State.finishLine (s : State) (b : Fin 8) (m : MidLine) : State :=
  let v := compensate m.comp (fun c => ((List.finRange 8).map (fun d => s.bars[d].gives b.val m.line c)).foldl (· + ·) 0) m.v2 m.out
  let hs := s.headsOf b.val
  let w := s.matW b.val
  let y := (m.job + s.f (F.HTN_PHASE_PHASE_Y b.val)) % s.matH b.val
  let lev := ((v.zip (m.pick.zip m.out)).zipIdx).map (fun p =>
    (p.1.2.1, if p.1.2.2 then 0 else
      levelAt s.bars[b].matrix (s.fb (F.HTN_CFG_FMT b.val)) w ((p.2 + s.f (F.HTN_PHASE_PHASE_X b.val)) % w) y p.1.1))
  let recs := (upto 5).filterMap (fun k => (laneRecord hs (fun c => lev.getD c (40, 0)) k).map (fun r => (k, r)))
  let arch := match s.job? m.handle with
    | some j => if bits j.arch 0 1 = 1 then
        let data := recs.flatMap (·.2)
        (archPieces j.tag b.val m.line (cdiv data.length 4096) data).map (fun e => (56 + b.val / 2, e)) else []
    | none => []
  let q := recs.map (fun r => (b.val * 5 + r.1, Entry.lane { line := m.line, data := r.2 })) ++ arch
  let s1 := (s.onBar b fun x => { x with mid := none, outQ := x.outQ ++ q })
  let s2 := (List.finRange 8).foldl (fun s d => s.onBar d fun x => { x with
    side := x.side.filter (fun e => e.sub ≠ b.val || lineBefore m.line e.line) }) s1
  (s2.lineComposed b m.handle).pump b

/-- R126: a line whose sideband entries are there goes on; otherwise the bar waits, counted once. -/
def State.goOn (s : State) (b : Fin 8) (m : MidLine) : State :=
  if (s.donorsOf b).all (s.donorReady b m) then s.finishLine b m
  else if m.counted then s
  else (s.onBar b fun x => { x with mid := some { m with counted := true } }).bump (F.NZM_WAIT_CNT_COUNT b.val)

/-- A wait for the slewer's read or for the substitute bar, counted once per line. -/
def State.slewHold (s : State) (b : Fin 8) (n : Nat) : State :=
  if s.bars[b].slewWait = some n then s
  else (s.onBar b fun x => { x with slewWait := some n }).bump (F.NZM_WAIT_CNT_COUNT b.val)

/-- R126: print line n of donor b is 256 lines ahead of the line its substitute bar works on. -/
def State.sideFull (s : State) (b : Fin 8) (n : Nat) : Bool :=
  match s.subOf b.val (s.compWord b.val) with
  | some t => (match s.barPos t with | some p => decide (256 ≤ lineSpan p n) | none => false)
  | none => false

/-- R290: the standby composes a line of bar b only once the holder's front of the bar has passed it. -/
def State.frontOk (s : State) (b : Fin 8) (n : Nat) : Bool := !s.inMode .standby || lineBefore n s.tbl.fronts[b]

/-- Bar b tries to begin its next line (R87). -/
def State.tryLine (s : State) (b : Fin 8) (bj : BJob) : State :=
  match s.job? bj.handle, bj.start with
  | some j, some st =>
    let l := bj.done[b]
    let n := pl (st + l)
    if !s.frontOk b n then s
    else match j.usable 0 with
      | none => s.layerWait b n 0
      | some d0 =>
        let d := d0.bytes
        if s.bars[b].flight.any (fun f => !lineBefore n f.due) then s.slewHold b n
        else if s.sideFull b n then s.slewHold b n
        else
          let ns := j.needs d (s.cols b.val) b.val l
          let s1 := (s.lineStat b bj.handle l (repeatOf d l)).slotStat b (!j.uncovered d l) ns
          match j.awaited d (s.cols b.val) b.val l with
          | some o => s1.layerWait b n o
          | none =>
            let s2 := ((s1.badRefs b ns).when (!s.inMode .standby) fun s => s.barCommits b n).beginLine b bj j d l n
            match s2.bars[b].mid with
            | some m => s2.goOn b m
            | none => s2
  | _, _ => s

/-- BAR_COMPOSE_LINE (R87, R112): the engine works on its line: queue room for the line before, the sideband, a new line. -/
def State.composeLine (s : State) (b : Fin 8) : State :=
  let s0 := (s.settleStarts).pump b
  if !s0.bars[b].outQ.isEmpty then s0
  else match s0.bars[b].mid with
    | some m => s0.goOn b m
    | none =>
      match s0.curJob b with
      | some bj => s0.tryLine b bj
      | none => s0

/-- SLEWER_WRITEBACK (R120): at the start of line N + 16 the oldest visit's results reach the in-force table. -/
def State.slewerWriteback (s : State) (b : Fin 8) : State :=
  match s.bars[b].flight, s.nextPrint b with
  | f :: _, some n =>
    if !lineBefore n f.due && s.boundOn b.val then s.onBar b fun x => x.writeback (s.cols b.val) f else s
  | _, _ => s

end Sys2Proof.Machine
end

