-- ==== Sys2Proof/Machine/Lanes.lean ====
section
/-! DEFINITION. Lanes (R164–R192, R280): what a lane is set to, the blocks it sends, its bring-up, and how it takes the
records of its line queue.  Lanes 0–39 are the Barchan lanes, 40–51 Table lanes 0–11. -/
namespace Sys2Proof.Machine

/-- Lane n changed by `f`. -/
def State.onLane (s : State) (n : Fin 52) (f : Lane → Lane) : State := s.onLnk fun t => { t with lanes := vmod t.lanes n f }

/-- Lane n is a Table lane. -/
def isTbl (n : Fin 52) : Bool := decide (40 ≤ n.val)

/-- Barchan lane n as a lane. -/
def barLane (n : Fin 40) : Fin 52 := ⟨n.val, by omega⟩

/-- R318: the scoreboard of a lane; the two kinds follow each other. -/
def laneBoard (n : Fin 52) : Nat := 8 + n.val

/-- The codes of R167. -/
def LaneSt.code : LaneSt → Nat
  | .disabled => 0 | .detect => 1 | .train => 2 | .bitlock => 3 | .symlock => 4 | .blocklock => 5 | .cap => 6 | .active => 7
  | .test => 8 | .retired => 9

/-! ### What a lane is set to -/

/-- R164: the rate code in force; 3 is used as 2. -/
def State.laneRate (s : State) (n : Fin 52) : Nat :=
  min 2 (if isTbl n then s.f F.TBL_CFG_RATE else s.f (F.LNK_CFG_RATE n.val))

/-- R165: the block time in ns. -/
def State.blockNs (s : State) (n : Fin 52) : Rat :=
  if s.laneRate n = 0 then 512 / 10 else if s.laneRate n = 1 then 32 else 256 / 10

/-- R4, R167, R277: the lane is in use: enabled, and with heads to carry, or one of a twin's Table lanes. -/
def State.laneUse (s : State) (n : Fin 52) : Bool :=
  if isTbl n then s.fb F.TBL_CFG_TWIN && decide (bits (s.f F.TBL_CFG_LANE_EN) (n.val - 40) 1 = 1)
  else s.fb (F.LNK_CFG_EN n.val) && !(s.laneHeads n.val).isEmpty

/-- Lane n carries heads (R4, R122). -/
def State.laneHasHeads (s : State) (n : Nat) : Bool := !(s.laneHeads n).isEmpty

/-- R4: the local number of a head on its lane. -/
def Head.loc (h : Head) : Nat := h.h % 8

/-- R57: bytes of a lane's records. -/
def State.recBytes (s : State) (n : Nat) : Nat :=
  cdiv ((((s.laneHeads n).map (·.n)).foldl (· + ·) 0) / 4) 64 * 64

/-- The deal a seat's blocks carry: its own while it holds the Trump, else the last one seen (`TBL_DEAL`). -/
def State.dealNow (s : State) : BitVec 32 := s.tbl.deal

/-- R186: the seat acts on the modules. -/
def State.leads (s : State) : Bool := s.tbl.holder && !s.inMode .frozen

/-- R186: ROLE of idle blocks. -/
def State.role (s : State) : Nat := if s.inMode .frozen then 0 else if s.tbl.holder then 1 else 2

/-- SEAT as blocks carry it. -/
def State.seatBit (s : State) : Nat := if s.pad.seatId then 1 else 0

/-! ### Blocks (R165–R176) -/

/-- One step of the CRC-8 of R165: polynomial 0x07, most significant bit first. -/
def crc8Bit (c : Nat) : Nat := if c < 128 then c * 2 else (c * 2 % 256) ^^^ 7

/-- R165: CRC-8, initial value 0, no reflection, no final XOR. -/
def crc8 (l : List Byte) : Nat :=
  l.foldl (fun c b => crc8Bit (crc8Bit (crc8Bit (crc8Bit (crc8Bit (crc8Bit (crc8Bit (crc8Bit (c ^^^ b.toNat))))))))) 0

/-- A list of bytes cut or padded with zeros to n bytes. -/
def fit (n : Nat) (l : List Byte) : List Byte := (l ++ List.replicate n 0).take n

/-- R165: a block with content in bytes 0 to 29 and a CRC-8 in byte 30. -/
def mkBlock (hdr : Byte) (l : List Byte) : Block :=
  { hdr := hdr, body := fit 30 l ++ [BitVec.ofNat 8 (crc8 (fit 30 l))] }

/-- R172: the idle block. -/
def State.idleBlock (s : State) (n : Nat) : Block :=
  mkBlock 0xBC (leBytes 1 s.role ++ leBytes 1 s.seatBit ++ leBytes 4 s.dealNow.toNat ++ leBytes 2 n)

/-- R168: the training block. -/
def State.trainBlock (s : State) (n : Fin 52) (ready : Bool) : Block :=
  mkBlock 0xFB (leBytes 1 (if ready then 1 else 0) ++ leBytes 1 (s.laneRate n) ++ leBytes 1 (n.val % 40) ++ leBytes 1 s.seatBit
    ++ leBytes 4 s.dealNow.toNat ++ List.replicate 22 0xB5)

/-- R168: a group of three training blocks and the idle block after it. -/
def State.trainGroup (s : State) (n : Fin 52) (ready : Bool) : List Block :=
  List.replicate 3 (s.trainBlock n ready) ++ [s.idleBlock (n.val % 40)]

/-- R169: the device capability page of a Barchan lane.  R280 names what a Table lane's page carries, without places: its
items follow in the order named. -/
def State.capBlock (s : State) (n : Fin 52) : Block :=
  if isTbl n then
    mkBlock 0xFD (leBytes 1 0x80 ++ leBytes 1 s.seatBit ++ leBytes 4 s.cfg.image.seq.toNat ++ leBytes 2 s.cfg.image.part
      ++ leBytes 1 s.cfg.image.die ++ leBytes 4 s.dealNow.toNat)
  else
    mkBlock 0xFD (leBytes 1 0x80 ++ leBytes 1 s.seatBit ++ leBytes 1 n.val ++ leBytes 1 (s.laneRate n)
      ++ leBytes 4 s.dealNow.toNat ++ leBytes 2 (s.recBytes n.val) ++ leBytes 1 (s.laneHeads n.val).length)

/-- R173: the fire block of a grid line: delays by local head, and the heads that fire. -/
def fireBlock (delay : List Nat) (mask deal seq : Nat) : Block :=
  mkBlock 0x7C (leBytes 1 0 ++ fit 24 (delay.flatMap (leBytes 3)) ++ leBytes 3 deal ++ leBytes 1 mask ++ leBytes 1 seq)

/-- R173: a width block: for four heads, the record index and the widths of levels 1 to 3. -/
def widthBlock (m : Nat) (hs : List (Nat × Nat × Nat × Nat)) (seq : Nat) : Block :=
  mkBlock 0x7C (leBytes 1 (m + 1) ++ fit 28 (hs.flatMap (fun h =>
    leBytes 2 h.1 ++ leBytes 5 (h.2.1 % 4096 + h.2.2.1 % 4096 * 2 ^ 12 + h.2.2.2 % 4096 * 2 ^ 24))) ++ leBytes 1 seq)

/-- R175: the line-data blocks of a record, the last padded with zeros. -/
def lineBlocks : Nat → List Byte → List Block
  | 0, _ => []
  | k + 1, l => { hdr := 0x3C, body := fit 31 l } :: lineBlocks k (l.drop 31)

/-- R175: RECORD_END. -/
def recordEnd (line : Nat) (data : List Byte) (deal : Nat) : Block :=
  mkBlock 0xF7 (leBytes 1 1 ++ leBytes 4 line ++ leBytes 2 (cdiv data.length 31) ++ leBytes 4 (crc32c data) ++ leBytes 4 deal)


/-- R176: ROWS of one head. -/
def State.rowsBlock (s : State) (h : Head) : Block :=
  let d := s.htype h.type
  mkBlock 0xF7 (leBytes 1 2 ++ leBytes 1 h.loc ++ leBytes 1 d.rows ++ leBytes 1 (if d.grouped then 1 else 0) ++ leBytes 2 d.noz
    ++ leBytes 2 d.id ++ d.rowOfs.flatMap (leBytes 1) ++ leBytes 4 s.dealNow.toNat)

/-- R176: FLUSH. -/
def State.flushBlock (s : State) : Block := mkBlock 0xF7 (leBytes 1 3 ++ leBytes 4 s.dealNow.toNat)

/-- R176: TEST. -/
def State.testBlock (s : State) (n : Nat) : Block :=
  mkBlock 0xF7 (leBytes 1 4 ++ leBytes 1 (s.f (F.LNK_PAT_CFG_PAT n)) ++ leBytes 2 (max 1 (s.f (F.LNK_PAT_CFG_DUR n)))
    ++ leBytes 3 (s.f (F.LNK_PAT_USER_PATTERN n)) ++ leBytes 1 (s.f (F.LNK_PAT_CFG_INV n)))

/-- R186: what `f` does to every ACTIVE lane with the idle block of the seat as it stands now. -/
def State.laneRoles (s : State) (f : Block → Lane → Lane) : State :=
  (List.finRange 40).foldl (fun s n =>
    if s.lnk.lanes[barLane n].st = .active then s.onLane (barLane n) (f (s.idleBlock n.val)) else s) s

/-- R177: the blocks of lane n up to instant `t` leave. -/
def State.laneRun (s : State) (n : Fin 40) (t : Rat) : State :=
  s.onLane (barLane n) fun x => x.runTo (s.idleBlock n.val) (s.blockNs (barLane n)) t

/-! ### Bring-up (R167–R170, R280) -/

/-- R167: the lane starts again: at DETECT if it is in use, else electrical idle. -/
def State.laneStart (s : State) (n : Fin 52) : State :=
  let st := if s.retired (laneBoard n) then LaneSt.retired else if s.laneUse n then .detect else .disabled
  s.onLane n fun x => { x with st := st, retryWait := false, present := false, inGroup := false, hdrs := [], tx := [], recEnd := none,
                               pages := false, pend := {}, eqDone := false, raw := none }

/-- Every lane of a range starts again. -/
def State.lanesStart (s : State) (p : Fin 52 → Bool) : State :=
  (List.finRange 52).foldl (fun s n => if p n then s.laneStart n else s) s

/-- A lane falls back to TRAIN (R167); the adapted equaliser is kept (R168). -/
def State.toTrain (s : State) (n : Fin 52) (relock : Bool) : State :=
  s.onLane n fun x => ({ x with
    st := .train, relock := relock, pages := false, hdrs := [], recEnd := none, inGroup := false, pend := {}, raw := none } :
      Lane).send (s.trainGroup n false)

/-- R170: the checks of the module's pages against the image and the descriptors in force; 0: all pass. -/
def State.capCheck (s : State) (n : Fin 40) : Nat :=
  let x := s.lnk.lanes[barLane n]
  let hs := s.laneHeads n.val
  let tid := fun k => if k % 2 = 0 then s.f (F.LNK_MOD_TYPE_EVEN n.val (k / 2)) else s.f (F.LNK_MOD_TYPE_ODD n.val (k / 2))
  if x.version ≠ 1 then 1
  else if s.f (F.LNK_MOD_INFO_HEADS n.val) ≠ hs.length then 2
  else if hs.any (fun h => tid h.loc ≠ (s.htype h.type).id) then 3
  else if hs.any (fun h => decide (x.maxRate < (s.htype h.type).fmax)) then 4
  else if bits (s.f (F.LNK_MOD_INFO_RATES n.val)) (s.laneRate (barLane n)) 1 = 0 then 5
  else if hs.any (fun h => (s.htype h.type).invalid) then 6
  else 0

/-- R170: CAP_BAD and CAPERR take the outcome of a check. -/
def State.capNote (s : State) (n : Fin 52) (e : Nat) : State := s.onLane n fun x => { x with capBad := decide (e ≠ 0), capErr := e }

/-- R167, R176: a Barchan lane becomes ACTIVE. -/
def State.laneUp (s : State) (n : Fin 40) : State :=
  let x := s.lnk.lanes[barLane n]
  let out := if x.sent then [] else (s.laneHeads n.val).map s.rowsBlock ++ (if s.leads then [s.flushBlock] else [])
  (s.onLane (barLane n) fun x => { (x.control (s.idleBlock n.val) out) with
    st := .active, relock := false, hdrs := List.replicate 64 true, ran := s.ltm.now }).event 0x070 n.val

/-- R170: a lane that carries heads is checked again, as at each bind. -/
def State.capRecheck (s : State) (n : Fin 40) : State :=
  let x := s.lnk.lanes[barLane n]
  if x.st = .active ∨ (x.st = .cap ∧ x.pages) then
    let e := s.capCheck n
    let s1 := s.capNote (barLane n) e
    if e = 0 ∧ x.st = .cap then s1.laneUp n else s1
  else s

/-- R174: PRE is too short for the lane. -/
def State.preShort (s : State) (n : Fin 40) : Bool :=
  s.laneHasHeads n.val &&
    decide ((clampN 80 4000 (s.f F.LTM_PRE_PRE) : Rat) * (5 / 2) <
      384 / 10 + 4 * s.blockNs (barLane n) + (s.f (F.LNK_MOD_PREP_VALUE n.val) % 65536 : Nat) * (5 / 2))

/-- A failed bring-up is counted and, of a relock, is an upset (R167, R188, R282). -/
def State.bringUpFailed (s : State) (n : Fin 52) : State :=
  let relock := s.lnk.lanes[n].relock
  let s1 := (s.onLane n fun x => { x with failedOnce := true })
  let s2 := if isTbl n then s1 else s1.bump (F.LNK_FAIL_CNT_COUNT n.val)
  if relock && !isTbl n then s2.upset (laneBoard n) else s2

/-! ### Lines recorded void (R84, R162) -/

/-- R5, R150: a print line belongs to a bound job. -/
def State.hasLine (s : State) (line : Nat) (j : BJob) : Bool :=
  match j.start with
  | some st => (match s.linesOf j with | some n => decide (lineDist st line < n) | none => !lineBefore line st)
  | none => false

/-- The bound job a print line of a bar belongs to (R150). -/
def State.jobOfLine (s : State) (b line : Nat) : Option BJob := s.sys.jobs.find? (fun j => j.bars.getLsbD b && s.hasLine line j)


/-- R162: a print line of a bar is recorded void, at most once; a blank line belongs to no job and is not. -/
def State.voidLine (s : State) (b line : Nat) : State :=
  match s.jobOfLine b line with
  | none => s
  | some bj => s.modJob (tagOf bj.handle) fun j =>
      if runCovers j.runs 1 b line then j else { j with runs := addRun j.runs b line 1 }

/-! ### Records leave the crest (R152, R162, R175, R187, R293, R326) -/

/-- R293: a record's digest is taken; a lone seat compares with nothing. -/
def State.digestOf (s : State) (n line : Nat) (v : Option Nat) : State :=
  if s.tbl.inStep || s.tbl.joining then s.onTbl fun t => { t with digs := t.digs ++ [{ lane := n, line := line, own := true, val := v }] } else s

/-- R162: records of earlier print lines than `line` leave the crest, their digests taken; after a takeover they were never
sent and are recorded void (R297). -/
def State.dropOlder (s : State) (n : Fin 40) (line : Nat) : Nat → State
  | 0 => s
  | k + 1 =>
    let q : Fin 64 := ⟨n.val, by omega⟩
    let s0 := s.settle q
    match s0.qHead q with
    | some (.lane r) =>
      if lineBefore r.line line then
        (((s0.qFree q).digestOf n.val r.line (some (crc32c r.data))).when s.ltm.fresh fun s =>
          s.voidLine (n.val / 5) r.line).dropOlder n line k
      else s0
    | _ => s0

/-- R187: the lane is not ACTIVE in `PRINT`, or the seat prints without the Trump and is no standby. -/
def State.laneIdles (s : State) (n : Fin 40) : Bool :=
  s.lnk.lanes[barLane n].st != .active || !s.leads

/-- R175, R177: a record joins what an ACTIVE lane has pending. -/
def State.sendRecord (s : State) (n : Fin 40) (r : LaneRec) : State :=
  let out : OutRec := { line := r.line, data := lineBlocks (cdiv r.data.length 31) r.data
                        fin := recordEnd r.line r.data s.dealNow.toNat }
  (s.onLane (barLane n) fun x =>
    { x with pend := { x.pend with recs := x.pend.recs ++ [out] }, sent := s.anyBound || x.sent }).countDrops n.val r.data

/-- R15, R162: the crest does not hold the record of a print line: an underrun, unless the line is blank. -/
def State.missed (s : State) (b n line : Nat) : State :=
  if (s.jobOfLine b line).isSome then ((s.bump F.LTM_UNDER_CNT_COUNT).raise 0x060 b n).voidLine b line else s

/-- R152, R162, R187: lane n takes, at a line boundary, the record of print line `line` of its bar. -/
def State.takeRecord (s : State) (n : Fin 40) (line : Nat) : State :=
  let q : Fin 64 := ⟨n.val, by omega⟩
  let b := n.val / 5
  let s0 := s.dropOlder n line s.cvq[q].fill
  match s0.qHead q with
  | some (.lane r) =>
    if r.line = line then
      let s1 := (s0.qFree q).digestOf n.val line (some (crc32c r.data))
      if s1.laneIdles n then (s1.bump (F.LNK_VOID_CNT_COUNT n.val)).voidLine b line
      else s1.sendRecord n r
    else s0.missed b n.val line
  | _ => s0.missed b n.val line

/-- R292, R326: a standby's lane takes from its crest every record up to the line it is to take; nothing is sent or recorded
void. -/
def State.standbyTake (s : State) (n : Fin 40) : Nat → State
  | 0 => s
  | k + 1 =>
    let q : Fin 64 := ⟨n.val, by omega⟩
    let s0 := s.settle q
    match s0.qHead q with
    | some (.lane r) =>
      if !lineBefore s.lnk.lanes[barLane n].want r.line then
        (((s0.qFree q).digestOf n.val r.line (some (crc32c r.data))).when s.tbl.inStep fun s => s.countDrops n.val r.data).standbyTake n k
      else s0
    | _ => s0

end Sys2Proof.Machine
end

