-- ==== Sys2Proof/Machine/Effects.lean ====
section
/-! DEFINITION. What a commit group's taking effect does beyond its registers (R143, R167, R276), and the line groups at a line
boundary (R53). -/
namespace Sys2Proof.Machine

/-- Chain c changed by `f`. -/
def State.onChain (s : State) (c : Fin 4) (f : LampChain → LampChain) : State := s.onLmp fun x => { x with chain := vmod x.chain c f }

/-- R276: a commit of `LMP_CFG` takes effect: failed lamps that are committed again start afresh. -/
def State.lampCommit (s : State) : State :=
  let s1 := s.onLmp fun x => { x with lamp := x.lamp.map (fun l => if l.failed || l.hot then { l with failed := false, hot := false, on := false } else l) }
  (List.finRange 4).foldl (fun s c => if s.fb (F.LMP_CHAIN_CFG_EN c.val) then s else s.onChain c fun x => { x with dark := true }) s1

/-- R167: a lane that has come into use starts at DETECT; one no longer used is electrical idle. -/
def State.laneReview (s : State) (n : Fin 52) : State :=
  let x := s.lnk.lanes[n]
  if x.st = .retired then s
  else if s.laneUse n = decide (x.st ≠ .disabled) then s
  else s.laneStart n

/-- R167: `LNK_CFG` of a lane takes effect; another rate starts its bring-up again. -/
def State.laneCfg (s : State) (n : Fin 40) (oldRate : Nat) : State :=
  if s.laneRate (barLane n) = oldRate then s.laneReview (barLane n) else s.laneStart (barLane n)

/-- A group's registers and their effect: `last` for LAST, `line` for forwarding (R53). -/
def State.takeEffect (s : State) (g : Group) (last line : Nat) : State :=
  let s1 := s.takes g last line
  match g with
  | .tonOfs b => s1.toneCleared b
  | .nzmGeom b => (upto 5).foldl (fun s i => s.laneReview (⟨(b.val * 5 + i) % 40, by omega⟩ : Fin 52))
      (s1.headsNew b ((s.headsOf b.val).map (·.h)))
  | .encSrc => s1.judgeSource
  | .encCfg ch => if s1.fb (F.ENC_CFG_EN ch.val) then s1 else s1.encOff ch
  | .lnkCfg n => s1.laneCfg n (s.laneRate (barLane n))
  | .lmpCfg => s1.lampCommit
  | _ => s1

/-- R53: at a line boundary of bar 0 in `PRINT` the line groups pending take effect. -/
def State.lineCommits (s : State) : State :=
  if s.inMode .print then
    (s.regs.pending.filter (fun g => instantOf g = .line)).foldl (fun s g => s.takeEffect g (s.lineOf 0) (s.lineOf 0)) s
  else s

end Sys2Proof.Machine
end

