-- ==== Sys2Proof/Machine/Dune.lean ====
section
/-! DEFINITION. The Dune stream (R80–R82): block headers, the commands of a coded block, and what one block decodes to. -/
namespace Sys2Proof.Machine

/-- Outcome of decoding one block. -/
inductive BlockRes
  /-- The block's bytes have not all arrived. -/
  | need
  /-- A stream error of R80. -/
  | err (code : Nat)
  /-- A coded or raw block: the output so far newest first, the input left, and LAST_SEG. -/
  | raw (out rest : List Byte) (lastSeg : Bool)
  /-- An end block: total raw length and CRC-32C it carries, and the input left. -/
  | fin (total crc : Nat) (rest : List Byte)
deriving DecidableEq, Repr

/-- R81: the extension bytes of a length: each is added, and the extension continues while the byte is 255. -/
def extLen : List Byte → Nat → Option (Nat × List Byte)
  | [], _ => none
  | b :: t, acc => if b.toNat = 255 then extLen t (acc + 255) else some (acc + b.toNat, t)

/-- R81: `n` bytes copied one by one from distance `d` back; `out` is newest first. -/
def copyBack : Nat → Nat → List Byte → List Byte
  | 0, _, out => out
  | n + 1, d, out => copyBack n d (out.getD (d - 1) 0 :: out)

/-- R81: the length field of a long match or fill run, with its extension bytes. -/
def runLen (v base : Nat) (t : List Byte) : Option (Nat × List Byte) :=
  if v = 63 then extLen t (v + base) else some (v + base, t)

/-- R81: the commands of a coded block.  `n` bytes have been produced by the stream so far, `room` are still owed by the
block; the result is the output newest first, or a stream error of R80. -/
def decodeCmds : Nat → List Byte → List Byte → Nat → Nat → Sum Nat (List Byte)
  | 0, _, _, _, _ => .inl 4
  | _ + 1, [], out, _, room => if room = 0 then .inr out else .inl 4
  | k + 1, b :: t, out, n, room =>
    let v := b.toNat % 64
    match b.toNat / 64 with
    | 0 =>
      let len := v + 1
      if t.length < len ∨ room < len then .inl 4
      else decodeCmds k (t.drop len) ((t.take len).reverse ++ out) (n + len) (room - len)
    | 1 =>
      match t with
      | [] => .inl 4
      | c :: t' =>
        let len := v / 8 + 3
        let d := v % 8 * 256 + c.toNat + 1
        if n < d then .inl 5
        else if room < len then .inl 4
        else decodeCmds k t' (copyBack len d out) (n + len) (room - len)
    | 2 =>
      match runLen v 3 t with
      | some (len, lo :: hi :: t') =>
        let d := lo.toNat + 256 * hi.toNat + 1
        if n < d then .inl 5
        else if room < len then .inl 4
        else decodeCmds k t' (copyBack len d out) (n + len) (room - len)
      | _ => .inl 4
    | _ =>
      match runLen v 4 t with
      | some (len, c :: t') =>
        if room < len then .inl 4
        else decodeCmds k t' (List.replicate len c ++ out) (n + len) (room - len)
      | _ => .inl 4

/-- The XOR of a block header's bytes (R80 HCHK). -/
def xorBytes (l : List Byte) : Nat := l.foldl (fun a b => a ^^^ b.toNat) 0

/-- R80: one block decoded from the head of `inp`, given the stream's output so far, newest first. -/
def decodeBlock (inp out : List Byte) : BlockRes :=
  match inp with
  | s0 :: ty :: fl :: hc :: r0 :: r1 :: c0 :: c1 :: body =>
    let rawlen := r0.toNat + 256 * r1.toNat
    let codlen := c0.toNat + 256 * c1.toNat
    if s0 ≠ 0xD5 then .err 1
    else if ty ≠ 1 ∧ ty ≠ 2 ∧ ty ≠ 3 then .err 2
    else if xorBytes [s0, ty, fl, hc, r0, r1, c0, c1] ≠ 0 ∨ 4 ≤ fl.toNat then .err 3
    else if ty = 3 ∧ (rawlen ≠ 11 ∨ codlen ≠ 11) then .err 6
    else if ty = 2 ∧ rawlen ≠ codlen then .err 4
    else if body.length < codlen + 1 then .need
    else
      let pay := body.take (codlen + 1)
      let rest := body.drop (codlen + 1)
      if ty = 3 then .fin (leAt pay 0 8) (leAt pay 8 4) rest
      else if ty = 2 then .raw (pay.reverse ++ out) rest (fl.toNat / 2 % 2 = 1)
      else
        match decodeCmds (codlen + 2) pay out out.length (rawlen + 1) with
        | .inl e => .err e
        | .inr o => .raw o rest (fl.toNat / 2 % 2 = 1)
  | _ => .need

end Sys2Proof.Machine
end

