-- ==== Sys2Proof/Machine/Ingest.lean ====
section
/-! DEFINITION. Rings, descriptors, completions, jobs' objects and the decompressor (R67–R83). -/
namespace Sys2Proof.Machine

/-! ### Rings and completions (R69, R70, R72) -/

/-- Queue of ring r. -/
def ringQ (r : Fin 8) : Fin 64 := ⟨40 + r.val, by omega⟩

/-- Ring r changed by `f`. -/
def State.onRing (s : State) (r : Fin 8) (f : Ring → Ring) : State :=
  s.onIng fun g => { g with rings := vmod g.rings r f }

/-- R69: entries of a ring. -/
def Ring.size (x : Ring) : Nat := 2 ^ clampN 4 16 x.log2

/-- R70: completion entries written and not yet acknowledged. -/
def Ring.unacked (x : Ring) : Nat := (x.written + 65536 - x.ack.toNat) % 65536

/-- R70: one more entry would fill the completion ring. -/
def Ring.cplFull (x : Ring) : Bool := decide (x.size ≤ x.unacked + 1)

/-- R72: the entry as it is written next: PHASE inverts on each pass, starting at 1. -/
def Ring.stamp (x : Ring) (c : Cpl) : Cpl := { c with phase := x.written / x.size % 2 == 0 }


/-- Owed entries written while there is room, at most `n`. -/
def owe : Nat → Ring → Ring
  | 0, x => x
  | n + 1, x =>
    match x.owed with
    | [] => x
    | c :: t => if x.cplFull then x else owe n { x with owed := t, cpl := x.cpl ++ [x.stamp c], written := x.written + 1 }

/-- R34, R70: the entries owed on a ring written as room allows; a ring stopped for room resumes. -/
def State.payOwed (s : State) (r : Fin 8) : State :=
  s.onRing r fun x =>
    let y := owe x.owed.length x
    if y.owed.isEmpty && y.err && decide (y.code = 3) then { y with err := false, code := 0 } else y

/-- R70, R72: a completion entry written behind those owed, or owed while the ring is off or its completion ring is full.  Entries
that fall due while EN is 0 are written once the host enables the ring and acknowledges or asks for them (DESIGN CHOICE, log entry 58:
the spec says so only after a hard reset, R34).  A full completion ring stops the ring with code 0x3, unless another code has. -/
def State.complete (s : State) (r : Fin 8) (c : Cpl) : State :=
  if s.inMode .standby || s.sys.unseen then s
  else
    let s1 := s.onRing r fun x => { x with owed := x.owed ++ [c] }
    if !s.ing.rings[r].en then s1
    else
      let s2 := s1.payOwed r
      let x := s2.ing.rings[r]
      if x.owed.isEmpty || x.err then s2
      else (s2.onRing r fun x => { x with err := true, code := 3 }).event 0x030 r.val

/-- R72: the completion entry of a descriptor. -/
def Fetched.entry (x : Fetched) : Cpl :=
  { handle := x.handle, obj := if x.d.op = 2 then x.d.obj else 0xFFFF, kind := 0, status := x.status, detail := x.detail,
    index := x.idx % 65536 }

/-- R71: descriptors complete in ring order; the finished ones at the head complete, each followed by its own entries. -/
def State.drainRing (s : State) (r : Fin 8) : Nat → State
  | 0 => s
  | n + 1 =>
    match s.ing.rings[r].out with
    | x :: t =>
      if x.done && x.fwd then (s.onRing r fun y => { y with out := t }).drainRing r n
      else if x.done then
        let s1 := (s.onRing r fun y => { y with out := t, cons := y.cons + 1 }).complete r x.entry
        let s2 := x.after.foldl (fun a c => a.complete r c) s1
        let s3 := if bits x.d.flags.toNat 1 1 = 1 then
          s2.onIng fun g => { g with irqs := g.irqs ++ [s2.ing.rings[r].vector % 32] } else s2
        s3.drainRing r n
      else s
    | [] => s

/-- Every finished descriptor at the head of ring r completes. -/
def State.drain (s : State) (r : Fin 8) : State := s.drainRing r s.ing.rings[r].out.length

/-- R67, R69, R70: ring r may fetch its next descriptor. -/
def State.ringServed (s : State) (r : Fin 8) : Bool :=
  let x := s.ing.rings[r]
  x.en && bits (s.f F.ING_CTL_RING_EN) r.val 1 == 1 && !x.err && s.ing.bme && !s.inMode .standby && !s.inMode .boot
    && !s.inMode .frozen && !s.sys.cold && !s.sys.waking && s.mem.fill.isEmpty && decide (x.prod ≠ x.fetch)

/-- A descriptor fetched from ring r, or one the holder has forwarded. -/
def State.fetched (s : State) (r : Fin 8) (x : Fetched) : State :=
  if s.inMode .standby || s.sys.unseen then
    s.onRing r fun y => { y with out := y.out ++ [{ x with fwd := true, idx := (y.out.map (·.idx)).foldl max 65535 + 1 }] }
  else s.onRing r fun y => { y with
    fetch := y.fetch + 1
    out := y.out ++ [{ x with idx := y.fetch.toNat }] }

/-- A descriptor fetched that needs nothing more than its completion entry. -/
def State.finish (s : State) (r : Fin 8) (d : Desc) (handle : BitVec 16) (status detail : Nat) : State :=
  (s.fetched r { d := d, handle := handle, status := status, detail := detail, done := true }).drain r

/-! ### Jobs (R73–R79) -/

/-- R72: a job event's entry, on the ring that carried the job's OPEN. -/
def State.jobEntry (s : State) (j : Job) (kind status detail : Nat) : State :=
  if h : j.ring < 8 then
    s.complete ⟨j.ring, h⟩ { handle := j.handle, kind := kind, status := status, detail := detail, index := j.printed % 2 ^ 32 }
  else s

/-- Layer store not reserved by any job, in MiB (`ING_LS_FREE`). -/
def State.lsFree (s : State) : Nat :=
  if s.ing.lsBad then 0 else s.f F.ING_LS_SIZE_SIZE - (s.ing.jobs.map (·.resMiB)).foldl (· + ·) 0

/-- R74: the lowest-numbered free tag. -/
def State.freeTag (s : State) : Option Nat :=
  (List.range 4095).findSome? (fun i => if (s.jobAt (i + 1)).isNone then some (i + 1) else none)

/-- A job inserted by rising tag. -/
def insertJob (j : Job) : List Job → List Job
  | [] => [j]
  | x :: t => if j.tag < x.tag then j :: x :: t else x :: insertJob j t

/-- R76: a job fails with a status: KIND 0x3 entry. -/
def State.failJob (s : State) (tag status detail : Nat) : State :=
  match s.jobAt tag with
  | none => s
  | some j =>
    (s.modJob tag fun j => { j with
      st := .failed, status := status
      objs := j.objs.map (fun o => if o.st = 1 then { o with st := 3 } else o) }).jobEntry { j with status := status } 3 status detail

/-- R74, R76: a job retires: KIND 0x2 entry with its final status, EVT_JOB_RETIRE, reservation released, tag free. -/
def State.retireJob (s : State) (tag : Nat) : State :=
  match s.jobAt tag with
  | none => s
  | some j =>
    let s1 := s.onIng fun g => { g with jobs := g.jobs.filter (fun x => x.tag ≠ tag) }
    ((s1.onIng fun g => { g with finals := rset g.finals tag (BitVec.ofNat 32 j.status) }).jobEntry j 2 j.status 0).event 0x032 j.handle.toNat

/-- Layer-store bytes a job uses. -/
def Job.used (j : Job) : Nat := ((j.objs.filter (fun o => !o.freed)).map (·.bytes.length)).foldl (· + ·) 0

/-- An object of a job changed by `f`. -/
def State.modObj (s : State) (tag num : Nat) (f : Obj → Obj) : State :=
  s.modJob tag fun j => { j with objs := j.objs.map (fun o => if o.num = num then f o else o) }

/-- Objects usable (R79). -/
def Job.nUsable (j : Job) : Nat := (j.objs.filter (fun o => o.st = 2 ∧ !o.freed)).length

/-- R75: a message whose handle is stale is counted. -/
def State.stale (s : State) : State := s.bump F.ING_STALE_CNT_COUNT

/-- R76: an object fails (status 4 FORMAT or 5 CRC): unusable, KIND 0x4 entry, EVT_OBJ_BAD.  A descriptor with LAST still to complete
takes the same status, and on its ring the KIND 0x4 entry follows it; the entry goes to the ring that carried OPEN (R72). -/
def State.objFail (s : State) (r : Fin 8) (tag num status code : Nat) : State :=
  match s.jobAt tag with
  | none => s
  | some j =>
    let s1 := s.modObj tag num fun o => { o with
      st := 3
      err := if status = 4 then code else 0
      crcBad := status == 5
      dec := { o.dec with buf := [], pos := o.dec.pulled, wait := false } }
    let c : Cpl := { handle := j.handle, obj := num, kind := 4, status := status, detail := if status = 4 then code else 0
                     index := j.printed % 2 ^ 32 }
    let own := fun (x : Fetched) => x.tag = tag ∧ x.d.obj = num ∧ x.d.op = 2 ∧ !x.done ∧ bits x.d.flags.toNat 0 1 = 1
    let last := s1.ing.rings[r].out.any own
    let s2 := s1.onRing r fun y => { y with out := y.out.map (fun x => if own x then
        { x with status := status, detail := c.detail, after := if j.ring = r.val then x.after ++ [c] else x.after } else x) }
    let s3 := if last && decide (j.ring = r.val) then s2
      else if h : j.ring < 8 then s2.complete ⟨j.ring, h⟩ c else s2
    (s3.bump F.ING_OBJ_BAD_COUNT).event 0x033 num

/-! ### OPEN (R73, R74, R76) -/

/-- R76: OPEN on a served ring.  A payload shorter than the job header completes with BADDESC (DESIGN CHOICE, log entry 58). -/
def State.openJob (s : State) (r : Fin 8) (d : Desc) (p : List Byte) : State :=
  if d.op ≠ 1 ∨ p.length < 64 ∨ 1 < byteAt p 0 then s.finish r d 0 8 0
  else
    let res := cdiv (leAt p 8 8) 1048576
    match s.freeTag with
    | none => s.finish r d 0 2 0
    | some tag =>
      if s.lsFree < res ∨ s.ing.lsBad then s.finish r d 0 2 0
      else
        let gen := ((rget s.ing.gens tag).toNat + 1) % 16
        let j : Job := { tag := tag, gen := gen, st := .opened, streaming := byteAt p 0 == 1, arch := byteAt p 1 % 4,
                         resMiB := res, archAddr := BitVec.ofNat 64 (leAt p 16 8 / 4096 * 4096), archSize := leAt p 24 8,
                         lines := if byteAt p 0 = 0 then some (leAt p 32 8) else none, ring := r.val }
        let s1 := s.onIng fun g => { g with
          jobs := insertJob j g.jobs
          gens := rset g.gens tag (BitVec.ofNat 32 gen) }
        (s1.finish r d j.handle 0 0).forward (.desc r d p)

/-- R71: a descriptor as its 32 bytes give it: LEN has 32 bits, OBJ 16. -/
def asFetched (d : Desc) : Desc := { d with len := d.len % 2 ^ 32, obj := d.obj % 2 ^ 16 }

/-- A descriptor's payload: LEN bytes, those the operand lacks free.  A LEN beyond 16,777,216, for which R71 states nothing, is the
length too (DESIGN CHOICE, log entry 50). -/
def State.payload (s : State) (d : Desc) (p : List Byte) : List Byte := p.take d.len ++ s.freeBytes (d.len - p.length)

/-- A descriptor with its payload fetched from a ring that is served, given to its operation. -/
def State.fetchDesc (s : State) (r : Fin 8) (d0 : Desc) (p : List Byte) (f : State → Desc → List Byte → State) : State :=
  s.live fun s => s.when (s.ringServed r) fun s =>
    let d := asFetched d0
    f (s.drawnN (d.len - p.length)) d (s.payload d p)

def execOpen (r : Fin 8) (d : Desc) (p : List Byte) (s : State) : Host.Outcome State Fault Refusal :=
  .next (s.fetchDesc r d p fun s d p => s.openJob r d p)

/-! ### DATA (R71, R72, R75–R77) -/

/-- A payload cut into 4 KiB chunks, `n` at most. -/
def chunked : Nat → List Byte → List (List Byte)
  | 0, _ => []
  | n + 1, l => if l.isEmpty then [] else l.take 4096 :: chunked n (l.drop 4096)

/-- R59: chunks enter the ingest queue while its tail has room; the rest wait. -/
def State.pullIn (s : State) (r : Fin 8) : Nat → State
  | 0 => s
  | n + 1 =>
    match s.ing.rings[r].pull with
    | [] => s
    | c :: t =>
      let s0 := s.settle (ringQ r)
      if s0.tailRoom (ringQ r) then ((s0.onRing r fun x => { x with pull := t }).qPut (ringQ r) (.chunk c)).pullIn r n
      else s

/-- Some other ring has payload of this object outstanding (R71). -/
def State.otherRing (s : State) (r : Fin 8) (tag num : Nat) : Bool :=
  (List.finRange 8).any fun q => decide (q ≠ r) &&
    s.ing.rings[q].out.any (fun x => x.d.op = 2 ∧ x.tag = tag ∧ x.d.obj = num ∧ !x.done)

/-- R76, R77: the job takes data for an object in this state. -/
def Job.takesData (j : Job) (num : Nat) : Bool :=
  match j.st with
  | .opened => true
  | .bound => j.streaming && (j.usable num).isNone
  | .printing => j.streaming && (j.usable num).isNone
  | _ => false

/-- R79: a new object entry.  Its place `ofs` in the reservation the spec leaves open: a free value (log entry 58). -/
def Job.freshObj (j : Job) (r num len ofs : Nat) (last : Bool) : Job :=
  { j with objs := (j.objs.filter (fun o => o.num ≠ num)) ++
      [{ num := num, st := 1, ring := r, ofs := ofs % (j.resMiB * 1048576), dec := { pulled := len, last := last } }] }

/-- R71, R79, R80: payload of an object begins or goes on; a finished or failed object sent again is replaced, a failed one whose
LAST has not come goes on, to be discarded. -/
def Job.arrive (j : Job) (r num len ofs : Nat) (last : Bool) : Job :=
  match j.entry num with
  | some o =>
    if o.st = 1 ∨ (o.st = 3 ∧ !o.dec.last) then
      { j with objs := j.objs.map (fun o => if o.num = num then
          { o with dec := { o.dec with pulled := o.dec.pulled + len, last := last } } else o) }
    else j.freshObj r num len ofs last
  | none => j.freshObj r num len ofs last

/-- The youngest DATA descriptor of ring r that feeds an object and is not finished. -/
def State.feeds (s : State) (r : Fin 8) (tag num : Nat) : Option Fetched :=
  (s.ing.rings[r].out.filter (fun x => x.d.op = 2 ∧ x.tag = tag ∧ x.d.obj = num ∧ !x.done)).getLast?

/-- An object that became unusable, and its job event for the other seat (R68). -/
def State.objLost (s : State) (tag num : Nat) : State :=
  match s.jobAt tag with
  | none => s
  | some j =>
    (s.modObj tag num fun o => { o with st := 3, dec := { o.dec with buf := [], wait := false } }).forward (.job j.handle 4 0 num)

/-- R71–R77: a DATA descriptor on a served ring. -/
def State.dataDesc (s : State) (r : Fin 8) (d : Desc) (p : List Byte) : State :=
  if d.op ≠ 2 ∨ 2039 < d.obj then s.finish r d d.handle 8 0
  else
    match s.job? d.handle with
    | none => s.stale.finish r d d.handle 1 0
    | some j =>
      if s.otherRing r j.tag d.obj then (s.objLost j.tag d.obj).finish r d d.handle 3 0
      else if !j.takesData d.obj then s.finish r d d.handle 3 0
      else
        let last := bits d.flags.toNat 0 1 == 1
        let before := s.feeds r j.tag d.obj
        let again := match before with | some x => bits x.d.flags.toNat 0 1 == 1 | none => false
        let s1 := if again then s else (s.modJob j.tag fun j => j.arrive r.val d.obj d.len s.freeNat last).drawn
        let upTo := match before, (s1.jobAt j.tag).bind (fun j => j.entry d.obj) with
          | some x, _ => (if again then 0 else x.upTo) + d.len
          | none, some o => o.dec.pulled
          | none, none => 0
        let s2 := s1.fetched r { d := d, handle := d.handle, tag := j.tag, left := d.len, upTo := upTo, again := again }
        let s3 := s2.onRing r fun x => { x with pull := x.pull ++ chunked (cdiv d.len 4096) p }
        (s3.pullIn r (cdiv d.len 4096)).forward (.desc r d p)

def execData (r : Fin 8) (d : Desc) (p : List Byte) (s : State) : Host.Outcome State Fault Refusal :=
  .next (s.fetchDesc r d p fun s d p => s.dataDesc r d p)

/-! ### Decompression (R80–R82) -/

/-- The first DATA descriptor of a ring whose work is not finished. -/
def Ring.working (x : Ring) : Option Fetched := x.out.find? (fun f => f.d.op = 2 ∧ !f.done)

/-- The object a fetched descriptor feeds. -/
def State.objOf (s : State) (f : Fetched) : Option Obj := (s.jobAt f.tag).bind (fun j => j.entry f.d.obj)

/-- R77: decompression on ring r waits for reservation space, and its queue with it. -/
def State.decWaits (s : State) (r : Fin 8) : Bool :=
  match s.ing.rings[r].working with
  | some f => (match s.objOf f with | some o => o.st == 1 && o.dec.wait | none => false)
  | none => false

/-- A new stream of an object begins once the stream before it is finished; false: it is not. -/
def State.streamBegins (s : State) (r : Fin 8) (f : Fetched) : State × Bool :=
  if !f.again then (s, true)
  else if (s.ing.rings[r].out.takeWhile (fun g => g.idx ≠ f.idx)).any (fun g => g.d.op = 2 ∧ g.tag = f.tag ∧ g.d.obj = f.d.obj ∧ !g.done)
  then (s, false)
  else
    let s1 := s.onRing r fun x => { x with out := x.out.map (fun g => if g.idx = f.idx then { g with again := false } else g) }
    let more := ((s.ing.rings[r].out.dropWhile (fun g => g.idx ≠ f.idx)).drop 1).filter (fun g =>
      g.d.op = 2 ∧ g.tag = f.tag ∧ g.d.obj = f.d.obj ∧ !g.done)
    let mine := f :: more.takeWhile (fun g => !g.again)
    let n := (mine.map (fun g => g.d.len)).foldl (· + ·) 0
    ((s1.modJob f.tag fun j => j.freshObj r.val f.d.obj n s.freeNat (mine.any (fun g => bits g.d.flags.toNat 0 1 = 1))).drawn, true)

/-- R58: the decompressor takes the oldest chunk of its queue, not while it waits (R77); the bytes belong to the oldest descriptor with
payload left. -/
def State.takeChunk (s : State) (r : Fin 8) : State :=
  match s.qHead (ringQ r) with
  | some (.chunk b) =>
    if s.decWaits r then s
    else match s.ing.rings[r].out.find? (fun f => f.d.op = 2 ∧ 0 < f.left) with
    | none => s.qFree (ringQ r)
    | some f =>
      let a := s.streamBegins r f
      if !a.2 then s
      else
        let s2 := (a.1.qFree (ringQ r)).onRing r fun x => { x with out := x.out.map (fun g => if g.idx = f.idx then
          { g with left := g.left - b.length } else g) }
        s2.modObj f.tag f.d.obj fun o => if o.st = 1 then { o with dec := { o.dec with buf := o.dec.buf ++ b } } else o
  | _ => s

/-- R80: one block decoded into the layer store. -/
def State.decodeOne (s : State) (r : Fin 8) : State :=
  match s.ing.rings[r].working with
  | none => s
  | some f =>
    let s := (s.streamBegins r f).1
    match s.objOf f, s.jobAt f.tag with
    | some o, some j =>
      if o.st ≠ 1 ∨ o.dec.wait then s
      else if o.dec.fin.isSome then
        if o.dec.buf.isEmpty then s else s.objFail r f.tag f.d.obj 4 7
      else
        match decodeBlock o.dec.buf o.bytes.reverse with
        | .need =>
          if bits f.d.flags.toNat 0 1 = 1 ∧ f.left = 0 then s.objFail r f.tag f.d.obj 4 8 else s
        | .err c => s.objFail r f.tag f.d.obj 4 c
        | .raw out rest seg =>
          if j.resMiB * 1048576 < j.used + (out.length - o.bytes.length) then
            if j.streaming then s.modObj f.tag f.d.obj fun o => { o with dec := { o.dec with wait := true } }
            else (s.onIng fun g => { g with trailer := some (j.handle, []) }).failJob f.tag 2 0
          else s.modObj f.tag f.d.obj fun o => { o with
            bytes := out.reverse
            dec := { o.dec with
              buf := rest
              pos := o.dec.pos + (o.dec.buf.length - rest.length)
              segs := o.dec.segs + (if seg then 1 else 0) } }
        | .fin total crc rest =>
          if total ≠ o.bytes.length then s.objFail r f.tag f.d.obj 4 6
          else if !rest.isEmpty then s.objFail r f.tag f.d.obj 4 7
          else s.modObj f.tag f.d.obj fun o => { o with
            dec := { o.dec with buf := [], pos := o.dec.pos + o.dec.buf.length, fin := some (total, crc) } }
    | _, _ => s

/-- DUNE_BLOCK_DECODE (R80–R82). -/
def execDuneBlockDecode (r : Fin 8) (s : State) : Host.Outcome State Fault Refusal :=
  .next (s.live fun s => s.decodeOne r)

/-- R107: the seal of an Ace object holds. -/
def State.sealOk (s : State) (o : OBytes) (crc : Nat) : Bool :=
  let i := aSeal o
  decide (s.f (F.LYR_ACE_SEAL_LEN_LEN i) ≠ 0) && decide (s.f (F.LYR_ACE_SEAL_LEN_LEN i) = o.length)
    && decide (s.f (F.LYR_ACE_SEAL_CRC_CRC i) = crc)

/-- R82, R89–R94, R101, R107: what the end-block check gives an object: 0 usable, else status and code. -/
def State.verify (s : State) (j : Job) (o : Obj) (crc : Nat) : Nat × Nat :=
  let present := (j.recSets.filter (fun x => x.num ≠ o.num)).map (fun x => (rFirst x.bytes, rLast x.bytes))
  if crc32c o.bytes ≠ crc then (5, 0)
  else
    let h := chkHeader o.num o.bytes present
    if h ≠ 0 then (4, h)
    else if oClass o.bytes = 4 ∧ j.bufBad o.bytes then (4, 0x13)
    else if oClass o.bytes = 16 ∧ !s.sealOk o.bytes crc then (5, 0)
    else (0, 0)

/-- R101: an object usable later can make the line buffer too short for the job descriptor: the descriptor then fails. -/
def State.descAgain (s : State) (r : Fin 8) (tag : Nat) : State :=
  match s.jobAt tag with
  | none => s
  | some j => match j.usable 0 with
    | some d => if d.cls = 4 ∧ j.bufBad d.bytes then s.objFail r tag 0 4 0x13 else s
    | none => s

/-- OBJECT_END_VERIFY (R82, R92, R107): the object becomes usable or bad. -/
def State.endVerify (s : State) (r : Fin 8) : State :=
  match s.ing.rings[r].working with
  | none => s
  | some f =>
    match s.objOf f, s.jobAt f.tag with
    | some o, some j =>
      match o.dec.fin with
      | none => s
      | some (_, crc) =>
        if o.st ≠ 1 ∨ bits f.d.flags.toNat 0 1 = 0 ∨ f.left ≠ 0 ∨ !o.dec.buf.isEmpty then s
        else
          match s.verify j o crc with
          | (0, _) =>
            (s.modObj f.tag f.d.obj fun o => { o with st := 2, cls := oClass o.bytes, crc := crc, freed := false }).descAgain r f.tag
          | (st, code) =>
            (s.modObj f.tag f.d.obj fun o => { o with cls := oClass o.bytes, crc := crc }).objFail r f.tag f.d.obj st code
    | _, _ => s

def execObjectEndVerify (r : Fin 8) (s : State) : Host.Outcome State Fault Refusal :=
  .next (s.live fun s => s.endVerify r)

/-- R72: a DATA descriptor is finished once its whole payload is decompressed, and with LAST once the end block has been
verified; the payload of an unusable object is pulled and discarded. -/
def State.dataDone (s : State) (f : Fetched) : Bool :=
  match s.objOf f with
  | none => decide (f.left = 0)
  | some o =>
    if f.again then false
    else if o.st = 1 then decide (f.left = 0) && decide (f.upTo ≤ o.dec.pos) && bits f.d.flags.toNat 0 1 == 0
    else decide (f.left = 0)

/-- DATA_DESCRIPTOR_COMPLETE (R72). -/
def State.dataComplete (s : State) (r : Fin 8) : State :=
  match s.ing.rings[r].out with
  | f :: _ =>
    if f.d.op = 2 ∧ !f.done ∧ s.dataDone f then
      (s.onRing r fun x => { x with out := x.out.map (fun g => if g.idx = f.idx then { g with done := true } else g) }).drain r
    else s.drain r
  | [] => s

def execDataDescriptorComplete (r : Fin 8) (s : State) : Host.Outcome State Fault Refusal :=
  .next (s.live fun s => s.dataComplete r)

/-- DECOMPRESS_RESUME (R77): reservation space has returned. -/
def State.decompressResume (s : State) (r : Fin 8) : State :=
  match s.ing.rings[r].working with
  | none => s
  | some f =>
    match s.jobAt f.tag with
    | none => s
    | some j =>
      if j.used < j.resMiB * 1048576 then s.modObj f.tag f.d.obj fun o => { o with dec := { o.dec with wait := false } }
      else s

def execDecompressResume (r : Fin 8) (s : State) : Host.Outcome State Fault Refusal :=
  .next (s.live fun s => s.decompressResume r)

/-! ### The host's ring registers (R67–R70) -/

/-- RING_DOORBELL (R30, R68, R70): too many outstanding descriptors stop the ring and PROD keeps its value. -/
def State.doorbell (s : State) (r : Fin 8) (prod : BitVec 16) : State :=
  if s.inMode .standby || s.inMode .boot || s.inMode .frozen then s
  else
    let w := s.wake
    let x := w.ing.rings[r]
    if x.size - 1 < (prod - x.cons).toNat then
      (w.onRing r fun x => { x with err := true, code := 1 }).event 0x030 r.val
    else w.onRing r fun x => { x with prod := prod }

def execRingDoorbell (r : Fin 8) (prod : BitVec 16) (s : State) : Host.Outcome State Fault Refusal :=
  .next (s.live fun s => s.doorbell r prod)

/-- The host reaches the ring registers: not in `BOOT` or `FROZEN`. -/
def State.hostLive (s : State) (f : State → State) : State :=
  s.live fun s => s.when (!(s.inMode .boot) && !(s.inMode .frozen)) f

/-- RING_ENABLE (R69). -/
def execRingEnable (r : Fin 8) (en : Bool) (s : State) : Host.Outcome State Fault Refusal :=
  .next (s.hostLive fun s => s.onRing r fun x => { x with en := en })

/-- POST_RESET_COMPLETIONS (R34): once the host enables the ring, the entries owed are written ahead of any other. -/
def execPostResetCompletions (r : Fin 8) (s : State) : Host.Outcome State Fault Refusal :=
  .next (s.hostLive fun s => s.when (s.ing.rings[r].en) fun s => s.payOwed r)

/-- Objects partly pulled through the descriptors a ring discards become unusable (R67, R69, R68); nothing more of their streams is
to come. -/
def State.spoil (s : State) : List Fetched → State
  | [] => s
  | f :: t =>
    (if f.d.op = 2 ∧ !f.done then
      (match s.objOf f with
      | some o => if o.st = 1 ∨ o.st = 3 then
          (s.when (o.st == 1) fun s => s.objLost f.tag f.d.obj).modObj f.tag f.d.obj fun o => { o with dec := { o.dec with last := true } }
        else s
      | none => s)
     else s).spoil t

/-- Ring r's descriptors not yet completed discarded, with what they had put into its queue; not what a seat in `STANDBY` has been
forwarded, which is none of its ring's (R68). -/
def State.discardRing (s : State) (r : Fin 8) : State :=
  if s.inMode .standby then s
  else ((s.spoil s.ing.rings[r].out).qFlush (ringQ r)).onRing r fun x => { x with out := [], pull := [] }

/-- R69: RST of a ring's CTL.  Entries owed for descriptors completed before it are gone; what job events still owe is written into
the restarted completion ring. -/
def State.ringReset (s : State) (r : Fin 8) : State :=
  let s1 := (s.discardRing r).onRing r fun x => { x with
    err := false
    code := 0
    prod := 0
    cons := 0
    ack := 0
    fetch := 0
    written := 0
    cpl := []
    owed := x.owed.filter (fun c => c.kind ≠ 0) }
  if s1.ing.rings[r].en then s1.payOwed r else s1

/-- RING_RESET (R69). -/
def execRingReset (r : Fin 8) (s : State) : Host.Outcome State Fault Refusal := .next (s.hostLive fun s => s.ringReset r)

/-- R70: a write of CPL_ACK: a ring stopped for a full completion ring resumes once there is room. -/
def State.cplAck (s : State) (r : Fin 8) (ack : BitVec 16) : State :=
  let s1 := s.onRing r fun x =>
    let y := { x with ack := ack }
    { y with cpl := y.cpl.drop (y.cpl.length - y.unacked) }
  if s1.ing.rings[r].en then s1.payOwed r else s1

/-- CPL_ACK_WRITE (R70). -/
def execCplAckWrite (r : Fin 8) (ack : BitVec 16) (s : State) : Host.Outcome State Fault Refusal :=
  .next (s.hostLive fun s => s.cplAck r ack)

/-- FUNCTION_LEVEL_RESET (R67, R69): every ring loses its registers and its descriptors not yet completed; entries that job
events still owe stay owed. -/
def State.flr (s : State) : State :=
  (List.finRange 8).foldl (fun s r => (s.discardRing r).onRing r fun x => {
    owed := x.owed.filter (fun c => c.kind ≠ 0), out := x.out, pull := x.pull }) s

/-- FUNCTION_LEVEL_RESET: Bus Master Enable is cleared with it (PRESUMED, log entry 59: R67 does not name it; PCI Express resets the
function's command register). -/
def execFunctionLevelReset (s : State) : Host.Outcome State Fault Refusal :=
  .next (s.live fun s => s.flr.onIng fun g => { g with bme := false })

/-- BUS_MASTER_DISABLE and BUS_MASTER_ENABLE (R67). -/
def execBusMasterDisable (s : State) : Host.Outcome State Fault Refusal :=
  .next (s.live fun s => s.onIng fun g => { g with bme := false })

def execBusMasterEnable (s : State) : Host.Outcome State Fault Refusal :=
  .next (s.live fun s => s.onIng fun g => { g with bme := true })

/-- Chunks of a list dropped until `n` bytes are gone. -/
def dropBytes (n : Nat) : List (List Byte) → List (List Byte)
  | [] => []
  | c :: t => if n = 0 then c :: t else dropBytes (n - c.length) t

/-- The descriptor that the first bytes after `n` bytes of a ring's payload belong to, and how many of its bytes lie behind them. -/
def readFrom (n : Nat) : List Fetched → Option (Fetched × Nat)
  | [] => none
  | f :: t => if n < f.left then some (f, f.left - n) else readFrom (n - f.left) t

/-- PCIE_READ_ERROR (R70): the ring stops with code 0x2.  The object whose payload was being read, the oldest payload not yet in the
queue, is unusable, and its descriptor completes with status PCIE; descriptors fetched already complete. -/
def State.pcieError (s : State) (r : Fin 8) : State :=
  let s1 := (s.onRing r fun x => { x with err := true, code := 2 }).event 0x030 r.val
  let x := s1.ing.rings[r]
  let l := x.out.filter (fun f => f.d.op = 2)
  let waits := (x.pull.map List.length).foldl (· + ·) 0
  match readFrom ((l.map (·.left)).foldl (· + ·) 0 - waits) l with
  | none => s1
  | some (f, n) =>
    ((s1.objLost f.tag f.d.obj).modObj f.tag f.d.obj fun o => { o with dec := { o.dec with last := true } }).onRing r fun x => { x with
      pull := dropBytes n x.pull
      out := x.out.map (fun g => if g.idx = f.idx then { g with left := g.left - n, status := 7, again := false } else g) }

def execPcieReadError (r : Fin 8) (s : State) : Host.Outcome State Fault Refusal :=
  .next (s.live fun s => s.when (s.ing.bme && !(s.inMode .standby)) fun s => s.pcieError r)

end Sys2Proof.Machine
end

