-- ==== Sys2Proof/Machine/Cmp.lean ====
section
/-! DEFINITION. The compressor's contexts (R80, R83–R86): blocks, the stream of a job, and the archive pieces they take. -/
namespace Sys2Proof.Machine

/-- Context c changed by `f`. -/
def State.onCtx (s : State) (c : Fin 6) (f : CmpCtx → CmpCtx) : State := s.onIng fun g => { g with ctx := vmod g.ctx c f }

/-- Bytes into context c, counted in whole MiB. -/
def State.cmpIn (s : State) (c : Fin 6) (n : Nat) : State :=
  let m := s.ing.ctx[c].inRem + n
  (s.onCtx c fun x => { x with inRem := m % 1048576 }).bumpBy (F.CMP_CTX_IN_MIB c.val) (m / 1048576)

/-- Bytes out of context c into its job's archive region, counted in whole MiB. -/
def State.cmpOut (s : State) (c : Fin 6) (n : Nat) : State :=
  let m := s.ing.ctx[c].outRem + n
  ((s.onCtx c fun x => { x with outRem := m % 1048576 }).bumpBy (F.CMP_CTX_OUT_MIB c.val) (m / 1048576)).modJob s.ing.ctx[c].tag
    fun j => { j with archBytes := j.archBytes + n }

/-- R80: FLAGS of a block. -/
def ArchBlock.flags (b : ArchBlock) : Nat := b.flush.toNat + 2 * b.lastSeg.toNat

/-- R80: the 8-byte header of a block. -/
def ArchBlock.header (b : ArchBlock) : List Byte :=
  let raw := leBytes 2 (b.raw.length - 1)
  let cod := leBytes 2 (b.cod - 1)
  let chk := xorBytes ([0xD5, BitVec.ofNat 8 b.type, BitVec.ofNat 8 b.flags] ++ raw ++ cod)
  [0xD5, BitVec.ofNat 8 b.type, BitVec.ofNat 8 b.flags, BitVec.ofNat 8 chk] ++ raw ++ cod

/-- A block written into the archive stream of context c, header and payload. -/
def State.putBlock (s : State) (c : Fin 6) (b : ArchBlock) : State := (s.onCtx c fun x => { x with blk := some b }).cmpOut c (8 + b.cod)

/-- R80, R83: the block being filled leaves.  Which coded form the compressor finds is a free choice; one not smaller than the raw form
is written raw.  In readback mode a mismatch, a free choice too, is written raw and recorded. -/
def State.blockOut (s : State) (c : Fin 6) (flush lastSeg : Bool) : State :=
  let x := s.ing.ctx[c]
  let n := x.fill.length
  if n = 0 then s
  else
    let bad := x.verify && s.freeBit
    let m := if bad then n else min n (1 + s.drawn.freeNat)
    let s1 := ((s.drawn.drawn).onCtx c fun x => { x with fill := [] }).putBlock c
      { type := if m < n then 1 else 2, flush := flush, lastSeg := lastSeg, raw := x.fill, cod := m }
    if bad then (s1.bump (F.CMP_CTX_MISM_COUNT c.val)).event 0x034 c.val else s1

/-- R80, R83: the end block of a stream: its raw length and the CRC-32C of the original data. -/
def CmpCtx.endBlock (x : CmpCtx) : ArchBlock := { type := 3, raw := leBytes 8 x.raw ++ leBytes 4 (x.crc ^^^ 0xFFFFFFFF), cod := 12 }

/-- R80, R83: the stream of context c ends with its end block. -/
def State.ctxEnd (s : State) (c : Fin 6) : State :=
  if s.ing.ctx[c].active then
    let s1 := s.blockOut c false false
    (s1.putBlock c s1.ing.ctx[c].endBlock).onCtx c fun x => { x with active := false }
  else s

/-- R83: context c starts the stream of a job, under the verify mode set now. -/
def State.ctxStart (s : State) (c : Fin 6) (tag : Nat) : State :=
  s.onCtx c fun x => { x with
    tag := tag, active := true, verify := s.fb (F.CMP_CTX_CFG_VERIFY c.val), fill := [], raw := 0, crc := 0xFFFFFFFF, blk := none }

/-- Raw bytes put into the block being filled. -/
def State.ctxPut (s : State) (c : Fin 6) (l : List Byte) : State :=
  (s.onCtx c fun x => { x with fill := x.fill ++ l, raw := x.raw + l.length, crc := crc32cReg x.crc l }).cmpIn c l.length

/-- R80: a block ends at 65,536 raw bytes, once more bytes follow. -/
def State.ctxFill (s : State) (c : Fin 6) (l : List Byte) : State :=
  let room := 65536 - s.ing.ctx[c].fill.length
  if l.length ≤ room then s.ctxPut c l else ((s.ctxPut c (l.take room)).blockOut c false false).ctxPut c (l.drop room)

/-- R83: raw bytes of a job for context c; a stream of another job ends before; `last` ends the block with LAST_SEG. -/
def State.ctxTake (s : State) (c : Fin 6) (tag : Nat) (l : List Byte) (last : Bool) : State :=
  let s0 := if s.ing.ctx[c].active && s.ing.ctx[c].tag == tag then s else (s.ctxEnd c).ctxStart c tag
  let s1 := s0.ctxFill c l
  if last then s1.blockOut c false true else s1

/-- A job of this tag still takes archive data. -/
def State.archLive (s : State) (tag : Nat) : Bool :=
  match s.jobAt tag with
  | some j => j.st == .bound || j.st == .printing || j.st == .ending
  | none => false

/-- The context of an archive queue. -/
def archCtx (q : Fin 64) : Fin 6 := ⟨(q.val - 56) % 4, by omega⟩

/-- R83, R86: an archive piece taken by its context; one of a job that is cut off is discarded. -/
def State.archTake (s : State) (q : Fin 64) (p : ArchPiece) : State :=
  if s.archLive p.tag then s.ctxTake (archCtx q) p.tag p.data p.last else s

/-- An archive piece of a job in a queue. -/
def isPiece (tag : Nat) (e : Entry) : Bool := match e with | .arch p => p.tag == tag | _ => false

/-- Queue q holds no archive piece of a job. -/
def State.archClear (s : State) (tag : Nat) : Bool :=
  (List.finRange 64).all (fun q => decide (q.val < 56 ∨ 60 ≤ q.val) || !(s.cvq[q].all.any (isPiece tag)))

/-- The pieces of a job leave the archive queues. -/
def State.dropArch (s : State) (tag : Nat) : State :=
  (List.finRange 64).foldl (fun s q =>
    if 56 ≤ q.val ∧ q.val < 60 then s.onQ q fun x => { x with
      crest := x.crest.filter (fun e => !isPiece tag e)
      dune := x.dune.filter (fun e => !isPiece tag e)
      tail := x.tail.filter (fun e => !isPiece tag e) } else s) s

/-- R76: what the archive queues hold of a job's lines below `upTo` is compressed. -/
def State.archRest (s : State) (tag upTo : Nat) : State :=
  (List.finRange 64).foldl (fun s q =>
    if 56 ≤ q.val ∧ q.val < 60 then
      (archsOf s.cvq[q].all).foldl (fun s p => if p.tag = tag ∧ lineBefore p.line upTo then s.archTake q p else s) s
    else s) s

/-- R76, R86: a job's streams stop where they are. -/
def State.ctxDrop (s : State) (tag : Nat) : State :=
  (s.dropArch tag).onIng fun g => { g with ctx := g.ctx.map (fun c => if c.tag = tag ∧ c.active then { c with active := false, fill := [] } else c) }

/-- R76: the end blocks of a job's streams. -/
def State.endBlocks (s : State) (tag : Nat) : State :=
  (List.finRange 6).foldl (fun s c => if s.ing.ctx[c].tag = tag then s.ctxEnd c else s) s

/-- COMPRESS_FLUSH_TIMEOUT (R83): the queue of context c has held no entry for 64 µs: the block ends, with FLUSH. -/
def State.flushTimeout (s : State) (c : Fin 6) : State :=
  let q : Fin 64 := ⟨56 + c.val % 4, by omega⟩
  if s.ing.ctx[c].active && (decide (4 ≤ c.val) || decide (s.cvq[q].fill = 0)) then s.blockOut c true false else s

def execCompressFlushTimeout (c : Fin 6) (s : State) : Host.Outcome State Fault Refusal :=
  .next (s.live fun s => s.flushTimeout c)

end Sys2Proof.Machine
end

