-- ==== Sys2Proof/Machine/Memory.lean ====
section
/-! DEFINITION. The G5-DDR controller (R193–R211): the interleave, refresh, delay sets, error records, diagnosis, scrub and
what a retirement does to the store. -/
namespace Sys2Proof.Machine

/-- Channel c changed by `f`. -/
def State.onMemCh (s : State) (c : Fin 8) (f : MemCh → MemCh) : State := s.onMem fun m => { m with ch := vmod m.ch c f }

/-- The codes of `MEM_CH_STAT`.STATE. -/
def MemSt.code : MemSt → Nat
  | .off => 0 | .init => 1 | .active => 2 | .quiesced => 3 | .selfRefresh => 4 | .frozen => 5 | .retired => 6

/-! ### Interleave and mapping (R193, R195, R196) -/

/-- R195: a channel is in LIST: enabled and not retired. -/
def MemCh.listed (x : MemCh) : Bool := x.st != .off && x.st != .retired && x.st != .init

/-- R195: LIST. -/
def State.memList (s : State) : List (Fin 8) := (List.finRange 8).filter (fun c => s.mem.ch[c].listed)

/-- R193: capacity of a channel in MiB. -/
def State.chanMiB (s : State) : Nat :=
  (if s.fb F.MEM_CFG_DENSITY then 32768 else 16384) * (if s.fb F.MEM_CFG_RANKS then 2 else 1)

/-- The interleave grain in bytes. -/
def State.grain (s : State) : Nat :=
  let g := s.f F.MEM_CFG_GRAIN_LOG2
  2 ^ (if 8 ≤ g ∧ g ≤ 16 then g else 12)

/-- R195: channel and local address of a global address. -/
def State.memMap (s : State) (a : Nat) : Option (Fin 8 × Nat) :=
  let l := s.memList
  let g := s.grain
  let u := a / g
  match l[u % l.length]? with
  | some c => some (c, u / l.length * g + a % g)
  | none => none

/-- R195: the global address of a local address of a channel in LIST. -/
def State.memGlobal (s : State) (c : Fin 8) (l : Nat) : Nat :=
  let g := s.grain
  ((l / g) * s.memList.length + s.memList.idxOf c) * g + l % g

/-- R196: the scheme decodes a local address; `bankBits` is 1 with 8 Gbit devices and 2 with 16 Gbit, `rankBits` 0 or 1. -/
def dramDecode (scheme bankBits rankBits l : Nat) : DramAddr :=
  let row := fun (lo : Nat) => bits l lo 16
  if scheme = 0 then
    { col := bits l 7 7, bg := bits l 14 3, bank := bits l 17 bankBits, rank := bits l (17 + bankBits) rankBits,
      row := row (17 + bankBits + rankBits) }
  else if scheme = 3 then
    let b := 9 + rankBits
    { col := bits l 7 2 + 4 * bits l (b + 3) 5, rank := bits l 9 rankBits, bg := bits l b 3, bank := bits l (b + 8) bankBits,
      row := row (b + 8 + bankBits) }
  else
    let r := row (17 + bankBits + rankBits)
    let x := decide (scheme = 2)
    { col := bits l 7 2 + 4 * bits l 12 5,
      bg := bits l 9 3 ^^^ (if x then bits r 0 3 else 0),
      bank := bits l 17 bankBits ^^^ (if x then bits r 3 bankBits else 0),
      rank := bits l (17 + bankBits) rankBits, row := r }

/-- R196: banks per bank group, as bits: 1 with 8 Gbit devices, 2 with 16 Gbit. -/
def State.bankBits (s : State) : Nat := if s.fb F.MEM_CFG_DENSITY then 2 else 1

/-- R196: where a channel-local address lies, by `MEM_CFG`. -/
def State.dramAt (s : State) (l : Nat) : DramAddr :=
  dramDecode (s.f F.MEM_CFG_SCHEME) s.bankBits (if s.fb F.MEM_CFG_RANKS then 1 else 0) l

/-! ### Requests (R197, R198) and neighbour refresh (R200) -/


/-- R198: two requests touch a common unit of 64 B. -/
def MemReq.overlaps (a b : MemReq) : Bool := decide (a.l / 64 * 64 < b.l + b.n) && decide (b.l / 64 * 64 < a.l + a.n)

/-- R198: a later request waits for an earlier one, unless both read. -/
def MemReq.waitsFor (later earlier : MemReq) : Bool := (later.write || earlier.write) && later.overlaps earlier

/-- R197: units of 64 B in the write queue. -/
def MemCh.writeUnits (x : MemCh) : Nat := (x.q.filter (·.write)).foldl (fun n r => n + cdiv r.n 64) 0

/-- R197: there is room for a request: 48 accesses in the read queue, 64 units in the write queue. -/
def MemCh.room (x : MemCh) (r : MemReq) : Bool :=
  if r.write then decide (x.writeUnits + cdiv r.n 64 ≤ 64) else decide ((x.q.filter (fun y => !y.write)).length < 48)

/-- R197, R198: a request joins the queues; a read that waits for a queued write is counted. -/
def State.memPush (s : State) (c : Fin 8) (r : MemReq) : State :=
  let x := s.mem.ch[c]
  if !x.room r then s
  else
    let s1 := if !r.write && x.q.any r.waitsFor then s.bump (F.MEM_RAW_CNT_COUNT c.val) else s
    s1.onMemCh c fun x => { x with q := x.q ++ [r] }

/-- R198: the requests that wait for no earlier one, with their places in the queue. -/
def readyReqs : List MemReq → List MemReq → Nat → List (Nat × MemReq)
  | _, [], _ => []
  | before, r :: t, i =>
    let l := readyReqs (before ++ [r]) t (i + 1)
    if before.any r.waitsFor then l else (i, r) :: l

/-- R197: how far back a request stands at device time t: a class 1 request that has waited 2 µs is served as class 0, and so is one of
class 2 that has waited 20 µs. -/
def MemReq.rank (r : MemReq) (t : Nat) : Nat :=
  if (r.cls = 1 ∧ r.since + 2000 ≤ t) ∨ (r.cls = 2 ∧ r.since + 20000 ≤ t) then 0 else r.cls

/-- R197: the request served next: writes while they drain, else reads, by class and then arrival; writes too when no read can go
(DESIGN CHOICE, log entry 61). -/
def MemCh.choose (x : MemCh) (t : Nat) : Option (Nat × MemReq) :=
  let l := readyReqs [] x.q 0
  let by_ := fun (l : List (Nat × MemReq)) => (l.filter (fun a => a.2.rank t = 0) ++ l.filter (fun a => a.2.rank t = 1) ++ l).head?
  let w := by_ (l.filter (·.2.write))
  let r := by_ (l.filter (fun a => !a.2.write))
  if x.drain then w.or r else r.or w

/-- R197: the write drain starts at 48 units and stops at 16. -/
def MemCh.drainNow (x : MemCh) : MemCh :=
  let n := x.writeUnits
  { x with drain := if 48 ≤ n then true else if n ≤ 16 then false else x.drain }

/-- R200: one step of the LFSR x³² + x²² + x² + x + 1, shifting up (DESIGN CHOICE, log entry 61: the rule names the polynomial only). -/
def lfsrStep (v : BitVec 32) : BitVec 32 :=
  (v <<< 1) ||| (if (v.getLsbD 31 != v.getLsbD 21) != (v.getLsbD 1 != v.getLsbD 0) then 1 else 0)

/-- R200: the divisor in force, held to 256 to 8,192. -/
def State.nrfDiv (s : State) : Nat := clampN 256 8192 (s.f F.MEM_NRF_DIV_DIV)

/-- R200: n activates: the LFSR after them, and the neighbour refreshes due. -/
def lfsrRun (div : Nat) : Nat → BitVec 32 → BitVec 32 × Nat
  | 0, v => (v, 0)
  | n + 1, v =>
    let v1 := lfsrStep v
    let r := lfsrRun div n v1
    (r.1, r.2 + if v1.toNat % div = 0 then 1 else 0)

/-- R197, R200: an access at `d` at device time t: a row not open is activated, with its neighbours refreshed where that is due.  The
activates of requests that the model does not hold singly come before it, a free number of them (log entry 61). -/
def State.memAccess (s : State) (c : Fin 8) (d : DramAddr) (t : Nat) : State :=
  let x := s.mem.ch[c]
  let same := fun (o : OpenRow) => o.rank == d.rank && o.bg == d.bg && o.bank == d.bank
  let row : OpenRow := { rank := d.rank, bg := d.bg, bank := d.bank, row := d.row, used := t }
  let rest := x.rows.filter (fun o => !same o && decide (t < o.used + 80))
  if x.rows.any (fun o => same o && o.row == d.row && decide (t < o.used + 80)) then s.onMemCh c fun x => { x with rows := row :: rest }
  else
    let r := lfsrRun s.nrfDiv (s.freeNat + 1) x.lfsr
    ((s.onMemCh c fun x => { x with rows := row :: rest, lfsr := r.1 }).bumpBy (F.MEM_NRF_CNT_COUNT c.val) r.2).drawn

/-- R197: a channel serves one request; one that is not active holds its queues (R202, R206). -/
def State.memServe (s : State) (c : Fin 8) : State :=
  let x := s.mem.ch[c].drainNow
  if x.st ≠ .active then s
  else
    match x.choose s.nowNs with
    | some (i, r) =>
      (s.onMemCh c fun _ => ({ x with q := x.q.eraseIdx i } : MemCh).drainNow).memAccess c (s.dramAt r.l) s.nowNs
    | none => s

/-- Every channel serves one request. -/
def State.memTick (s : State) : State := (List.finRange 8).foldl State.memServe s

/-! ### Refresh (R199) -/

/-- R199: the refresh rate of a band. -/
def bandRef (b : Nat) : Nat := if b ≤ 1 then 0 else if b = 2 then 1 else 2

/-- R199, R211: the rate of the next refresh: the band's, or a higher one the devices demand; one demanded during a quiesce applies
at its end. -/
def State.refRate (s : State) (x : MemCh) : Nat :=
  max (bandRef s.thm.band) (if x.st = .quiesced then min x.ref x.mr4 else x.mr4)

/-- REFRESH_DUE (R199): issued with every postponed one, all banks precharged, or postponed while class 0 requests wait, up to 4
intervals.  A refresh takes no time here, so a neighbour refresh never finds its bank under refresh (R211). -/
def State.refreshDue (s : State) (c : Fin 8) (busy : Bool) : State :=
  let x := s.mem.ch[c]
  if x.st = .active ∨ x.st = .quiesced ∨ x.st = .frozen then
    let r := s.refRate x
    if busy ∧ x.postponed < 4 then s.onMemCh c fun x => { x with postponed := x.postponed + 1, ref := r }
    else s.onMemCh c fun x => { x with postponed := 0, ref := r, rows := [] }
  else s

def execRefreshDue (c : Fin 8) (busy : Bool) (s : State) : Host.Outcome State Fault Refusal :=
  .next (s.live fun s => s.refreshDue c busy)

/-- MR4_POLL (R199): 3 stands for a condition beyond 4×. -/
def State.mr4Poll (s : State) (c : Fin 8) (rate : Fin 4) : State :=
  let x := s.mem.ch[c]
  if x.st = .active ∨ x.st = .quiesced ∨ x.st = .frozen then
    let s1 := s.onMemCh c fun x => { x with mr4 := min 2 rate.val, hot := x.hot || decide (rate.val = 3) }
    if rate.val = 3 ∧ !x.hot then s1.event 0x082 c.val else s1
  else s

def execMr4Poll (c : Fin 8) (rate : Fin 4) (s : State) : Host.Outcome State Fault Refusal :=
  .next (s.live fun s => s.mr4Poll c rate)

/-! ### Delay sets (R201, R202) -/

/-- R202: channels that still have to load the newest set, ascending. -/
def State.toLoad (s : State) : List (Fin 8) :=
  (List.finRange 8).filter (fun c => s.mem.ch[c].st = .active ∧ s.mem.ch[c].dly ≠ s.thm.band)

/-- R202, R211: with no channel quiesced, the next one after `from_` quiesces; the first again once the end is reached. -/
def State.quiesceNext (s : State) (from_ : Nat) : State :=
  if s.mem.ch.any (fun x => x.st == .quiesced) then s
  else
    let l := s.toLoad
    match (l.filter (fun c => from_ ≤ c.val) ++ l).head? with
    | some c => s.onMemCh c fun x : MemCh => { x with st := .quiesced, loading := s.thm.band, rows := [] }
    | none => s

/-- `MEM_STAT`.BAND follows once every active channel holds the newest set. -/
def State.bandSettled (s : State) : State :=
  if (List.finRange 8).all (fun c => !s.mem.ch[c].listed || decide (s.mem.ch[c].dly = s.thm.band) || s.mem.ch[c].st == .frozen) then
    s.onMem fun m => { m with band := s.thm.band }
  else s

/-- R202: a band change starts the round; in self-refresh the set is loaded on wake (R28). -/
def State.memBand (s : State) : State := s.quiesceNext 0

/-- DELAY_SET_LOAD_DONE (R202). -/
def State.delayLoaded (s : State) : State :=
  match (List.finRange 8).find? (fun c => s.mem.ch[c].st == .quiesced) with
  | none => s
  | some c =>
    ((s.onMemCh c fun x => { x with st := .active, dly := x.loading, ref := max x.ref x.mr4 }).quiesceNext (c.val + 1)).bandSettled

def execDelaySetLoadDone (s : State) : Host.Outcome State Fault Refusal := .next (s.live State.delayLoaded)

/-! ### Errors (R204, R206) -/

/-- R203: symbol k of a beat: the 4 bits of device k of the rank.  Symbols 0 to 7 are data bits 31:0, on subchannel A, 8 to 15 data bits
63:32, on B, 16 to 19 check symbols. -/
def beatSym (b : BitVec 80) (k : Nat) : BitVec 4 := (b >>> (4 * k)).setWidth 4

/-- The symbols of a beat that an error touches. -/
def wrongSyms (e : BitVec 80) : List (Fin 20) := (List.finRange 20).filter (fun k => beatSym e k.val ≠ 0)

/-- R203: the code corrects any error confined to one symbol and detects any error in two; beyond that nothing is guaranteed
(R205, a free value). -/
def verdictOf (e : BitVec 80) : BeatVerdict :=
  match wrongSyms e with
  | [] => .clean
  | [k] => .fixed k
  | [_, _] => .bad
  | _ => Config.wideError e

/-- R204, R206: what a read of these beats comes to. -/
inductive ReadVerdict
  | clean
  /-- Corrected: the symbol and the error of the lowest-numbered beat corrected, and how many beats were. -/
  | fixed (k : Fin 20) (e : BitVec 80) (beats : Nat)
  /-- Uncorrectable: the error of the first failing beat. -/
  | bad (e : BitVec 80)
deriving DecidableEq, Repr

/-- R204: the symbol a beat's correction touches. -/
def fixedSym (e : BitVec 80) : Option (Fin 20) := match verdictOf e with | .fixed k => some k | _ => none

/-- R204, R206: the verdict on the beats of an access. -/
def readVerdict (l : List (BitVec 80)) : ReadVerdict :=
  match l.find? (fun e => verdictOf e == .bad) with
  | some e => .bad e
  | none =>
    let f := l.filter (fun e => (fixedSym e).isSome)
    match f with
    | e :: _ => .fixed ((fixedSym e).getD 0) e f.length
    | [] => .clean

/-- R204: the last EVT_MEM_CE of channel c lies 1 ms back. -/
def State.ceDue (s : State) (c : Fin 8) : Bool :=
  let now := s.nowNs
  match s.mem.ch[c].ceAt with
  | some t => decide (t + 1000000 ≤ now) || decide (now < t)
  | none => true

/-- R204: the class 0 writeback of a corrected access, unless a write to any unit of it is queued already (R211). -/
def State.writeback (s : State) (c : Fin 8) (l : Nat) : State :=
  let r : MemReq := { write := true, l := l / 128 * 128, n := 128, cls := 0, since := s.nowNs }
  if s.mem.ch[c].q.any (fun y => y.write && y.overlaps r) then s else s.memPush c r

/-- R204: the records of a corrected access at local address l: symbol k, its error e, the beats corrected; EVT_MEM_CE at most once
per channel per ms. -/
def State.ceRecord (s : State) (c : Fin 8) (l src : Nat) (k : Fin 20) (e : BitVec 80) (beats : Nat) : State :=
  let r := (s.dramAt l).rank
  let a := s.memGlobal c l
  let s1 := ((s.bump (F.MEM_CE_CNT_COUNT c.val)).bump (F.MEM_CE_SYM_COUNT c.val r k.val)).setF (F.MEM_CE_ADDR_LO_ADDR c.val) (a % 2 ^ 32)
  let s2 := ((((((s1.setF (F.MEM_CE_ADDR_HI_ADDR c.val) (a / 2 ^ 32 % 256)).setF (F.MEM_CE_INFO_SYM c.val) k.val).setF
    (F.MEM_CE_INFO_RANK c.val) r).setF (F.MEM_CE_INFO_SRC c.val) src).setF (F.MEM_CE_INFO_SYND c.val) (Config.syndrome e).toNat).setF
    (F.MEM_CE_INFO_BEATS c.val) beats)
  if s.ceDue c then (s2.event 0x080 (c.val + 8 * k.val + 256 * r)).onMemCh c fun x => { x with ceAt := some s.nowNs } else s2

/-- R204: a corrected access, before its upset is carried further. -/
def State.correctedAt (s : State) (c : Fin 8) (l src : Nat) (k : Fin 20) (e : BitVec 80) (beats : Nat) : State :=
  ((s.ceRecord c l src k e beats).writeback c l).upset c.val

/-- R206: the captures of an uncorrectable error at local address l: KIND, subchannel, source, syndrome and command. -/
def State.ueRecord (s : State) (c : Fin 8) (l kind subch src synd cmd : Nat) : State :=
  let n := c.val
  let a := s.memGlobal c l
  let d := s.dramAt l
  let s1 := (((s.setF (F.MEM_UE_ADDR_LO_ADDR n) (a % 2 ^ 32)).setF (F.MEM_UE_ADDR_HI_ADDR n) (a / 2 ^ 32 % 256)).setF
    (F.MEM_UE_INFO_KIND n) kind).setF (F.MEM_UE_INFO_RANK n) d.rank
  let s2 := ((s1.setF (F.MEM_UE_INFO_SUBCH n) subch).setF (F.MEM_UE_INFO_SRC n) src).setF (F.MEM_UE_INFO_SYND n) synd
  let s3 := (((s2.setF (F.MEM_UE_CMD_CMD n) cmd).setF (F.MEM_UE_CMD_BANK n) (d.bg * 2 ^ s.bankBits + d.bank)).setF (F.MEM_UE_CMD_ROW n)
    d.row).setF (F.MEM_UE_CMD_COL n) d.col
  ((s3.setF (F.MEM_UE_TIME_SEC n) (s.tim.sec % 2 ^ 32)).onMemCh c fun x => { x with st := .frozen }).event 0x081 (n + 16 * kind)

/-- R206: once the seat is `FROZEN` the other channels enter self-refresh. -/
def State.othersRest (s : State) : State :=
  s.onMem fun m => { m with ch := m.ch.map (fun x =>
    if x.st = .active ∨ x.st = .quiesced then { x with st := .selfRefresh, rows := [] } else x) }

/-! ### Diagnosis and scrub (R207, R208) -/

/-- R207: the raw beat of a diagnosis read, as the devices return it, at once; none: the addressed channel is off.  DONE = 0 is
read as "a read is running", and none runs between commands. -/
def State.diagBeat (s : State) (data : BitVec 64) (check : BitVec 16) : Option State :=
  let c : Fin 8 := ⟨s.f F.MEM_DIAG_ADDR_HI_RANK_CH % 8, by omega⟩
  if s.mem.ch[c].st = .off then none
  else some ((((s.setF (F.MEM_DIAG_DATA_DATA 0) (data.toNat % 2 ^ 32)).setF (F.MEM_DIAG_DATA_DATA 1) (data.toNat / 2 ^ 32)).setF
    (F.MEM_DIAG_DATA_DATA 2) (check.toNat + 65536)))

/-- DIAG_READ (R207). -/
def State.diagRead (s : State) (ses : Fin 5) (data : BitVec 64) (check : BitVec 16) : State :=
  s.sesCmd ses .maker 0x150028 1 fun s => s.diagBeat data check

def execDiagRead (ses : Fin 5) (data : BitVec 64) (check : BitVec 16) (s : State) : Host.Outcome State Fault Refusal :=
  .next (s.diagRead ses data check)

/-- R324: the modes in which background work runs. -/
def State.background (s : State) : Bool := !s.inMode .boot && !s.inMode .frozen && !s.sys.cold

/-- SCRUB_READ (R208): the next access of channel c, at class 2; a pass ends at the end of the channel.  With the read queue full
(R197) it waits. -/
def State.scrubRead (s : State) (c : Fin 8) : State :=
  let x := s.mem.ch[c]
  let r : MemReq := { write := false, l := x.scrub * 128, n := 128, cls := 2, since := s.nowNs }
  if s.background && s.fb F.MEM_SCRUB_CFG_EN && x.st == .active && x.room r then
    (s.memPush c r).onMemCh c fun x =>
      if s.chanMiB * 8192 ≤ x.scrub + 1 then { x with scrub := 0, passes := min 0xFFF (x.passes + 1) }
      else { x with scrub := x.scrub + 1 }
  else s

def execScrubRead (c : Fin 8) (s : State) : Host.Outcome State Fault Refusal := .next (s.live fun s => s.scrubRead c)

/-! ### Capacity and retirement (R195, R209, R210) -/

/-- R195: CAP follows LIST, and everything laid out against it is tested again (R66, R210). -/
def State.capNow (s : State) : State :=
  let s1 := s.setF F.MEM_CAP_MIB (s.memList.length * s.chanMiB)
  let s2 := (List.finRange 64).foldl State.ringTest s1
  s2.onIng fun g => { g with lsBad := decide (s2.f F.MEM_CAP_MIB < s2.f F.ING_LS_BASE_BASE + s2.f F.ING_LS_SIZE_SIZE) }

/-- R209: the channels whose retirement waits and may now be carried out: not the last ones in LIST. -/
def State.chRetiring (s : State) : List (Fin 8) :=
  let l := (List.finRange 8).filter (fun c => (s.board c.val).perm && s.mem.ch[c].listed && s.mem.ch[c].st != .frozen)
  if s.memList.length ≤ l.length then [] else l

/-- R210, steps 1, 2 and 4: the channels leave LIST, every queue is flushed, CAP shrinks and the zero fill starts.  A round of delay
sets that stood at one of them goes on with the next (R202). -/
def State.leaveList (s : State) (l : List (Fin 8)) : State :=
  let at_ := (l.filter (fun c => s.mem.ch[c].st == .quiesced)).head?
  let s1 := (l.foldl (fun s c => s.onMemCh c fun x => { x with st := .retired }) s).onMem fun m => { m with
    fill := m.fill ++ l, fillAt := s.nowNs, ch := m.ch.map (fun x => { x with q := [], drain := false }) }
  let s2 := match at_ with | some c => (s1.quiesceNext (c.val + 1)).bandSettled | none => s1
  ((List.finRange 64).foldl State.qFlush s2).capNow

/-- R210, steps 6 and 7: target tables are rewritten and the channels marked. -/
def State.fillDone (s : State) : State :=
  let s1 := (List.finRange 8).foldl (fun s b => s.onBar b fun x => { x with
    tgt := x.inf, dirty := [] }) s
  s.mem.fill.foldl (fun s c => (s.markRetired c.val).event 0x084 c.val) (s1.onMem fun m => { m with fill := [] })

end Sys2Proof.Machine
end

