-- ==== Sys2Proof/Machine/Nvm.lean ====
section
/-! DEFINITION. The serial NOR flash (R39–R47): calibration commits, image transfer and activation, the record pool, the pages
of the audit ring (R52); logins (R48). -/
namespace Sys2Proof.Machine

/-! ### Images and operations -/

/-- R41: the header check of an image against the device. -/
def imageHdrOk (i : Image) : Bool := i.hdrCrcOk && decide (i.part = 0x0820) && decide (i.die = 2) && i.keyMk.isSome

/-- R42: an image that passes header and CRC. -/
def imageOk (i : Image) : Bool := imageHdrOk i && i.bodyCrcOk

/-- The bank that is not loaded. -/
def Cfg.inactive (c : Cfg) : Fin 2 := if c.bank = 0 then 1 else 0

/-- R47: a calibration commit or an image transfer runs; an activation is over at once. -/
def State.nvmRuns (s : State) : Bool := s.cfg.run.isSome || s.cfg.xfer.isSome

/-- An operation starts: `CFG_NVM_STAT`.OP, with RESULT 0 until it ends. -/
def State.nvmOp (s : State) (op : Nat) (busy : Bool) : State := s.onCfg fun c => { c with op := op, result := 0, busy := busy }

/-! ### The calibration set (R44, R45) -/

/-- R41, R44: the size limits of an image and of a calibration set, in bytes. -/
def imageMax : Nat := 25165824
def calMax : Nat := 6291456

/-- R44: the point a lane's equaliser starts at: its adaptation result, or the factory's. -/
def eqIn (c : CalSet) : RegMap := rmerge c.eq c.eqStart

/-- R49: the calibration set, as an installer or maker reads it out through the management protocol. -/
def State.calRead (s : State) (ses : Fin 5) : Option CalSet := if s.alive && s.may ses .installer then some s.cfg.cal else none

/-- R44: the encoder registers of the set. -/
def calEncReg (a : Nat) : Bool := decide (0x100100 ≤ a) && decide (a < 0x100500) && (a % 0x100 == 0x40 || a % 0x100 == 0x44)

/-- Key of a light-sensor gain: the address of `LMP_LS_GAIN[s][k]`. -/
def lsGainAddr (k j : Nat) : Nat := 0x190200 + k * 24 + j * 8

/-- R44, R45: the values in force, as the set that follows the durable one. -/
def State.calSnapshot (s : State) : CalSet :=
  { s.cfg.cal with
    seq := s.cfg.cal.seq + 1
    crcOk := true
    eq := s.lnk.eq
    corr := s.bars.map (fun x => x.inf)
    tone := s.bars.map (fun x => (upto 17).foldl (fun m i => rset m i (BitVec.ofNat 32 (twos 12 (vgetD x.oNow i 0)))) [])
    trim := s.chl.trim
    enc := rfilter calEncReg s.regs.rw
    white := s.vis.cam.map (fun x => x.white)
    ls := (upto 16).foldl (fun m k => (upto 3).foldl (fun m j =>
      rset m (lsGainAddr k j) (BitVec.ofNat 32 (vgetD (vgetD s.lmp.gain k (Vector.replicate 3 0)) j 0))) m) []
    tlast := s.chl.tlast }

/-- R45: a copy's CRC-32C holds. -/
def copyOk (x : Option CalSet) : Bool := match x with | some k => k.crcOk | none => false

/-- R45: the set of a commit is written into its copy: until it is whole, its CRC-32C fails. -/
def State.calWrite (s : State) (r : CalRun) (set : CalSet) : State :=
  s.onCfg fun c => { c with
    run := some { r with set := set, taken := true }
    copies := vset c.copies r.copy (some { set with crcOk := false }) }

/-- R45: the snapshot of a commit that waits for it is taken. -/
def State.calSnap (s : State) : State :=
  match s.cfg.run with
  | some r => if r.taken then s else s.calWrite r s.calSnapshot
  | none => s

/-- R45: the calibration copy that is erased.  One whose verify failed is written again without more ado (DESIGN CHOICE, log entry 58). -/
def Cfg.freeCopy (c : Cfg) : Fin 2 := if copyOk c.copies[(0 : Fin 2)] then 1 else 0

/-- R45: a commit starts, of a set given or of a snapshot. -/
def State.calBegin (s : State) (who : Nat) (set : Option CalSet) : State :=
  let r : CalRun := { who := who, copy := s.cfg.freeCopy }
  let s1 := (s.nvmOp 1 true).onCfg fun c => { c with run := some r, autoDue := false }
  match set with
  | some x => s1.calWrite r { x with seq := s.cfg.cal.seq + 1, crcOk := true }
  | none => if s.inMode .print then s1 else s1.calSnap

/-- R45: an automatic commit that is due starts at a job retire, or at once in `IDLE` or `HALT`. -/
def State.calAuto (s : State) (retire : Bool) : State :=
  if s.cfg.autoDue && (retire || s.inMode .idle || s.inMode .halt) && !s.nvmRuns then s.calBegin 4 none else s

/-- CAL_AUTO_COMMIT (R45, R47): skipped while a commit runs. -/
def State.calAutoDue (s : State) : State :=
  if decide (s.f F.CFG_NVM_CFG_CAL_AUTO_H = 0) || s.inMode .boot || s.inMode .frozen || s.cfg.run.isSome then s
  else (s.onCfg fun c => { c with autoDue := true }).calAuto false

def execCalAutoCommit (s : State) : Host.Outcome State Fault Refusal := .next (s.live State.calAutoDue)

/-- CAL_COPY_VERIFIED (R45, R51): the new set is durable.  A failed verify keeps the previous set; the copy that failed is not valid,
and free for the next commit (DESIGN CHOICE, log entry 58: the spec says only that the previous state is kept). -/
def State.calVerified (s : State) (ok : Bool) : State :=
  let s0 := s.calSnap
  match s0.cfg.run with
  | none => s0
  | some r =>
    if r.verified then s0
    else if ok then
      let s1 := s0.onCfg fun c => { c with
        copies := vset c.copies r.copy (some r.set)
        cal := r.set
        run := some { r with verified := true } }
      s1.audit 0x03 r.who 0 r.set.seq.toNat (Config.setCrc r.set).toNat
    else s0.onCfg fun c => { c with run := none, result := 1, busy := false }


/-- CAL_OLD_COPY_ERASED (R45). -/
def State.calErased (s : State) : State :=
  match s.cfg.run with
  | some r =>
    if r.verified then
      s.onCfg fun c => { c with copies := vset c.copies (if r.copy = 0 then 1 else 0) none, run := none, busy := false }
    else s
  | none => s

def execCalOldCopyErased (s : State) : Host.Outcome State Fault Refusal := .next (s.live State.calErased)

/-! ### Image transfer (R43, R47) -/

/-- R43: the inactive bank is erased and the image written into it. -/
def State.xferBegin (s : State) (i : Image) : State :=
  (s.nvmOp 2 true).onCfg fun c => { c with
    banks := vset c.banks c.inactive none, part := vset c.part c.inactive true, inactValid := false, xfer := some i, xferQ := none }

/-- IMAGE_TRANSFER (R43, R47): a maker's, in every mode but `FROZEN`; queued while a calibration commit runs.  An image beyond 24 MiB
(R41) is not taken (DESIGN CHOICE, log entry 58). -/
def State.imageIn (s : State) (ses : Fin 5) (i : Image) : State :=
  if !s.may ses .maker || s.inMode .frozen || decide (imageMax < i.bytes) then s
  else if s.cfg.run.isSome then s.onCfg fun c => { c with xferQ := some i }
  else s.xferBegin i

def execImageTransfer (ses : Fin 5) (img : Image) (s : State) : Host.Outcome State Fault Refusal := .next (s.live fun s => s.imageIn ses img)

/-- IMAGE_TRANSFER_DEQUEUE (R47). -/
def State.imageNext (s : State) : State :=
  match s.cfg.xferQ with
  | some i => if s.cfg.run.isSome || s.inMode .frozen then s else s.xferBegin i
  | none => s

def execImageTransferDequeue (s : State) : Host.Outcome State Fault Refusal := .next (s.live State.imageNext)

/-- IMAGE_BANK_VERIFY (R43). -/
def State.imageCheck (s : State) : State :=
  match s.cfg.xfer with
  | some i => (s.onCfg fun c => { c with
      banks := vset c.banks c.inactive (some i), part := vset c.part c.inactive false, inactValid := imageOk i, xfer := none, busy := false
      result := if imageOk i then 0 else 1 }).calAuto false
  | none => s

def execImageBankVerify (s : State) : Host.Outcome State Fault Refusal := .next (s.live State.imageCheck)

/-! ### The record pool (R46) -/

/-- Bytes of a record: 64 B for a bank selector, else a header, the counts and a CRC-32C. -/
def recLen (kind counts : Nat) : Nat := if kind = 1 then 64 else 64 + counts * 4 + 4

/-- Counts a record of each type holds: 42 groups of every configured head, or 32 lamps. -/
def State.recCounts (s : State) (kind : Nat) : Nat :=
  if kind = 2 then ((upto 8).map (fun b => (s.headsOf b).length)).foldl (· + ·) 0 * 42 else if kind = 3 then 32 else 0

/-- R40: blocks of the record pool of a flash of so many MiB: everything above 61 MiB. -/
def poolBlocks (mib : Nat) : Nat := (mib - 61) * 16

/-- The highest number in a list. -/
def maxOf (l : List Nat) : Nat := l.foldl max 0

/-- Index of the block records of a type are appended to: its newest with room. -/
def openBlock (pool : List PoolBlock) (kind len : Nat) : Option Nat :=
  let top := maxOf ((pool.filter (fun b => b.kind = kind)).map (·.seq))
  pool.findIdx? (fun b => decide (b.kind = kind ∧ b.seq = top) && decide (64 + (b.recs.length + 1) * len ≤ 65536))

/-- Index of the erased block with the lowest erase count. -/
def freshBlock (pool : List PoolBlock) : Option Nat :=
  let l := (pool.filter (fun b => b.kind = 0)).map (·.erases)
  match l with
  | [] => none
  | x :: t => pool.findIdx? (fun b => b.kind = 0 ∧ b.erases = t.foldl min x)

/-- The pool with a block that a new record may open: one never used has erase count 0. -/
def withBlank (mib : Nat) (pool : List PoolBlock) : List PoolBlock :=
  if decide (pool.length < poolBlocks mib) && !pool.any (fun b => decide (b.kind = 0) && decide (b.erases = 0)) then pool ++ [({} : PoolBlock)]
  else pool

/-- R46: a record appended; with no block left it is not written. -/
def poolPut (mib : Nat) (pool : List PoolBlock) (r : PoolRec) (len : Nat) : List PoolBlock :=
  match openBlock pool r.kind len with
  | some i => pool.modify i (fun b => { b with recs := b.recs ++ [r] })
  | none =>
    let p := withBlank mib pool
    match freshBlock p with
    | some i => p.modify i (fun b => { b with kind := r.kind, seq := maxOf (p.map (·.seq)) + 1, recs := [r] })
    | none => pool

/-- R46: the latest valid record of a type. -/
def Cfg.latest (c : Cfg) (kind : Nat) : Option PoolRec :=
  let l := (c.pool.flatMap (·.recs)).filter (fun r => decide (r.kind = kind) && r.crcOk)
  l.find? (fun r => r.seq = maxOf (l.map (·.seq)))

/-- R46: a record of a type, with the next sequence number. -/
def State.recWrite (s : State) (kind : Nat) (body : RegMap) : State :=
  let seq := match s.cfg.latest kind with | some r => r.seq + 1 | none => 1
  let s1 := if s.cfg.busy then s else s.nvmOp 4 false
  s1.onCfg fun c => { c with
    pool := poolPut c.nvmMiB c.pool { kind := kind, seq := seq, body := body } (recLen kind (s.recCounts kind))
    recOpen := c.recOpen ++ [(kind, seq)] }

/-- The record of a type and number fails its CRC-32C. -/
def spoilRec (k : Nat × Nat) (pool : List PoolBlock) : List PoolBlock :=
  pool.map (fun b => { b with recs := b.recs.map (fun r => if r.kind = k.1 ∧ r.seq = k.2 then { r with crcOk := false } else r) })

/-- R46: whether a record that was being written is cut short by a loss of power or a hard reset is a free choice. -/
def State.recCut (s : State) : State :=
  s.cfg.recOpen.foldl (fun s k => (s.when s.freeBit fun s => s.onCfg fun c => { c with pool := spoilRec k c.pool }).drawn) s

/-- NOZZLE_USE_RECORD (R46, R275): the nozzle-use and the lamp-use record. -/
def State.useRecords (s : State) : State :=
  if s.inMode .boot || s.inMode .frozen then s
  else
    let lamps := (upto 32).foldl (fun m i => rset m i (BitVec.ofNat 32 (vgetD s.lmp.lamp i {}).secs)) []
    (s.recWrite 2 s.flt.noz).recWrite 3 lamps

def execNozzleUseRecord (s : State) : Host.Outcome State Fault Refusal := .next (s.live State.useRecords)

/-- R46: every record of a block is superseded by two newer ones of its type. -/
def blockFree (pool : List PoolBlock) (b : PoolBlock) : Bool :=
  decide (b.kind ≠ 0) && b.recs.all (fun r =>
    decide (2 ≤ ((pool.flatMap (·.recs)).filter (fun x => x.crcOk && decide (x.kind = r.kind ∧ r.seq < x.seq))).length))

/-- FREE_BLOCK_ERASE (R46). -/
def State.blockErase (s : State) (i : Nat) : State :=
  match s.cfg.pool[i]? with
  | some b =>
    if blockFree s.cfg.pool b && !s.inMode .frozen then
      s.onCfg fun c => { c with pool := c.pool.modify i (fun b => ({ erases := b.erases + 1 } : PoolBlock)) }
    else s
  | none => s

def execFreeBlockErase (block : Nat) (s : State) : Host.Outcome State Fault Refusal := .next (s.live fun s => s.blockErase block)

/-! ### Commands (R43, R45, R47) -/

/-- R47: a command refused while an operation runs is counted. -/
def State.nvmRej (s : State) : State := s.bump F.CFG_NVM_STAT_REJ

/-- R43, R51: a bank-selector record names the inactive bank. -/
def State.activateBank (s : State) (who : Nat) : State :=
  let b := s.cfg.inactive
  let i := s.cfg.banks[b].getD {}
  let seq := i.seq
  let s1 := ((s.nvmOp 3 false).recWrite 1 [(0, BitVec.ofNat 32 b.val), (1, seq)]).onCfg fun c => { c with op := 3, selPend := true }
  s1.audit 0x04 who 0 seq.toNat (Config.imgCrc i).toNat

/-- The role a code of `CFG_NVM_CMD` needs. -/
def nvmRole (code : Nat) : Role := if code = 2 ∨ code = 3 then .maker else .installer

/-- R47: in `FROZEN` a command is refused and counted. -/
def State.nvmFrozen (s : State) (ses : Fin 5) (w : Word) : State :=
  let code := bits w.toNat 0 8
  let s1 := s.burstCut ses 0x10010
  s1.when (s1.may ses (nvmRole code) && decide (bits w.toNat 24 8 = 0xA5 ∧ 1 ≤ code ∧ code ≤ 3)) State.nvmRej

/-- A write of `CFG_NVM_CMD`. -/
def State.nvmCmd (s : State) (ses : Fin 5) (w : Word) : State :=
  let code := bits w.toNat 0 8
  if s.inMode .frozen then s.live fun s => s.nvmFrozen ses w
  else s.sesReach ses (nvmRole code) 0x10010 w fun s =>
    let who := whoOf ((s.roleOf ses).getD .installer) ses
    let ok := fun (t : State) => t.auditWrite ses 0x10010 0 w.toNat
    if bits w.toNat 24 8 ≠ 0xA5 ∨ code = 0 ∨ 3 < code then s
    else if s.nvmRuns then s.nvmRej
    else
      match code with
      | 1 => (ok s).calBegin who none
      | 2 => if s.cfg.inactValid then (ok s).activateBank who else s
      | _ => match s.cfg.staged with
        | some x => ((ok s).calBegin who (some x)).onCfg fun c => { c with staged := none }
        | none => s

/-- CAL_COMMIT (R45). -/
def execCalCommit (ses : Fin 5) (confirm : Byte) (s : State) : Host.Outcome State Fault Refusal :=
  .next (s.nvmCmd ses (confirmWord confirm 1))

/-- ACTIVATE_IMAGE_BANK (R43). -/
def execActivateImageBank (ses : Fin 5) (confirm : Byte) (s : State) : Host.Outcome State Fault Refusal :=
  .next (s.nvmCmd ses (confirmWord confirm 2))

/-- R44: a set within 6 MiB; a longer one is not taken into staging (DESIGN CHOICE, log entry 58). -/
def setFits (x : Option CalSet) : Bool := match x with | some c => decide (c.bytes ≤ calMax) | none => false

/-- COMMIT_STAGED_CAL_SET (R45): `staged` is the set a maker has transferred into staging since the last such command. -/
def State.calStaged (s : State) (ses : Fin 5) (confirm : Byte) (staged : Option CalSet) : State :=
  let s1 := s.live fun s => if s.may ses .maker && setFits staged then s.onCfg fun c => { c with staged := staged } else s
  s1.nvmCmd ses (confirmWord confirm 3)

def execCommitStagedCalSet (ses : Fin 5) (confirm : Byte) (staged : Option CalSet) (s : State) : Host.Outcome State Fault Refusal :=
  .next (s.calStaged ses confirm staged)

/-! ### Sessions (R48) -/

/-- R48: the salt and hash of a role's key in the image. -/
def imageKey (i : Image) : Role → Option (BitVec 128 × BitVec 256)
  | .operator => i.keyOp | .installer => i.keyIn | .maker => i.keyMk

/-- R48: the key matches the role's hash. -/
def State.keyOk (s : State) (r : Role) (key : List Byte) : Bool :=
  match imageKey s.cfg.image r with
  | some (salt, hash) => Config.keyHash salt key == hash
  | none => false

/-- A session changed by `f`. -/
def State.onSes (s : State) (ses : Fin 5) (f : Session → Session) : State := s.onCfg fun c => { c with sess := vmod c.sess ses f }

/-- R48, R354: a session takes a role, or loses its own; what it has latched is gone. -/
def State.setRole (s : State) (ses : Fin 5) (r : Option Role) : State :=
  s.onSes ses fun x => { x with role := r, latch := [], latched := [] }

/-- LOGIN (R48). -/
def State.login (s : State) (ses : Fin 5) (r : Role) (key : List Byte) : State :=
  if s.cfg.sess[ses].locked then s
  else if s.keyOk r key then s.setRole ses (some r)
  else s.onSes ses fun x => { x with locked := true }

def execLogin (ses : Fin 5) (role : Role) (key : List Byte) (s : State) : Host.Outcome State Fault Refusal :=
  .next (s.live fun s => s.login ses role key)

/-- LOGIN_LOCKOUT_EXPIRY (R48). -/
def execLoginLockoutExpiry (ses : Fin 5) (s : State) : Host.Outcome State Fault Refusal :=
  .next (s.live fun s => s.onSes ses fun x => { x with locked := false })

/-- LOGOUT (R48, R50). -/
def execLogout (ses : Fin 5) (s : State) : Host.Outcome State Fault Refusal :=
  .next (s.live fun s => (s.endBurst ses).setRole ses none)

/-- SESSION_TIMEOUT (R48). -/
def execSessionTimeout (ses : Fin 5) (s : State) : Host.Outcome State Fault Refusal :=
  .next (s.live fun s => (s.endBurst ses).setRole ses none)

/-! ### The audit ring (R50, R52) -/

/-- R50: the burst of forwarded window writes ended. -/
def State.endFwdBurst (s : State) : State :=
  match s.cfg.fwdBurst with
  | none => s
  | some (ses, b) =>
    (s.onCfg fun c => { c with fwdBurst := none }).audit 0x82 (whoOf b.role ses) b.first b.count (b.crc ^^^ 0xFFFFFFFF)

/-- AUDIT_BURST_END (R50). -/
def State.burstOver (s : State) (ses : Fin 5) : State :=
  let s1 := s.endBurst ses
  match s1.cfg.fwdBurst with
  | some (n, _) => if n = ses.val then s1.endFwdBurst else s1
  | none => s1

def execAuditBurstEnd (ses : Fin 5) (s : State) : Host.Outcome State Fault Refusal := .next (s.live fun s => s.burstOver ses)

/-- R52: a page of eight records is programmed, not in `FROZEN` (R47); a full ring loses its oldest block of 2,048 records. -/
def State.auditPage (s : State) : State :=
  if s.inMode .frozen then s
  else match s.cfg.staging with
  | [] => s
  | r :: _ =>
    let n := 8 - r.seq % 8
    let rest := s.cfg.staging.drop n
    let room := stagingCap - rest.length
    let l := s.cfg.staging.take n
    let ring := if 30720 < s.cfg.ring.length + l.length then s.cfg.ring.drop 2048 else s.cfg.ring
    let s1 := if s.cfg.busy then s else s.nvmOp 5 false
    s1.onCfg fun c => { c with
      staging := rest ++ c.auditWait.take room
      auditWait := c.auditWait.drop room
      ring := ring ++ l
      auditHead := match l.getLast? with | some x => x.seq | none => c.auditHead }

end Sys2Proof.Machine
end

