-- ==== Sys2Proof/Machine/Seat.lean ====
section
/-! DEFINITION. Modes, stops and the sequences that run with them (R18, R24–R28, R259–R262), and what a stop or an unbind
does to bound jobs (R76, R84). -/
namespace Sys2Proof.Machine

/-! ### The mode (R25, R26) -/

/-- A standby computes unseen what the holder's mode makes a seat compute (R19, R290). -/
def State.asShadow (s : State) (f : State → State) : State :=
  if s.inMode .standby then
    (f (s.onSys fun y => { y with mode := y.shadow, cold := y.shadowCold, unseen := true })).onSys fun y => { y with
      shadow := y.mode, shadowCold := y.cold, mode := .standby, cold := false, unseen := false }
  else f s

/-! ### Bound jobs (R76, R84) -/

/-- R84: the status a job line of a bar has in the trailer: 3 not printed, else as recorded, 0 printed and archived. -/
def Job.lineStatus (j : Job) (first bar l : Nat) : Nat :=
  if j.printed ≤ l then 3
  else match j.runs.find? (fun r => r.bar = bar ∧ lineDist r.first (first + l) < r.count ∧ r.status ≠ 0) with
    | some r => r.status
    | none => 0

/-- R84: the run records of a job, for the bars that print it; their first lines are print line indexes (DESIGN CHOICE, log entry 58: R84
says only "first line"). -/
def Job.trailerRuns (j : Job) (bars : BitVec 8) (first : Nat) : List Run :=
  ((upto 8).filter (fun b => bars.getLsbD b)).flatMap (fun b =>
    ((upto (j.lines.getD j.printed)).foldl (fun acc l => addRun acc b (pl (first + l)) (j.lineStatus first b l)) []).reverse)

/-- R84: the trailer of a bound job's archive is written. -/
def State.writeTrailer (s : State) (bj : BJob) : State :=
  match s.job? bj.handle with
  | none => s
  | some j => s.onIng fun g => { g with trailer := some (bj.handle, j.trailerRuns bj.bars (bj.start.getD 0)) }

/-- R85, step 2: one void run per bar covers every line printed. -/
def voidTrailer (j : Job) (bj : BJob) : List Run :=
  ((upto 8).filter (fun b => bj.bars.getLsbD b)).map (fun b => { bar := b, first := bj.start.getD 0, count := j.printed, status := 1 })

/-- R85: the trailer of a job whose archive region ran out. -/
def State.writeVoid (s : State) (bj : BJob) : State :=
  match s.job? bj.handle with
  | none => s
  | some j => s.onIng fun g => { g with trailer := some (bj.handle, voidTrailer j bj) }

/-- What R96 has freed of a staged job's objects is there again for its next print (R76): its reservation has taken nothing else. -/
def Job.unfree (j : Job) : Job := { j with objs := j.objs.map (fun o => { o with freed := false }) }

/-- R76: firing of the PRINTING jobs ends with a stop: a staged job stays bound and its streams end, a streaming job fails with
STOPPED, and an aborted one keeps the lines printed, all with a trailer; one that failed for its archive is void as a whole. -/
def State.cutJob (s : State) (bj : BJob) : State :=
  match s.job? bj.handle with
  | none => s
  | some j =>
    if j.st = .aborted then s.writeTrailer bj
    else if j.st = .failed ∧ j.status = 6 then s.writeVoid bj
    else if j.st ≠ .printing then s
    else
      let s1 := s.writeTrailer bj
      if j.streaming then (s1.ctxDrop j.tag).failJob j.tag 0xB 0
      else (((s1.archRest j.tag (bj.start.getD 0 + j.printed)).endBlocks j.tag).dropArch j.tag).modJob j.tag fun j => { j.unfree with st := .bound }

/-- What bar b holds of a job that is unbound: its lane queues, the line it works on, its archive pieces. -/
def State.flushBar (s : State) (b : Fin 8) : State :=
  let s1 := (List.finRange 64).foldl (fun s q => if q.val < 40 ∧ q.val / 5 = b.val then s.qFlush q else s) s
  s1.onBar b fun x => { x with mid := none, outQ := [], job := 0, line := 0, waitLine := none, waitObj := none, slewWait := none,
                               side := [], bad := Vector.replicate 13 none }

/-- R116, R121: with no job left on a bar its knots in force equal the committed ones. -/
def State.freeBar (s : State) (b : Fin 8) : State :=
  if s.boundOn b.val then s
  else (((s.flushBar b).knotsFree b).setF (F.LYR_JOB_HANDLE b.val) 0)

/-- Bound jobs that no longer are, by handle, leave the list; bars left without a job are freed. -/
def State.dropJobs (s : State) (keep : BJob → Bool) : State :=
  let gone := s.sys.jobs.filter (fun j => !keep j)
  let s0 := s.onJobs fun l => l.filter keep
  let s1 := if s0.anyBound then s0 else s0.onLnk fun l => { l with lanes := l.lanes.map (fun x => { x with sent := false }) }
  (List.finRange 8).foldl (fun s b => if gone.any (fun j => j.bars.getLsbD b.val) then s.freeBar b else s) s1

/-- R76: every PRINTING job is cut off. -/
def State.cutOff (s : State) : State :=
  let s1 := s.sys.jobs.foldl State.cutJob s
  s1.dropJobs (fun j => s1.jobSt j.handle != .failed && s1.jobSt j.handle != .aborted)

/-- R76: a BOUND job is unbound: STAGED, or OPEN streaming. -/
def State.unbindJob (s : State) (bj : BJob) : State :=
  match s.job? bj.handle with
  | none => s
  | some j =>
    if j.st = .bound ∨ j.st = .printing then
      (s.ctxDrop j.tag).modJob j.tag fun j => { (if j.streaming then j else j.unfree) with
        st := if j.streaming then .opened else .staged, printed := 0, runs := [], archBytes := 0 }
    else s

/-- R26: every bound job is unbound. -/
def State.unbindAll (s : State) : State :=
  let s1 := s.sys.jobs.foldl State.unbindJob s
  s1.dropJobs (fun j => match s1.jobSt j.handle with | .ending => true | .failed => true | .aborted => true | _ => false)

/-- R357: jobs that have retired, or returned to STAGED or OPEN, are no longer bound. -/
def State.pruneJobs (s : State) : State :=
  s.dropJobs (fun j => match s.jobSt j.handle with | .bound => true | .printing => true | .ending => true | _ => false)

/-! ### A G5-DDR channel leaves (R209, R210) -/

/-- R84: the trailer of a job that ends: its runs on the bars it is bound on; a job that is not bound has printed no line on any bar,
and its trailer holds no run (DESIGN CHOICE, log entry 58). -/
def State.trailerOf (s : State) (j : Job) : State :=
  match s.sys.jobs.find? (fun b => tagOf b.handle = j.tag) with
  | some bj => s.writeTrailer bj
  | none => s.onIng fun g => { g with trailer := some (j.handle, []) }

/-- R210, step 3: every job outside FREE is aborted; its final completion carries NOSPACE. -/
def State.abortAll (s : State) : State :=
  let s1 := s.ing.jobs.foldl (fun s j =>
    ((s.trailerOf j).ctxDrop j.tag).modJob j.tag fun j => { j with st := .aborted, status := 2, objs := [] }) s
  s1.dropJobs (fun _ => false)

/-- R45, R211: a calibration snapshot is staged and not yet read into its copy. -/
def State.snapStaged (s : State) : Bool := match s.cfg.run with | some r => r.taken && !r.verified | none => false

/-- R209, R210, R211: the channels classed permanent are retired, unless a rebuild runs, none would be left, or a calibration snapshot is
staged.  A channel classed in the cycle in which a rebuild was asked for joins it. -/
def State.memRetire (s : State) : State :=
  let l := s.chRetiring
  if l.isEmpty || s.snapStaged then s
  else if s.mem.fill.isEmpty then (s.leaveList l).abortAll
  else if s.mem.fillAt = s.nowNs then s.leaveList l
  else s

/-- RETIREMENT_FILL_DONE (R210, R211): a channel classed meanwhile is retired in a second rebuild. -/
def execRetirementFillDone (s : State) : Host.Outcome State Fault Refusal :=
  .next (s.live fun s => s.when (!s.mem.fill.isEmpty) fun s =>
    s.fillDone.when (s.idleWarm || s.inMode .halt) State.memRetire)

/-! ### The mode changes (R26) -/

/-- R42, R304: the events that wait until `IDLE` is reached. -/
def State.idleEvents (s : State) : State :=
  let s1 := if s.cfg.fbPend then (s.onCfg fun c => { c with fbPend := false }).event 0x013 s.cfg.bank.val else s
  if s.thm.ofsPend then (s1.onThm fun t => { t with ofsPend := false }).event 0x0E5 (twos 16 s.thm.ofsDiff) else s1

/-- R26, R45, R46: the mode changes, with EVT_MODE; HALT_CAUSE is cleared on leaving `HALT`, the governor limit and the overspeed clamp
on leaving `PRINT` (R159, R160), and a standby is told (R290). -/
def State.setMode (s : State) (m : Mode) (cold : Bool) : State :=
  if s.sys.mode = m ∧ s.sys.cold = cold then s
  else
    let s1 := s.onSys fun y => { y with
      mode := m
      cold := cold
      coldPend := false
      haltCause := if m = .halt then y.haltCause else 0 }
    let s2 := s1.onLtm fun l => { l with
      gov := if m = .print ∨ m = .standby then l.gov else none
      clamp := l.clamp && (m == .print || m == .service || m == .standby)
      armed := l.armed && (m == .print || m == .service || m == .standby) }
    let s3 := (s2.when (!s.sys.unseen) fun s => s.event 0x011 (m.code + if cold then 16 else 0)).forward (.mode m.code cold)
    let s4 := if m = .idle ∧ !s.sys.unseen then s3.idleEvents else s3
    let s5 := if s.sys.unseen || m == .print then s4
      else (s4.when (s.sys.mode != m && (m == .idle || m == .halt)) State.useRecords).calSnap.calAuto false
    if !s.sys.unseen && (s5.idleWarm || s5.inMode .halt) then s5.memRetire else s5

/-! ### Sequences started by the modes (R259–R261) -/

/-- What the sequences are run for, and how far they are. -/
def State.setFlow (s : State) (f : Flow) (q : SeqStep) : State := s.onSys fun y => { y with flow := f, seqStep := q }

/-- R259: a mode change starts sequence i, or its interlock refuses it. -/
def State.seqTry (s : State) (i : Fin 5) : State × Bool :=
  if s.seqInterlock i then (s.seqBegin i, true) else ((s.seqRefuse i).event 0x0B1 i.val, false)

/-- A run of LIFT and CAP has ended, done or failed. -/
def State.flowOver (s : State) : State :=
  match s.sys.flow with
  | .stop => s.setFlow .stop .over
  | .leave => ((s.setFlow .none .none).onSys fun y => { y with svc := none }).setMode .idle false
  | _ => s.setFlow .none .none

/-- R261: the conditions under which a sequence starts in `HALT`. -/
def State.haltMay (s : State) (i : Fin 5) : Bool :=
  s.mot.rest && (!s.fb (F.MOT_SEQ_CFG_ESTOP_WAIT i.val) || s.pad.estop) &&
    (decide (s.sys.haltCause ≠ 5) || decide (s.thm.temp < 2400))

/-- CAP starts once the web is at rest, and in `HALT` once R261 allows it. -/
def State.capStep (s : State) : State :=
  if s.mot.rest && (s.sys.flow != .halt || s.haltMay seqCap) then
    let r := s.seqTry seqCap
    if r.2 then r.1.onSys fun y => { y with seqStep := .cap } else r.1.flowOver
  else s.onSys fun y => { y with seqStep := .waitCap }

/-- LIFT starts. -/
def State.liftStep (s : State) : State := (s.seqTry seqLift).1.onSys fun y => { y with seqStep := .lift }

/-- R261: what waits for the web to come to rest, for `ESTOP_N` or for the temperature starts when it may. -/
def State.flowResume (s : State) : State :=
  match s.sys.seqStep with
  | .waitCap => if s.sys.flow = .halt ∧ !s.inMode .halt then s else s.capStep
  | .waitLift => if s.inMode .halt && s.haltMay seqLift then s.liftStep else s
  | _ => s

/-- R26, R259: the bars are raised and the heads capped on the way to `IDLE/WARM`; from `SERVICE` only as far as needed. -/
def State.leaveFlow (s : State) (always : Bool) : State :=
  let s1 := s.setFlow .leave .none
  if always || !s.mot.liftDone then s1.liftStep
  else if s.mot.uncapDone then s1.capStep
  else s1.flowOver

/-- R26: `READY` is left for `IDLE/WARM`. -/
def State.toIdle (s : State) : State :=
  ((s.unbindAll).onSys fun y => { y with req := none }).leaveFlow true

/-- R261: entry to `READY` runs UNCAP, then LOWER; a refused UNCAP counts as its failure (R259). -/
def State.enterFlow (s : State) : State :=
  let r := s.seqTry seqUncap
  if r.2 then r.1.setFlow .enter .uncap else r.1.toIdle

/-- A sequence that the modes run ends. -/
def State.seqEnded (s : State) (i : Fin 5) (ok : Bool) : State :=
  match s.sys.seqStep, i.val with
  | .uncap, 3 =>
    if ok then
      let r := s.seqTry seqLower
      if r.2 then r.1.setFlow .enter .lower else r.1.toIdle
    else s.toIdle
  | .lower, 1 => if ok then s.setFlow .none .none else s.toIdle
  | .lift, 0 => if ok then s.capStep else s.flowOver
  | .cap, 2 => s.flowOver
  | _, _ => s

/-- SEQUENCE_DONE (R259): every axis of the sequence has completed its END segment. -/
def State.sequenceDone (s : State) (i : Fin 5) : State :=
  let q := s.mot.seqs[i]
  if q.running && q.axes.isEmpty && q.starts.isEmpty then
    let s1 := (s.onSeq i fun q => { q with running := false, done := true }).onMot fun m => { m with
      liftDone := m.liftDone || i == seqLift
      uncapDone := m.uncapDone || i == seqUncap
      ax := m.ax.map (fun x => if x.seq = some i then { x with seq := none } else x) }
    s1.seqEnded i true
  else s

def execSequenceDone (i : Fin 5) (s : State) : Host.Outcome State Fault Refusal :=
  .next (s.live fun s => s.asShadow fun s => s.sequenceDone i)

/-- R260: the failures a tick or a retirement left are taken up by the modes: a sequence the modes wait for no longer runs. -/
def State.seqSettle (s : State) : State :=
  let gone := fun (i : Fin 5) => !s.mot.seqs[i].running && s.mot.seqs[i].fail
  match s.sys.seqStep with
  | .uncap => if gone seqUncap then s.seqEnded seqUncap false else s
  | .lower => if gone seqLower then s.seqEnded seqLower false else s
  | .lift => if gone seqLift then s.seqEnded seqLift false else s
  | .cap => if gone seqCap then s.seqEnded seqCap false else s
  | _ => s

/-- R147, R159: a calibration print or lane test has ended: no further line is due, and the overspeed clamp ends. -/
def State.firingOver (s : State) : State := s.onLtm fun l => { l with armed := false, commit := none, clamp := false }

/-- R260, R26: a sequence that fails in `SERVICE` ends the service function. -/
def State.svcEnds (s : State) : State :=
  if s.inMode .service && s.sys.flow == .none && !s.sys.stopping then s.firingOver.leaveFlow false else s

/-- R260: what the failures since state `s0` mean to the modes. -/
def State.seqsSince (s : State) (s0 : State) : State :=
  if (List.finRange 5).any (fun i => s0.mot.seqs[i].running && !s.mot.seqs[i].running && s.mot.seqs[i].fail) then
    s.seqSettle.svcEnds
  else s

/-- GENERATOR_TICK (R246): the generator runs while MOT is clocked and outside `BOOT`. -/
def execGeneratorTick (s : State) : Host.Outcome State Fault Refusal :=
  .next (s.live fun s => s.when (!s.inMode .boot && !s.sys.cold) fun s => s.genTick.asShadow fun t => t.seqsSince s)

/-- SEQUENCE_TIMEOUT (R260). -/
def execSequenceTimeout (i : Fin 5) (s : State) : Host.Outcome State Fault Refusal :=
  .next (s.live fun s => s.when (s.mot.seqs[i].running && decide (s.f (F.MOT_SEQ_CFG_TMO i.val) ≠ 0)) fun s =>
    (s.seqFail i).asShadow fun t => t.seqsSince s)

/-- WEB_AT_REST (R254): w has been 0 for 10 ms. -/
def execWebAtRest (s : State) : Host.Outcome State Fault Refusal :=
  .next (s.live fun s => s.when (decide (s.mot.w = 0)) fun s =>
    (s.onMot fun m => { m with rest := true, zeroUs := 10000 }).asShadow State.flowResume)

/-- R259: `MOT_SEQ_CMD` starts a sequence in `SERVICE`, subject to its interlock. -/
def State.seqFx (s : State) (n : Nat) : Option State :=
  if h : n < 5 then
    let i : Fin 5 := ⟨n, h⟩
    if !s.inMode .service || s.mot.seqs[i].running then none
    else if s.seqInterlock i then
      let s1 := s.seqBegin i
      some (if s1.mot.seqs[i].fail && !s1.mot.seqs[i].running then s1.svcEnds else s1)
    else some (s.seqRefuse i)
  else none

/-- SEQ_COMMAND (R259). -/
def State.seqCommand (s : State) (ses : Fin 5) (n : Nat) : State :=
  s.sesCmd ses .installer 0x182060 (BitVec.ofNat 32 n) fun s =>
    if (s.seqFx n).isSome then (s.fwdWrite ses 0x182060 (BitVec.ofNat 32 n)).seqFx n else none

def execSeqCommand (ses : Fin 5) (n : Nat) (s : State) : Host.Outcome State Fault Refusal := .next (s.seqCommand ses n)

/-! ### Stops (R18, R26, R310, R311) -/

/-- The most severe stop in force. -/
def State.stopRank (s : State) : Nat := (s.sys.stops.map (fun x => x.kind.rank)).foldl max 0

/-- R25: the cause `HALT` names: the most severe stop, 0x5 and 0x6 above 0x4 above the rest, the first among equals. -/
def causeOf (l : List Stop) : Nat :=
  match l.find? (fun x => x.kind = .emergency) with
  | some x => x.cause
  | none => match l.find? (fun x => x.cause = 4) with
    | some x => x.cause
    | none => match l with | x :: _ => x.cause | [] => 0

/-- The kind of the most severe stop in force. -/
def State.stopKind (s : State) : StopKind :=
  if s.stopRank = 3 then .emergency else if s.stopRank = 2 then .orderly else .haltRamp

/-- R26, R261: the ramp of an orderly stop starts, with LIFT; LOWER or UNCAP under way fails (R262). -/
def State.startRamp (s : State) : State :=
  let s1 := s.webStop s.stopKind
  match s.sys.flow with
  | .leave => s1.onSys fun y => { y with flow := .stop }
  | .stop => s1
  | .halt => s1
  | .enter =>
    let i := if s.sys.seqStep = .lower then seqLower else seqUncap
    (((s1.seqFail i).onSys fun y => { y with req := none }).setFlow .stop .none).liftStep
  | .none => (s1.setFlow .stop .none).liftStep

/-- R27, R163: firing ends at a boundary: the jobs are cut off and the ramp starts. -/
def State.firingEnds (s : State) : State :=
  (((s.onSys fun y => { y with endFiring := false }).onLtm fun l => { l with armed := false, commit := none }).cutOff).startRamp

/-- R18, R26: a stop of R26 other than the emergency ramp comes into force; a stop that is not more severe than one in force
is ignored. -/
def State.orderlyStop (s : State) (k : StopKind) (cause : Nat) : State :=
  if !(s.inMode .print || s.inMode .ready || s.inMode .service) || decide (k.rank ≤ s.stopRank) then s
  else
    let s1 := s.onSys fun y => { y with stops := y.stops ++ [{ kind := k, cause := cause }], stopping := true }
    if s1.ltm.armed then s1.onSys fun y => { y with endFiring := true } else s1.startRamp

/-- A request ignored under R26 to R28 is counted. -/
def State.reqRejected (s : State) : State := s.bump F.SYS_REQ_REJ_COUNT

/-- R26, R262: `READY` is left; UNCAP or LOWER under way fails. -/
def State.readyLeaves (s : State) : State :=
  if s.sys.flow = .leave then s
  else
    let i := if s.sys.seqStep = .lower then seqLower else seqUncap
    (if s.sys.flow = .enter ∧ s.mot.seqs[i].running then s.seqFail i else s).toIdle

/-- R26: what stop request 0x6 does; `held`: it waited from `PRINT`. -/
def State.stopDo (s : State) (held : Bool) : State := if s.inMode .ready && !held then s.readyLeaves else s.orderlyStop .haltRamp 1

/-- R26–R28: stop request 0x6 arrives, of a session, a pin or the Ace layer's policy (R109); second: it is accepted. -/
def State.stopReq (s : State) (r : ModeReq) : State × Bool :=
  if s.sys.req.isSome then (s.reqRejected, false)
  else if s.sys.stopping then (s.forward (.request r s.ltm.g.toNat), true)
  else match s.sys.mode with
    | .print => (s.onSys fun y => { y with req := some r }, true)
    | .ready => ((s.forward (.request r s.ltm.g.toNat)).stopDo false, true)
    | .service => ((s.forward (.request r s.ltm.g.toNat)).stopDo false, true)
    | _ => (s.reqRejected, false)

/-- R262: a sequence interrupted by an emergency ramp is neither done nor failed; LIFT or CAP runs again in `HALT`. -/
def State.interruptSeqs (s : State) : State :=
  (List.finRange 5).foldl (fun s i => if s.mot.seqs[i].running then s.seqDrop i else s) s

/-- R266, R311, R348: every lamp chain goes dark until `HALT` is cleared, and the chopper gates go off. -/
def State.padsSafe (s : State) : State :=
  (s.onLmp fun l => { l with stopped := true, chain := l.chain.map (fun c => { c with dark := true }) }).onMot fun m => { m with
    ax := m.ax.map (fun x => { x with pa := x.pa.rest, pb := x.pb.rest }) }

/-- R26, R163, R262: the emergency ramp: firing stops at once, sequences are interrupted, chopper axes stop at DEC, and LIFT
and CAP follow in `HALT`. -/
def State.emergency (s : State) (cause : Nat) : State :=
  let step := if s.sys.seqStep = .cap ∨ (s.sys.seqStep = .waitCap) then SeqStep.waitCap else SeqStep.waitLift
  let s1 := ((s.when (decide (cause = 5 ∨ cause = 6)) State.padsSafe).interruptSeqs).onMot fun m => { m with
    ax := Vector.ofFn (fun (a : Fin 16) => if a.val < 12 then m.ax[a].brake else m.ax[a]) }
  if s.inMode .halt then
    if s.sys.flow = .halt then s1.setFlow .halt step else s1
  else if s.inMode .print || s.inMode .ready || s.inMode .service || s.inMode .idle then
    let s2 := (s1.onSys fun y => { y with
      stops := y.stops ++ [{ kind := .emergency, cause := cause }]
      stopping := true
      endFiring := false
      req := none }).onLtm fun l => { l with armed := false, commit := none }
    ((s2.cutOff).webStop .emergency).setFlow .halt step |>.wake
  else s1

/-- STOP_COMPLETE (R26): the web is at rest, and an orderly stop's sequences are over: the seat enters `HALT`. -/
def State.stopComplete (s : State) : State :=
  let em := decide (s.stopRank = 3)
  if s.sys.stopping && s.mot.rest && !s.sys.cold && !s.sys.endFiring
      && (em || (s.sys.flow == .stop && s.sys.seqStep == .over)) then
    let c := causeOf s.sys.stops
    let s1 := ((s.onSys fun y => { y with
        haltCause := c, stops := [], stopping := false, svc := none, req := none,
        flow := if em then .halt else .none, seqStep := if em then y.seqStep else .none }).onMot fun m => { m with
        stop := none }).onThm fun t => { t with stop := if t.stop = 1 then 0 else t.stop }
    (s1.setMode .halt false).flowResume
  else s

def execStopComplete (s : State) : Host.Outcome State Fault Refusal := .next (s.live fun s => s.asShadow State.stopComplete)

/-- R26: `HALT` is cleared: jobs still bound are unbound. -/
def State.clearHalt (s : State) : State :=
  let s1 := (((s.interruptSeqs).unbindAll).setFlow .none .none).onThm fun t => { t with stop := 0, gated := false }
  ((s1.onLmp fun l => { l with stopped := false }).onSys fun y => { y with req := none }).setMode .idle false

end Sys2Proof.Machine
end

