-- ==== Sys2Proof/Machine/Lines.lean ====
section
/-! DEFINITION. Line timing (R146–R163): the grid, the prediction of the next fire point, fine delays, pulse widths, fire rate,
void lines, the governor, and the progress of bound jobs. -/
namespace Sys2Proof.Machine

/-! ### Settings -/

/-- R146: NUM and DEN of the line pitch; a DEN of 0 is used as 1. -/
def State.pitchNum (s : State) : Nat := s.f F.LTM_PITCH_NUM
def State.pitchDen (s : State) : Nat := max 1 (s.f F.LTM_PITCH_DEN_DEN)

/-- The pitch is below 64 steps (`LTM_STAT`.GEOM_BAD). -/
def State.pitchBad (s : State) : Bool := decide (s.pitchNum < 64 * s.pitchDen)

/-- PRE in ns, 200 ns to 10 µs. -/
def State.preNs (s : State) : Rat := (clampN 80 4000 (s.f F.LTM_PRE_PRE) : Nat) * (5 / 2)

/-- R158: T_min in ns, 1 ÷ F_max rounded up to a whole picosecond. -/
def State.tminNs (s : State) : Rat := (cdiv 1000000000000 s.fMax : Nat) / 1000

/-- BAR_DLY and HEAD_DLY in whole lines (R149, R151). -/
def State.barDly (s : State) (b : Nat) : Nat := s.f (F.LTM_BAR_DLY_LINES b)
def State.headDly (s : State) (b h : Nat) : Nat := s.f (F.LTM_HEAD_DLY_LINES (headIdx b h))

/-- R5, R151: the print line a head fires at grid line g. -/
def State.headLine (s : State) (g b h : Nat) : Nat := lineDist (s.barDly b + s.headDly b h) g

/-- R151: a module's depth is too small for a head of bar b. -/
def State.depthBadOn (s : State) (b : Nat) : Bool :=
  (s.headsOf b).any (fun h =>
    let n := b * 5 + h.h / 8
    decide ((vgetD s.lnk.lanes n {}).version ≠ 0) &&
      decide (s.f (F.LNK_MOD_INFO_DEPTH n) < s.headDly b h.h + (s.htype h.type).rmax + 2))

/-! ### Pulse widths (R156, R157) -/

/-- R156: the width of a base width at T and V, and whether it was clamped. -/
def widthOf (d : HType) (base : Nat) (t : Int) (v : Nat) : Nat × Bool :=
  let fT : Int := 2 ^ 20 + tdivI (d.kt * (t - d.tref)) 16
  let fV : Int := 2 ^ 20 + tdivI (d.kv * ((d.vref : Int) - v)) 1000
  if fT ≤ 0 ∨ fV ≤ 0 then (d.wmin, true)
  else
    let w := (base * fT.toNat * fV.toNat + 2 ^ 39) / 2 ^ 40
    if w < d.wmin then (d.wmin, true) else if d.wmax < w then (d.wmax, true) else (w, false)

/-- R156: T and V a head's widths use. -/
def LHead.tvOr (x : LHead) (d : HType) : Int × Nat := x.tv.getD (d.tref, d.vref)

/-- R157: HOLD and OFF; an OFF below HOLD is used as HOLD, 0 is never. -/
def State.staleHold (s : State) : Nat := s.f F.LTM_STALE_HOLD
def State.staleOff (s : State) : Option Nat :=
  let o := s.f F.LTM_STALE_OFF
  if o = 0 then none else some (max o s.staleHold)

/-- R157: one more line since head i's last status block. -/
def State.lineSince (s : State) (i : Nat) : State :=
  let n := (s.lhead i).since + 1
  (s.when (decide (s.staleHold < n)) fun s => s.bump F.LTM_STALE_CNT_COUNT).onLHead i fun x => { x with since := n }

/-- R156, R157: one head at a commit: its widths, and the lines since its last status block. -/
def State.commitHead (s : State) (b : Fin 8) (h : Head) : State :=
  let i := headIdx b.val h.h
  let d := s.htype h.type
  let tv := (s.lhead i).tvOr d
  let w := fun l => widthOf d (s.baseWidth h.type s.thm.band l) tv.1 tv.2
  let s1 := s.onLHead i fun x => { x with w := #v[(w 1).1, (w 2).1, (w 3).1] }
  (s1.bumpBy F.LTM_PW_CLAMP_CNT_COUNT (([1, 2, 3].filter (fun l => (w l).2)).length)).lineSince i

/-- R157: the head is beyond OFF lines without status. -/
def State.headOff (s : State) (i : Nat) : Bool :=
  match s.staleOff with | some o => decide (o < (s.lhead i).since) | none => false

/-! ### Timing sets (R152, R155, R173, R174) -/

/-- R173: the width blocks of lane n for grid line g. -/
def State.widthSet (s : State) (n g : Nat) : List Block :=
  let b := n / 5
  let one := fun (h : Head) =>
    let w := (s.lhead (headIdx b h.h)).w
    (s.headLine g b h.h % 65536, w[0], w[1], w[2])
  let hs := s.laneHeads n
  (upto (cdiv hs.length 4)).map (fun m => widthBlock m (((hs.drop (4 * m)).take 4).map one) (g % 256))

/-- R150, R157: a head fires at grid line g: its print line belongs to a job, and it is not stopped. -/
def State.headFires (s : State) (g b h : Nat) : Bool :=
  (s.jobOfLine b (s.headLine g b h)).isSome && !s.headOff (headIdx b h)

/-- R155: the fire delay of a head in 2.5 ns, rounded to nearest, from the timing block's end at `te`. -/
def fireDelay (f tline te : Rat) (e : Nat) : Nat := ((f + e * tline / 64 - te) * (2 / 5) + 1 / 2).floor.toNat % 2 ^ 24

/-- R13: the instant at which what LTM sends at `t` reaches LNK. -/
def atLnk (t : Rat) : Rat := t + 384 / 10

/-- R155, R173: the fire block of lane n, which ends one block time after the lane's next block boundary. -/
def State.fireSet (s : State) (n : Fin 40) (g : Nat) (c : Commit) : Block :=
  let b := n.val / 5
  let bt := s.blockNs (barLane n)
  let te := s.lnk.lanes[barLane n].nextAt bt (atLnk c.trig) + bt
  let hs := s.laneHeads n.val
  let on := hs.filter (fun h => s.headFires g b h.h)
  let delay := hs.map (fun h => if s.headFires g b h.h then
    fireDelay c.f c.tline te (s.eNow (⟨b, by omega⟩ : Fin 8) h.h) else 0)
  fireBlock delay ((on.map (fun h => 2 ^ h.loc)).foldl (· + ·) 0) (s.dealNow.toNat % 2 ^ 24) (g % 256)

/-- Lane n carries timing (R186): it is ACTIVE and the seat leads. -/
def State.laneLive (s : State) (n : Fin 40) : Bool := !s.laneIdles n && s.laneHasHeads n.val

/-- R174: the width blocks are pending from the commit on. -/
def State.sendWidths (s : State) (g : Nat) : State :=
  (List.finRange 40).foldl (fun s n =>
    if s.laneLive n then (s.laneRun n (atLnk s.ltm.now)).onLane (barLane n) fun x => { x with
      pend := { x.pend with width := x.pend.width ++ s.widthSet n.val g } }
    else s) s

/-- R152: at a line boundary lane n sends the fire block of a fired line, then takes the record of the bar's next print line. -/
def State.laneBoundary (s : State) (n : Fin 40) (g : Nat) (fired : Option Commit) : State :=
  if !s.laneHasHeads n.val then s
  else
    let s1 := if !s.laneLive n then s else
      match fired with
      | some c => s.onLane (barLane n) fun x => x.fire (s.idleBlock n.val) (s.fireSet n g c) (s.blockNs (barLane n)) (atLnk c.trig)
      | none => s.laneRun n (atLnk s.ltm.now)
    s1.takeRecord n (pl (s1.lineOf (n.val / 5) + 1))

/-! ### Void lines (R157, R158, R162) -/

/-- R158: at a void grid line g, each bar's print lines for every distinct HEAD_DLY of its heads are void. -/
def State.voidGrid (s : State) (g : Nat) : State :=
  s.allHeads.foldl (fun s p => (s.voidLine p.1.val (s.headLine g p.1.val p.2.h)).lineSince (headIdx p.1.val p.2.h)) s

/-- R157: the records of stopped heads are void at grid line g; EVT_HEAD_STALE once. -/
def State.voidStale (s : State) (g : Nat) : State :=
  s.allHeads.foldl (fun s p =>
    let i := headIdx p.1.val p.2.h
    if s.headOff i then
      ((s.voidLine p.1.val (s.headLine g p.1.val p.2.h)).when (!(s.lhead i).stale) fun s =>
        s.raise 0x063 p.1.val i).onLHead i fun x => { x with stale := true }
    else s) s

/-! ### Progress of the jobs (R26, R76, R150) -/

/-- R150: the largest BAR_DLY + HEAD_DLY over the enabled heads of a job's bars. -/
def State.maxDly (s : State) (bj : BJob) : Nat :=
  ((s.allHeads.filter (fun p => bj.bars.getLsbD p.1.val)).map (fun p => s.barDly p.1.val + s.headDly p.1.val p.2.h)).foldl max 0

/-- R76: what grid line g means to a bound job: it starts PRINTING at its first line, its fired lines are counted, and it is
ENDING once every head has fired its last line. -/
def State.jobAt1 (s : State) (g : Nat) (bj : BJob) : State :=
  match bj.start with
  | none => s
  | some st =>
    if lineBefore g st then s
    else s.modJob (tagOf bj.handle) fun j =>
      let n := lineSpan (st + s.maxDly bj) (g + 1)
      let pr := match j.lines with | some k => min k n | none => n
      if j.st = .bound ∨ j.st = .printing then
        { j with
          printed := pr
          st := if j.lines = some pr then .ending else .printing }
      else if j.st = .aborted ∨ (j.st = .failed ∧ j.status = 6) then { j with printed := pr }
      else j

/-- R26: some bound job is still to print lines. -/
def State.moreToPrint (s : State) : Bool := s.sys.jobs.any (fun j => s.composes j)

/-- R26: the last line of the last job has fired: `READY`, and the web ramps to rest. -/
def State.printOver (s : State) : State :=
  if s.inMode .print && !s.moreToPrint && !s.sys.stopping then
    (s.onLtm fun l => { l with armed := false, commit := none }).setMode .ready false
  else s

/-- The jobs at grid line g. -/
def State.jobsAt (s : State) (g : Nat) : State :=
  let s1 := s.settleStarts
  (s1.sys.jobs.foldl (fun s bj => s.jobAt1 g bj) s1).printOver

/-! ### The line boundary (R149) -/

/-- R146: H moves to the next fire point. -/
def State.advanceH (s : State) : State :=
  let n := s.ltm.hrem + s.pitchNum
  s.onLtm fun l => { l with h := l.h + (n / s.pitchDen : Nat), hrem := n % s.pitchDen }

/-- R149, R152: the boundary of the next grid line, fired under a commit or void. -/
def State.gridLine (s : State) (fired : Option Commit) : State :=
  let g := pl (s.ltm.g.toNat + 1)
  let base : Bool := match fired, s.ltm.fPrev with
    | some c, some p => decide (s.tminNs + c.tline / 64 ≤ c.f - p)
    | some _, none => true
    | none, _ => false
  let s1 := ((s.advanceH.onLtm fun l => { l with g := BitVec.ofNat 48 g, commit := none }).lineCommits).fineSteps base
  let s2 := match fired with
    | some c => (s1.voidStale g).onLtm fun l => { l with fPrev := some c.f, late := c.late, now := max l.now c.trig }
    | none => s1.voidGrid g
  let s3 := (List.finRange 40).foldl (fun s n => s.laneBoundary n g fired) s2
  (s3.onLtm fun l => { l with fresh := false }).jobsAt g

/-! ### Prediction (R148) -/

/-- The line due: its fire point X in steps. -/
def State.firePoint (s : State) : Rat := s.ltm.h + (s.ltm.hrem + s.pitchNum : Nat) / (s.pitchDen : Rat)

/-- R148: the speed from the last five samples, in steps per ns, jumps taken out. -/
def speedOf : List (Rat × Int × Int) → Option Rat
  | (_, p0, j0) :: (_, _, j1) :: (_, _, j2) :: (_, _, j3) :: (_, p4, _) :: _ => some ((p0 - p4 - (j0 + j1 + j2 + j3) : Int) / 1000)
  | _ => none

/-- What R148 answers at a sample: the base instant F, the crossing T, T_line and the trigger instant of the line due. -/
structure Due where
  f : Rat
  t : Rat
  tline : Rat
  trig : Rat
deriving DecidableEq, Repr

/-- R148: the decision at sample (t, P) that arrived now; `free` stands for T_line at a speed that is not positive. -/
def State.decide148 (s : State) (t : Rat) (p : Int) (free : Rat) : Option Due :=
  let x := s.firePoint
  let now := s.ltm.now
  let after := fun (a : Rat) => match s.ltm.fPrev with | some q => max a (q + s.tminNs) | none => a
  match speedOf s.ltm.hist with
  | none => if x ≤ p then some { f := after now, t := now, tline := free, trig := now } else none
  | some v =>
    let tl := if 0 < v then (s.pitchNum : Rat) / s.pitchDen / v else free
    let tc := if 0 < v then t + (x - p) / v else now
    if x ≤ p then some { f := after now, t := tc, tline := tl, trig := now }
    else if 0 < v then
      let f := after tc
      if f - s.preNs < now + 250 then
        some { f := f, t := tc, tline := tl, trig := max now (((f - s.preNs) * (2 / 5) + 1 / 2).floor * (5 / 2)) }
      else none
    else none

/-- R158: the lag of a line in 1/64 line, rounded up; 0 unless T_min holds it back. -/
def State.lagOf (s : State) (d : Due) : Nat :=
  match s.ltm.fPrev with
  | some q => if d.t < q + s.tminNs ∧ 0 < d.tline then (64 * (d.f - d.t) / d.tline).ceil.toNat else 0
  | none => 0

/-- R290: the holder's line event for grid line g: sent at every commit and every void grid line. -/
def State.lineEventOut (s : State) (g : Nat) (f : Rat) (void : Bool) : State :=
  if s.tbl.holder && s.fb F.TBL_CFG_TWIN then
    s.onTbl fun t => { t with tx := t.tx ++ [.lineEvt g (f.floor.toNat % 2 ^ 32) void t.deal t.txSeq] }
  else s

/-- R158: a line too late is void on every bar, and the web axis is clamped; `post` is what follows a line boundary. -/
def State.overspeed (s : State) (post : State → State → State) (d : Due) (lag : Nat) : State :=
  let s1 := ((s.bump F.LTM_OVS_CNT_COUNT).event 0x061 (min 65535 lag)).onLtm fun l => { l with clamp := true }
  post s1 ((s1.lineEventOut (pl (s.ltm.g.toNat + 1)) d.f true).gridLine none)

/-- R148, R156, R158: the line due is committed: the widths are fixed and sent. -/
def State.commitLine (s : State) (d : Due) (lag : Nat) : State :=
  let g := pl (s.ltm.g.toNat + 1)
  let s1 := s.onLtm fun l => { l with
    commit := some { f := d.f, trig := d.trig, tline := d.tline, late := decide (0 < lag) } }
  let s2 := s1.when (decide (0 < lag)) fun s => (s.bump F.LTM_LAG_CNT_COUNT).peak F.LTM_LAG_PEAK_LAG lag
  let s3 := s2.allHeads.foldl (fun s p => s.commitHead p.1 p.2) s2
  (s3.lineEventOut g d.f false).sendWidths g

/-- R143, R163: a sample arrives: H moves with a jump; the sample joins the history. -/
def State.takeSample (s : State) : Option (State × Rat × Int) :=
  match s.enc.fly with
  | [] => none
  | (t, p, j) :: rest =>
    some ((s.onEnc fun e => { e with fly := rest }).onLtm fun l => { l with
      now := max l.now ((t : Rat) + 750)
      h := l.h + j
      hist := (((t : Rat), p, j) :: l.hist).take 5 }, (t : Rat), p)

/-- R148: the seat decides on its own samples. -/
def State.runsGrid (s : State) : Bool :=
  s.ltm.armed && s.ltm.commit.isNone && (s.inMode .print || s.inMode .service) && !s.sys.endFiring

/-- R297: a fire point passed while no seat fired: G moves on and the line is void; no lane takes a record. -/
def State.gridSkip (s : State) : State :=
  let g := pl (s.ltm.g.toNat + 1)
  let s1 := (((s.advanceH.onLtm fun l => { l with g := BitVec.ofNat 48 g, fresh := true }).lineCommits).fineSteps false).voidGrid g
  (s1.lineEventOut g s1.ltm.now true).jobsAt g

/-- R163, R297: every fire point that position `p` has passed becomes a void grid line; `k` bounds their number. -/
def State.voidPassed (s : State) (post : State → State → State) (p : Int) : Nat → State
  | 0 => s
  | k + 1 => if s.firePoint ≤ p ∧ s.runsGrid then (post s s.gridSkip).voidPassed post p k else s

/-- The number of fire points position `p` may have passed: none when the pitch is 0. -/
def State.passedBound (s : State) (p : Int) : Nat :=
  if s.pitchNum = 0 then 0 else ((p - s.ltm.h).toNat * s.pitchDen) / s.pitchNum + 1

/-- R163, R297: at the first sample after a takeover or a reset of LTM the fire points passed meanwhile are void. -/
def State.caughtUp (s : State) (post : State → State → State) (p : Int) : State :=
  if s.ltm.catchUp && s.runsGrid then (s.voidPassed post p (s.passedBound p)).onLtm fun l => { l with catchUp := false } else s

/-- LTM_SAMPLE_ARRIVAL (R148, R158). -/
def State.sampleArrives (s : State) (post : State → State → State) : State :=
  match s.takeSample with
  | none => s
  | some (s0, t, p) =>
    let s1 := s0.caughtUp post p
    if !s1.runsGrid then s1
    else match s1.decide148 t p (s1.freeNat : Nat) with
      | none => s1.drawn
      | some d =>
        let lag := s1.lagOf d
        if s.f F.LTM_LAG_MAX_LAG < lag then s1.drawn.overspeed post d lag else s1.drawn.commitLine d lag

/-- R152: the committed trigger is issued. -/
def State.trigger (s : State) : State :=
  match s.ltm.commit with
  | some c => s.gridLine (some c)
  | none => s

/-- R139, R146: the jumps of P_web that have yet to reach line timing, with the samples on their way and the next one. -/
def State.jumpsDue (s : State) : Int := (s.enc.fly.map (fun x => x.2.2)).foldl (· + ·) s.enc.jump

/-- R146, R141, R154, R157: firing is armed: P_max takes P_web, and so does H, which the jumps still on their way will move. -/
def State.arm (s : State) : State :=
  ((s.onEnc fun e => { e with pmax := e.pweb, rev := false }).onLtm fun l => { l with
    armed := true
    h := s.enc.pweb - s.jumpsDue
    hrem := 0
    fPrev := none
    commit := none
    late := false
    heads := l.heads.map (fun x => if x.tv.isNone then { x with since := 0, stale := false } else x) }).fineStart

/-! ### Governor (R160, R161) -/

/-- R161: bar b has queued the last line of the last bound job. -/
def State.barFinished (s : State) (b : Fin 8) : Bool :=
  match s.sys.jobs.getLast? with
  | none => true
  | some j => (match s.linesOf j with | some n => decide (n ≤ j.done[b]) | none => false) && s.bars[b].outQ.isEmpty && s.bars[b].mid.isNone

/-- R161: the lanes whose fill counts, with their fill. -/
def State.govLanes (s : State) : List (Nat × Nat) :=
  ((List.finRange 40).filter (fun n =>
    let b : Fin 8 := ⟨n.val / 5, by omega⟩
    s.laneHasHeads n.val && s.boundOn b.val && !s.barFinished b)).map (fun n => (s.cvq[(⟨n.val, by omega⟩ : Fin 64)].fill, n.val))

/-- The pair with the lowest fill, the first among equals. -/
def lowest : List (Nat × Nat) → Option (Nat × Nat)
  | [] => none
  | x :: t => match lowest t with
    | some y => some (if y.1 < x.1 then y else x)
    | none => some x

/-- R62, R160: the lowest fill F in lines, and its lane. -/
def State.lowFill (s : State) : Option (Nat × Nat) := lowest s.govLanes

/-- R160: MIN and SLOW as the governor uses them. -/
def State.govMin (s : State) : Nat := max (s.f F.LTM_FILL_MIN_LINES) (s.f F.LTM_FILL_STOP_LINES + 1)
def State.govSlow (s : State) : Nat := max (s.f F.LTM_FILL_SLOW_LINES) (s.govMin + 1)

/-- R160: the computed limit in 10⁻⁶ mm/s; none above SLOW. -/
def State.govLimit (s : State) (fill : Nat) : Option Nat :=
  let lo : Int := s.f F.LTM_GOV_VMIN_VALUE * 1000000
  let mn := s.govMin
  let sl := s.govSlow
  if sl ≤ fill then none
  else if fill ≤ mn then some lo.toNat
  else some (lo + ((s.opSpeed : Int) - lo) * (fill - mn : Nat) / (sl - mn : Nat)).toNat

/-- R160: the passed limit one µs on: towards the computed limit at ACC; none once it has reached v_op with none computed. -/
def State.govStep (s : State) (goal : Option Nat) : Option Nat :=
  let cur := s.ltm.gov.getD s.opSpeed
  let lim := goal.getD s.opSpeed
  let acc := max 1 (s.f F.LTM_GOV_ACC_VALUE)
  let nxt := if cur < lim then min lim (cur + acc) else max lim (cur - acc)
  if goal.isNone ∧ nxt = s.opSpeed then none else some nxt

/-- R292: the fill the holder's governor uses: with a seat in step that reports no latch, the lower of both. -/
def State.govFill (s : State) : Option (Nat × Nat) :=
  match s.lowFill with
  | none => none
  | some (f, n) => some (if s.tbl.holder && s.tbl.inStep && !s.tbl.otherLatched then min f (s.tbl.otherFill.getD f) else f, n)

/-- R160, R161: the governor at the lowest fill, or with every lane left out; `low` is what a fill below STOP does. -/
def State.govern (s : State) (fill : Option (Nat × Nat)) (low : State → State) : State :=
  match fill with
  | none => s.onLtm fun l => { l with gov := none, fill := 0 }
  | some (f, n) =>
    let s1 := s.onLtm fun l => { l with fill := f, govLane := n }
    if f < s.f F.LTM_FILL_STOP_LINES then low s1
    else s1.onLtm fun l => { l with gov := s1.govStep (s1.govLimit f) }

/-- GOVERNOR_SAMPLE (R160, R161) of a printing seat. -/
def State.governor (s : State) : State := s.govern s.govFill fun s => s.orderlyStop .haltRamp 2

end Sys2Proof.Machine
end

