-- ==== Sys2Proof/Machine/Pins.lean ====
section
/-! DEFINITION. What the general-purpose pins carry (R24, R288, R339, R340). -/
namespace Sys2Proof.Machine

/-- R339: the function in force of pin i. -/
def State.pinFunc (s : State) (i : Nat) : Nat := s.f (F.PAD_GPIO_CFG_FUNC i)

/-- R339: the value an output function gives pin i; none for an input or an unused code. -/
def State.pinValue (s : State) (i : Nat) : Option Bool :=
  let fn := s.pinFunc i
  if fn = 2 then some (decide (bits (s.f F.PAD_GPIO_OUT_OUT) i 1 = 1))
  else if fn = 5 then some (s.inMode .print)
  else if fn = 6 then some (s.inMode .ready)
  else if fn = 7 then some ((s.inMode .halt && decide (2 ≤ s.sys.haltCause)) || s.inMode .frozen)
  else if fn = 8 then some s.pad.reject
  else if fn = 9 then some s.sys.stopping
  else if 16 ≤ fn ∧ fn ≤ 23 then some (s.pad.camTrig.getLsbD (fn - 16))
  else if 24 ≤ fn ∧ fn ≤ 27 then some (vgetD s.tim.gens (fn - 24) {}).high
  else none

/-- R24, R311: the GPIO outputs of a holder take their safe levels: in the modes of the safe state, and from an immediate stop on. -/
def State.safePads (s : State) : Bool := s.inMode .idle || s.inMode .halt || s.inMode .frozen || decide (s.thm.stop = 2)

/-- R24, R288, R340: the level, after INV, that the seat drives on output pin i; none: it drives nothing. -/
def State.pinOut (s : State) (i : Nat) : Option Bool :=
  match s.pinValue i with
  | none => none
  | some v =>
    if s.pad.held then some (s.pad.gpio.getLsbD i)
    else if s.padsOff then none
    else if s.safePads && decide (s.pinFunc i < 24) then
      let inv := s.fb (F.PAD_GPIO_CFG_INV i)
      match s.f (F.PAD_GPIO_CFG_SAFE i) with
      | 0 => some inv
      | 1 => some !inv
      | 2 => none
      | _ => some v
    else some v

/-- `PAD_GPIO_IN`: filtered levels, read back for output pins as well. -/
def State.gpioIn (s : State) : BitVec 32 :=
  (upto 32).foldl (fun w i => match s.pinOut i with
    | some v => if w.getLsbD i = v then w else w ^^^ BitVec.ofNat 32 (2 ^ i)
    | none => w) s.pad.gpio

/-- R288: the output pads hold their last level for PAD_HOLD and are then released. -/
def State.padsHold (s : State) : State :=
  s.onPad fun p =>
    let p := { p with
      gpio := s.gpioIn
      gates := Vector.ofFn (fun (i : Fin 24) => s.gatePair ⟨i.val / 2, by omega⟩ (decide (i.val % 2 = 1)))
      lampEn := s.lmp.chain.map (fun (x : LampChain) => !x.dark)
      dirs := Vector.ofFn (fun (i : Fin 4) => s.dirLevel ⟨i.val + 12, by omega⟩) }
    if s.f F.TBL_PAD_HOLD_US = 0 then { p with held := false, released := true } else { p with held := true }

end Sys2Proof.Machine
end

