-- ==== Sys2Proof/Machine/Twin.lean ====
section
/-! DEFINITION. Twin operation (R277–R302): the Trump and its deal, yields, the forwarding stream, digests, what a standby does
with the holder's line events, and how it leaves step. -/
namespace Sys2Proof.Machine

/-! ### Deals and the group (R179, R281, R284) -/

/-- R179: deal `d` is higher than deal `e`. -/
def newer (d e : BitVec 32) : Bool := decide ((d - e).toNat ≠ 0) && decide ((d - e).toNat < 2 ^ 31)

/-- The higher of two deals. -/
def higher (d e : BitVec 32) : BitVec 32 := if newer e d then e else d

/-- R284: the highest deal this seat knows of. -/
def State.highestDeal (s : State) : BitVec 32 :=
  ((List.finRange 40).filter (fun n => s.laneHasHeads n.val)).foldl
    (fun d n => higher d (BitVec.ofNat 32 (s.f (F.LNK_MOD_DEAL_VALUE n.val)))) (higher s.tbl.ownDeal s.tbl.otherDeal)

/-- R281: the block by which the lanes carry it.  The forwarding stream and the checkpoint have none here: the manual codes neither
the payload of a record nor the checkpoint. -/
def TBlock.block : TBlock → Option Block
  | .lease seat mode deal g =>
    some (mkBlock 0xF7 (leBytes 1 0x10 ++ leBytes 1 (if seat then 1 else 0) ++ leBytes 2 mode ++ leBytes 4 deal.toNat ++ leBytes 6 g))
  | .yield deal g => some (mkBlock 0xF7 (leBytes 4 0x11 ++ leBytes 4 deal.toNat ++ leBytes 6 g))
  | .revert deal => some (mkBlock 0xF7 (leBytes 4 0x12 ++ leBytes 4 deal.toNat))
  | .ack fseq => some (mkBlock 0xF7 (leBytes 4 0x13 ++ leBytes 4 fseq.toNat))
  | .replay fseq => some (mkBlock 0xF7 (leBytes 4 0x14 ++ leBytes 4 fseq.toNat))
  | .digest lane line vals =>
    some (mkBlock 0xF7 (leBytes 1 0x15 ++ leBytes 1 lane ++ leBytes 6 line
      ++ (upto 5).flatMap (fun i => leBytes 4 ((vals.getD i none).getD 0))
      ++ leBytes 1 ((upto 5).foldl (fun n i => n + (if (vals.getD i none).isNone then 2 ^ i else 0)) 0)))
  | .fill lines latched => some (mkBlock 0xF7 (leBytes 4 0x16 ++ leBytes 4 lines ++ leBytes 1 (if latched then 1 else 0)))
  | .suspect cause => some (mkBlock 0xF7 (leBytes 1 0x17 ++ leBytes 1 cause))
  | .time => some (mkBlock 0xF7 (leBytes 1 0x18))
  | .left cause => some (mkBlock 0xF7 (leBytes 1 0x19 ++ leBytes 1 cause))
  | .lineEvt g f void deal fseq =>
    some (mkBlock 0x7C (leBytes 1 0x20 ++ leBytes 6 g ++ leBytes 4 f ++ leBytes 1 (if void then 1 else 0) ++ leBytes 4 deal.toNat
      ++ leBytes 4 fseq.toNat))
  | .fwd _ => none
  | .checkpoint _ _ => none

/-- R281: control blocks and line events leave on both lowest-numbered lanes of the group. -/
def State.tblWire (s : State) : List (Fin 52 × Block) :=
  let lanes := ((List.finRange 52).filter (fun n => isTbl n && s.lnk.lanes[n].inGroup)).take 2
  (s.tbl.tx.filterMap TBlock.block).flatMap (fun b => lanes.map (fun n => (n, b)))

/-- R281: the group has a lane. -/
def State.groupUp (s : State) : Bool := (List.finRange 52).any (fun n => isTbl n && s.lnk.lanes[n].inGroup)

/-- Blocks put on the Table link. -/
def State.tblSend (s : State) (l : List TBlock) : State := s.onTbl fun t => { t with tx := t.tx ++ l }

/-- R296: the holder takes the other seat as in step unless that seat reports its `ESTOP_N` latched. -/
def State.otherInStep (s : State) : Bool := s.tbl.holder && s.tbl.inStep && !s.tbl.otherLatched

/-- R280: the seat is the first one. -/
def State.firstSeat (s : State) : Bool := !s.pad.seatId

/-! ### Pads (R288) -/


/-- PAD_HOLD_EXPIRY (R32, R288): the pad hold latches lie in the always-on domain, so a held `RESET_N` does not keep them. -/
def execPadHoldExpiry (s : State) : Host.Outcome State Fault Refusal :=
  .next (s.when (s.sys.powered && s.pad.held) fun s => s.onPad fun p => { p with held := false, released := true })

/-! ### Holding the Trump (R278, R283) -/

/-- The LEASE block (R281). -/
def State.leaseBlock (s : State) : TBlock :=
  .lease s.pad.seatId (s.sys.mode.code + if s.sys.cold then 16 else 0) s.tbl.deal s.ltm.g.toNat

/-- R278, R283: a renewal: a transition of the hold output, and a LEASE block while the group is up. -/
def State.renew (s : State) : State :=
  let s1 := s.onTbl fun t => { t with holdOut := !t.holdOut }
  if s1.groupUp then s1.tblSend [s1.leaseBlock] else s1

/-- TRUMP_RENEW (R283); an island reset of TBL stops the renewals (R11). -/
def execTrumpRenew (s : State) : Host.Outcome State Fault Refusal :=
  .next (s.live fun s => s.when (s.tbl.holder && !s.tbl.stopped) State.renew)

/-- R297, step 3: every ACTIVE lane claims the deal. -/
def State.claim (s : State) : State := s.laneRoles fun idle x => x.idles idle

/-- R297: the seat takes the Trump at a deal, with TAKE code `code`; `stays`: the old holder stays in step (R300). -/
def State.takeTrump (s : State) (code : Nat) (deal : BitVec 32) (stays : Bool) : State :=
  let wasIn := s.tbl.inStep
  let s1 := (s.onTbl fun t => { t with
    holder := true, deal := deal, ownDeal := deal, take := code, inStep := stays, joining := false, stopped := false
    txSeq := t.rxSeq, replay := [], replayBytes := 0, evts := [], cmps := [], digs := [], later := [], posRun := 0
    gridSet := false, qual := none, idleS := some 0, otherFill := none, otherLatched := false, yieldFor := none
    testing := false, revertSent := false, revertDue := false }).bump F.TBL_TAKE_CNT_COUNT
  let s2 := s1.onPad fun p => { p with held := false, released := false }
  let s3 := if !s.inMode .standby then s2
    else if wasIn then
      (s2.onLtm fun l => { l with fresh := l.armed, catchUp := l.armed, commit := none }).setMode s.sys.shadow s.sys.shadowCold
    else (s2.unbindAll).setMode .idle false
  (s3.renew.claim).event 0x0D0 code

/-- R286, R288: the seat is without the Trump: it renews no more, and its pads hold and are released. -/
def State.loseTrump (s : State) : State :=
  ((s.onTbl fun t => { t with holder := false, rxSeq := t.txSeq, replay := [], replayBytes := 0, idleS := some 0 }).padsHold).onLtm
    fun l => { l with commit := none }

/-! ### Leaving step (R295) -/

/-- R295: a seat drops out of step: LEFT, EVT_DIVERGE; what it holds of the holder's jobs is unbound. -/
def State.dropStep (s : State) (cause : Nat) : State :=
  let s1 := (s.onTbl fun t => { t with
    left := cause, inStep := false, joining := false, qual := none, revertDue := false, revertSent := false, evts := []
    cmps := [], posRun := 0, gridSet := false, later := [], digs := [], fronts := Vector.replicate 8 0
    tx := t.tx ++ [.left cause] }).bump F.TBL_DIV_CNT_COUNT
  let s2 := ((s1.event 0x0D3 cause).unbindAll.setFlow .none .none).onSys fun y => { y with
    req := none, stops := [], stopping := false, endFiring := false, svc := none, shadow := .boot, shadowCold := false }
  s2.onLtm fun l => { l with armed := false }

/-- R295: a standby leaves step for `IDLE/WARM` under R26. -/
def State.leaveStep (s : State) (cause : Nat) : State :=
  if s.inMode .standby then (s.dropStep cause).setMode .idle false else s

/-- R295, R302: the holder finds the standby gone; a commanded yield that waited for it is refused. -/
def State.otherGone (s : State) (cause : Nat) : State :=
  let cmd := match s.tbl.yieldFor with | some c => decide (2 ≤ c) | none => false
  let s1 := (s.onTbl fun t => { t with
    inStep := false, joining := false, replay := [], replayBytes := 0, digs := [], otherFill := none, otherLatched := false
    yieldFor := if cmd then none else t.yieldFor
    testing := false }).when cmd fun s => s.bump F.TBL_REJ_CNT_COUNT
  s1.event 0x0D4 cause

/-- LEFT (R295). -/
def execLeft (cause : Nat) (s : State) : Host.Outcome State Fault Refusal :=
  .next (s.live fun s => s.when s.tbl.holder fun s => (s.onTbl fun t => { t with left := cause % 16 }).otherGone (cause % 16))

/-- STANDBY_SILENCE (R295). -/
def execStandbySilence (s : State) : Host.Outcome State Fault Refusal :=
  .next (s.live fun s => s.when (s.tbl.holder && (s.tbl.inStep || s.tbl.joining)) fun s => s.otherGone 0)

/-- SUSPECT (R293). -/
def execSuspect (cause : Nat) (s : State) : Host.Outcome State Fault Refusal :=
  .next (s.live fun s => s.leaveStep (cause % 16))

/-! ### Renewals heard (R278, R284) -/

/-- RENEWAL_RECEIVED (R278): a hold-input transition, or a LEASE block with the other seat's deal. -/
def execRenewalReceived (hold : Bool) (deal : Option (BitVec 32)) (_mode : Nat) (s : State) : Host.Outcome State Fault Refusal :=
  .next (s.live fun s => s.onTbl fun t =>
    let t1 := { t with renewed := true, holdAct := t.holdAct || hold }
    match deal with
    | some d => { t1 with otherDeal := d, deal := if t.holder then t.deal else d }
    | none => t1)

/-- R284: the deal of a seat that takes an expired Trump, or one that no one holds. -/
def State.nextDeal (s : State) : BitVec 32 := s.highestDeal + 1

/-- R284: the web source in use has reported standstill. -/
def State.webStill (s : State) : Bool := s.enc.ch[s.enc.act].still

/-- LEASE_EXPIRY (R284). -/
def State.leaseExpired (s : State) : State :=
  let s1 := s.onTbl fun t => { t with renewed := false, holdAct := false }
  if s1.tbl.holder || s1.pad.latched then s1
  else if s1.inMode .standby && s1.tbl.inStep then s1.takeTrump 1 s1.nextDeal false
  else if s1.inMode .standby || s1.inMode .idle || s1.inMode .ready || s1.inMode .service || s1.inMode .halt then
    if s1.webStill then s1.takeTrump 1 s1.nextDeal false else s1
  else s1

def execLeaseExpiry (s : State) : Host.Outcome State Fault Refusal := .next (s.live State.leaseExpired)

/-- R289: every lane carrying heads is ACTIVE, in CAP_BAD or retired, or has failed one bring-up. -/
def State.lanesSettled (s : State) : Bool :=
  (List.finRange 40).all (fun n =>
    let x := s.lnk.lanes[barLane n]
    !s.laneHasHeads n.val || x.st == .active || x.capBad || x.st == .retired || x.failedOnce)

/-- STARTUP_TRUMP_TAKE (R289). -/
def State.startupTake (s : State) : State :=
  let twin := (s.idleWarm || s.inMode .halt) && !s.tbl.renewed
  let lone := !s.inMode .boot && !s.inMode .frozen && !s.inMode .standby
  if !s.tbl.holder && !s.pad.latched && s.lanesSettled && (if s.fb F.TBL_CFG_TWIN then twin else lone) then
    s.takeTrump 5 s.nextDeal false
  else s

def execStartupTrumpTake (s : State) : Host.Outcome State Fault Refusal := .next (s.live State.startupTake)

/-- YIELD (R286, R297, R302).  A YIELD block does not say why the holder yields: a seat that sent REVERT, or that handed over in
a test, knows; otherwise TAKE reads 2 or 4 (a free choice). -/
def State.yielded (s : State) (deal : BitVec 32) : State :=
  if s.inMode .standby && s.tbl.inStep && !s.pad.latched then
    let code := if s.tbl.revertSent then 3 else if s.tbl.testing then 4 else if s.freeBit then 4 else 2
    s.drawn.takeTrump code (deal + 1) true
  else s

def execYield (deal : BitVec 32) (_g : BitVec 48) (s : State) : Host.Outcome State Fault Refusal :=
  .next (s.live fun s => s.yielded deal)

/-! ### Commanded yields (R286, R300, R301) -/

/-- R286, steps 2 and 3: the holder yields to the seat in step and enters `STANDBY` under R26; the record in progress and its
RECORD_END leave first (R186). -/
def State.handOver (s : State) (test : Bool) : State :=
  let s1 := (s.tblSend [.yield s.tbl.deal s.ltm.g.toNat]).loseTrump
  let s2 := (s1.onTbl fun t => { t with yieldFor := none, testing := test, gridSet := false, digs := [] }).onSys fun y => { y with
    shadow := y.mode, shadowCold := y.cold, req := none }
  (s2.setMode .standby false).laneRoles fun idle x => x.finish idle

/-- A commanded yield is carried out at a line boundary while lines fire, otherwise at once; a stop under way completes
first (R302). -/
def State.yieldTry (s : State) (atLine : Bool) : State :=
  match s.tbl.yieldFor with
  | some c =>
    if 2 ≤ c ∧ s.otherInStep ∧ !s.sys.stopping ∧ (atLine ∨ !s.ltm.armed) then s.handOver (c == 4) else s
  | none => s

/-- A commanded yield asked for: without a seat in step it is ignored and counted (R285). -/
def State.askYield (s : State) (c : Nat) : State :=
  if !s.tbl.holder then s
  else if s.otherInStep then (s.onTbl fun t => { t with yieldFor := some c }).yieldTry false
  else s.bump F.TBL_REJ_CNT_COUNT

/-- A `TBL_CMD` write (R286, R301). -/
def State.tblCmd (s : State) (ses : Fin 5) (confirm : Byte) (code : Nat) : State :=
  let w := confirmWord confirm code
  s.sesReach ses .installer 0x1A0020 w fun s =>
    if !confirmed confirm || !s.tbl.holder then s
    else (s.auditWrite ses 0x1A0020 0 w.toNat).askYield (if code = 1 then 2 else 4)

/-- HANDOVER and TEST_TAKEOVER. -/
def execHandover (ses : Fin 5) (confirm : Byte) (s : State) : Host.Outcome State Fault Refusal := .next (s.tblCmd ses confirm 1)

def execTestTakeover (ses : Fin 5) (confirm : Byte) (s : State) : Host.Outcome State Fault Refusal := .next (s.tblCmd ses confirm 2)

/-- TEST_HOLD_EXPIRY (R301): the tested seat hands the Trump back. -/
def execTestHoldExpiry (s : State) : Host.Outcome State Fault Refusal :=
  .next (s.live fun s => s.when (decide (s.tbl.take = 2) || decide (s.tbl.take = 4)) fun s => s.askYield 2)

/-- REVERT (R300). -/
def execRevert (_deal : BitVec 32) (s : State) : Host.Outcome State Fault Refusal := .next (s.live fun s => s.askYield 3)

/-- R300: every bar's print line is blank under R150. -/
def State.allBlank (s : State) : Bool := (upto 8).all (fun b => !s.hasHeads b || (s.jobOfLine b (s.lineOf b)).isNone)

/-- R300: REVERT is sent once it is due and, with REVERT_AT_JOB, the holder is outside `PRINT` or every print line is blank. -/
def State.revertTry (s : State) : State :=
  if s.tbl.revertDue && s.inMode .standby && s.tbl.inStep
      && (!s.fb F.TBL_CFG_REVERT_AT_JOB || s.sys.shadow != .print || s.allBlank) then
    s.onTbl fun t => { t with revertDue := false, revertSent := true, tx := t.tx ++ [.revert t.deal] }
  else s

/-- REVERT_QUALIFIED (R300). -/
def execRevertQualified (s : State) : Host.Outcome State Fault Refusal :=
  .next (s.live fun s => s.when (s.firstSeat && s.inMode .standby && s.tbl.inStep && decide (s.f F.TBL_QUAL_S ≠ 0)) fun s =>
    (s.onTbl fun t => { t with revertDue := true }).revertTry)

/-- R287: the holder steps down: it makes the stop request itself, unseen, and is out of step. -/
def State.stepDown (s : State) (lane : Nat) : State :=
  if !s.tbl.holder then s
  else
    let s1 := (s.event 0x0D1 lane).loseTrump
    ((s1.onTbl fun t => { t with inStep := false, joining := false, yieldFor := none, testing := false, digs := [] }).orderlyStop
      .haltRamp 1).laneRoles fun idle x => x.idles idle

/-! ### The checkpoint of a join (R299) -/

/-- R299, step 2: the holder's state as a joining seat takes it over. -/
def State.checkpointNow (s : State) : Checkpoint where
  mode := s.sys.mode
  cold := s.sys.cold
  bound := s.sys.jobs
  jobs := s.ing.jobs
  gens := s.ing.gens
  rw := s.regs.rw
  shadow := s.regs.shadow
  pend := s.regs.pend
  act := s.regs.act
  pending := s.regs.pending
  desc := s.lnk.desc
  bars := s.bars
  ltm := s.ltm
  mot := s.mot
  chl := s.chl
  lmp := s.lmp
  frames := s.vis.cam.map (fun (c : Cam) => c.frame)
  fseq := s.tbl.txSeq
  stops := s.sys.stops
  stopping := s.sys.stopping
  endFiring := s.sys.endFiring
  flow := s.sys.flow
  seqStep := s.sys.seqStep
  svc := s.sys.svc

/-- R299, step 2: a checkpoint that is due leaves at the next line boundary of bar 0, with no line to come (bar 0 prints none) at once
(DESIGN CHOICE, log entry 63). -/
def State.checkpointTry (s : State) (atLine : Bool) : State :=
  if s.tbl.cpDue && s.tbl.joining && s.tbl.holder && (atLine || !s.ltm.armed) then
    (s.onTbl fun t => { t with cpDue := false }).tblSend [.checkpoint (s.lineOf 0) s.checkpointNow]
  else s

/-! ### The forwarding stream (R282) -/

/-- ACK (R282): records below `fseq` are received. -/
def State.acked (s : State) (fseq : BitVec 32) : State :=
  s.onTbl fun t =>
    let r := t.replay.filter (fun x => !newer fseq x.fseq)
    { t with replay := r, replayBytes := (r.map (fun x => fwdBytes x.item)).foldl (· + ·) 0 }

def execAck (fseq : BitVec 32) (s : State) : Host.Outcome State Fault Refusal :=
  .next (s.live fun s => s.when s.tbl.holder fun s => s.acked fseq)

/-- ACK_SEND (R282): the receiver acknowledges every record received in order. -/
def execAckSend (s : State) : Host.Outcome State Fault Refusal :=
  .next (s.live fun s => s.when (s.groupUp && (s.inMode .standby || s.tbl.joining)) fun s => s.tblSend [.ack s.tbl.rxSeq])

/-- REPLAY (R282): the sender repeats the stream from `fseq`. -/
def execReplay (fseq : BitVec 32) (s : State) : Host.Outcome State Fault Refusal :=
  .next (s.live fun s => s.when s.tbl.holder fun s =>
    s.tblSend ((s.tbl.replay.filter (fun x => !newer fseq x.fseq)).map .fwd))

/-- R282: a record that fails its CRC, or a gap, is asked for again; an upset on the lane concerned, which of the group's the
rule leaves open when the stream is striped over all of them (a free choice). -/
def State.askReplay (s : State) : State :=
  let ls := (List.finRange 52).filter (fun n => isTbl n && s.lnk.lanes[n].inGroup)
  let s1 := (s.tblSend [.replay s.tbl.rxSeq]).bump F.TBL_REPLAY_CNT_COUNT
  match ls[s.freeNat % ls.length]? with
  | some n => s1.drawn.upset (laneBoard n)
  | none => s1

/-! ### FILL and TIME (R281, R292) -/

/-- FILL (R292, R296). -/
def execFill (lines : Nat) (latched : Bool) (s : State) : Host.Outcome State Fault Refusal :=
  .next (s.live fun s => s.when s.tbl.holder fun s => s.onTbl fun t => { t with otherFill := some lines, otherLatched := latched })

/-- FILL_SEND (R292): with no lane counted the fill has no lowest value and is reported as the largest. -/
def execFillSend (s : State) : Host.Outcome State Fault Refusal :=
  .next (s.live fun s => s.when (s.inMode .standby && s.groupUp) fun s =>
    s.tblSend [.fill (match s.lowFill with | some x => x.1 | none => 0xFFFFFFFF) s.pad.latched])

/-- TIME_EXCHANGE (R281): the latency found, and the common link time as an offset from the seat's LTM time. -/
def execTimeExchange (lat : BitVec 12) (ofs : Int) (s : State) : Host.Outcome State Fault Refusal :=
  .next (s.live fun s => s.when s.groupUp fun s => s.onTbl fun t => { t with lat := lat.toNat, linkOfs := ofs, tx := t.tx ++ [.time] })

/-! ### Digests (R293, R299) -/

/-- R299: the first record of the joining seat leaves a crest and the digests match: the seats are in step. -/
def State.reachStep (s : State) : State :=
  if s.tbl.joining then
    (s.onTbl fun t => { t with
      joining := false, inStep := true
      qual := if s.firstSeat && !t.holder then some 0 else none }).event 0x0D2 0
  else s

/-- R293: the detecting seat sends SUSPECT; a standby leaves step. -/
def State.diverged (s : State) (cause : Nat) : State :=
  let s1 := s.tblSend [.suspect cause]
  if s1.inMode .standby then s1.leaveStep cause else s1

/-- R293: one own digest is paired if the other seat's has come. -/
def State.pairDig (s : State) (d : Dig) : State :=
  match s.tbl.digs.find? (fun e => !e.own && e.lane == d.lane && e.line == d.line) with
  | none => s
  | some e =>
    let s1 := s.onTbl fun t => { t with digs := t.digs.filter (fun x => !(x.lane == d.lane && x.line == d.line)) }
    if d.val.isSome ∧ d.val = e.val then s1.reachStep else s1.diverged 1

/-- R293: the bar of a digest has moved 4,096 lines beyond it. -/
def State.digOld (s : State) (d : Dig) : Bool := decide (4096 ≤ lineSpan d.line (s.lineOf (d.lane / 5)))

/-- R293: pairs compared, and incomplete ones aged; while a join is under way the holder's older records have no pair. -/
def State.settleDigs (s : State) : State :=
  if !(s.tbl.inStep || s.tbl.joining) then s
  else
    let s1 := (s.tbl.digs.filter (·.own)).foldl State.pairDig s
    let old := s1.tbl.digs.any s1.digOld
    let s2 := s1.onTbl fun t => { t with digs := t.digs.filter (fun d => !s1.digOld d) }
    if old && s2.tbl.inStep then s2.diverged 4 else s2

/-- R281: the own digests of a bar's print line, lane by lane. -/
def State.digRow (s : State) (b line : Nat) : List (Option Nat) :=
  (upto 5).map (fun i => (s.tbl.digs.find? (fun d => d.own && d.lane == b * 5 + i && d.line == line)).bind (·.val))

/-- R293: a DIGEST block is sent once every lane of the bar that carries heads has its digest of the line. -/
def State.digestBlock (s : State) (b line : Nat) : State :=
  let ls := (upto 5).filter (fun i => s.laneHasHeads (b * 5 + i))
  if ls.all (fun i => s.tbl.digs.any (fun d => d.own && d.lane == b * 5 + i && d.line == line)) then
    (s.tblSend [.digest (b * 5) line (s.digRow b line)]).onTbl fun t => { t with
      digs := t.digs.map (fun d => if d.own && d.lane / 5 == b && d.line == line then { d with sent := true } else d) }
  else s

/-- The DIGEST blocks a line boundary gives. -/
def State.digestsOut (s : State) : State :=
  let due := (s.tbl.digs.filter (fun d => d.own && !d.sent)).map (fun d => (d.lane / 5, d.line))
  (due.eraseDups.foldl (fun s p => s.digestBlock p.1 p.2) s).settleDigs

/-- DIGEST (R293): values for lanes `lane` to `lane` + 4; lanes without heads carry none. -/
def State.digestIn (s : State) (lane line : Nat) (vals : List (Option Nat)) : State :=
  if !(s.tbl.inStep || s.tbl.joining) then s
  else
    let new := ((vals.take 5).zipIdx.filter (fun p => s.laneHasHeads (lane + p.2))).map
      (fun p => ({ lane := lane + p.2, line := line, own := false, val := p.1 } : Dig))
    (s.onTbl fun t => { t with digs := t.digs ++ new }).settleDigs

def execDigest (lane line : Nat) (vals : List (Option Nat)) (s : State) : Host.Outcome State Fault Refusal :=
  .next (s.live fun s => s.digestIn lane line vals)

/-! ### The standby's grid (R292, R294) -/

/-- R281: a base instant of 32 bits in link time as an instant of LTM time, the one nearest to now. -/
def State.linkToLtm (s : State) (f : Nat) : Rat :=
  let u : Int := ((f : Int) - s.tbl.linkOfs) % 2 ^ 32
  let n := s.ltm.now.floor
  let c := n - n % 2 ^ 32 + u
  let d := c - n
  ((if 2 ^ 31 ≤ d then c - 2 ^ 32 else if d < -(2 ^ 31) then c + 2 ^ 32 else c : Int) : Rat)

/-- H moved so that the fire points move by `d` steps. -/
def State.shiftGrid (s : State) (d : Rat) : State :=
  let y := (s.ltm.h : Rat) + (s.ltm.hrem : Rat) / (s.pitchDen : Rat) + d
  let k := y.floor
  s.onLtm fun l => { l with h := k, hrem := ((y - k) * (s.pitchDen : Rat)).floor.toNat }

/-- The position interpolated at instant `f` from samples, newest first. -/
def posAt (f : Rat) : List (Rat × Int × Int) → Option Rat
  | (t, p, _) :: (t1, p1, j1) :: rest =>
    if t1 ≤ f ∧ f ≤ t ∧ t1 < t then some ((p1 : Rat) + ((p - p1 : Int) : Rat) * ((f - t1) / (t - t1)))
    else posAt f ((t1, p1, j1) :: rest)
  | [(_, p, _)] => some p
  | [] => none

/-- R294: one comparison whose instant the samples have reached. -/
def State.comparePos (s : State) (c : PosCmp) : State :=
  match posAt c.f s.ltm.hist with
  | none => s
  | some p =>
    if c.first then
      (s.shiftGrid (p - c.x)).onTbl fun t => { t with cmps := t.cmps.map (fun y => { y with x := y.x + (p - c.x) }) }
    else
      let d := if p < c.x then c.x - p else p - c.x
      let n := if (s.f F.TBL_POS_TOL_STEPS : Rat) < d then s.tbl.posRun + 1 else 0
      let s1 := s.onTbl fun t => { t with posRun := n }
      if max 1 (s.f F.TBL_POS_TOL_N) ≤ n then s1.leaveStep 2 else s1

/-- R294: the comparisons due at the newest sample, oldest first. -/
def State.comparisons (s : State) : Nat → State
  | 0 => s
  | k + 1 =>
    match s.tbl.cmps, s.ltm.hist with
    | c :: rest, (t, _, _) :: _ =>
      if c.f ≤ t then ((s.onTbl fun x => { x with cmps := rest }).comparePos c).comparisons k else s
    | _, _ => s

/-- R139, R294: a jump moves the standby's own fire points. -/
def State.standbySample (s : State) : State :=
  match s.takeSample with
  | none => s
  | some (s1, _, _) =>
    let j := match s1.ltm.hist with | (_, _, j) :: _ => j | [] => 0
    (s1.onTbl fun t => { t with cmps := t.cmps.map (fun y => { y with x := y.x + j }) }).comparisons s1.tbl.cmps.length

/-- R154: the standby's view of whether this line leaves room for a decrease of e. -/
def State.eventBase (s : State) (f : Rat) : Bool :=
  match s.ltm.fPrev, speedOf s.ltm.hist with
  | none, _ => true
  | some p, some v => decide (0 < v) && decide (s.tminNs + (s.pitchNum : Rat) / s.pitchDen / v / 64 ≤ f - p)
  | some _, none => false

/-- R292: each lane takes, from its crest, the record that R152 names. -/
def State.standbyLanes (s : State) : State :=
  (List.finRange 40).foldl (fun s n =>
    if !s.laneHasHeads n.val then s
    else
      let q : Fin 64 := ⟨n.val, by omega⟩
      (s.onLane (barLane n) fun x => { x with want := pl (s.lineOf (n.val / 5) + 1) }).standbyTake n s.cvq[q].fill) s

/-- R292, R294: the standby acts on the line event of the next grid line; one missing takes it out of step. -/
def State.lineEvt (s : State) (e : LEvt) : State :=
  let g := pl (s.ltm.g.toNat + 1)
  if lineBefore e.g g then s
  else if lineBefore g e.g then s.leaveStep 3
  else
    let f := s.linkToLtm e.f
    let s1 := s.onTbl fun t => { t with gridSet := true, cmps := t.cmps ++ [{ first := !t.gridSet, f := f, x := s.firePoint }] }
    let s2 := (s1.advanceH).onLtm fun l => { l with g := BitVec.ofNat 48 g }
    let s3 := if e.void then ((s2.fineSteps false).voidGrid g).onLtm fun l => { l with clamp := true }
      else (((s2.allHeads.foldl (fun s p => s.commitHead p.1 p.2) s2).fineSteps (s.eventBase f)).voidStale g).onLtm fun l =>
        { l with fPrev := some f }
    (s3.asShadow fun s => s.jobsAt g).standbyLanes.digestsOut

end Sys2Proof.Machine
end

