-- ==== Sys2Proof/Machine/Lamp.lean ====
section
/-! DEFINITION. Lamps (R263–R276): the chains' frames and readback, a lamp's duty, derating, diagnosis, failure policy and use. -/
namespace Sys2Proof.Machine

/-! ### Chains and lamps -/

/-- R318: the scoreboard of a lamp chain. -/
def chainBoard (c : Nat) : Nat := 68 + c

/-- Channels of chain c. -/
def State.chainChans (s : State) (c : Nat) : Nat := 16 * (s.f (F.LMP_CHAIN_CFG_DEVICES c) + 1)

/-- R264: the frame period in ns; one shorter than the shift time plus 4 µs is used as that sum. -/
def State.frameNs (s : State) (c : Nat) : Nat :=
  let shift := 24 * s.chainChans c * (8 * 2 ^ s.f (F.LMP_CHAIN_CFG_SCLK c)) * 5
  max (s.f (F.LMP_CHAIN_CFG_FRAME c) * 1000) (shift + 4000)

/-- Lamp l changed by `f`. -/
def State.onLamp (s : State) (l : Fin 32) (f : Lamp → Lamp) : State := s.onLmp fun x => { x with lamp := vmod x.lamp l f }

/-- Lamp l is in use. -/
def State.lampUsed (s : State) (l : Nat) : Bool := s.fb (F.LMP_LAMP_CFG_EN l) && decide (s.f (F.LMP_LAMP_CFG_COUNT l) ≠ 0)

/-- The chain of lamp l. -/
def State.lampChain (s : State) (l : Nat) : Nat := s.f (F.LMP_LAMP_CFG_CHAIN l)

/-- R267: lamp l names channel m of its chain; channels beyond the chain are ignored. -/
def State.lampHas (s : State) (l m : Nat) : Bool :=
  let a := s.f (F.LMP_LAMP_CFG_FIRST l)
  decide (a ≤ m) && decide (m < a + s.f (F.LMP_LAMP_CFG_COUNT l)) && decide (m < s.chainChans (s.lampChain l))

/-- R267: the lamp that drives channel m of chain c: the lowest-numbered one that names it. -/
def State.driver (s : State) (c m : Nat) : Option Nat :=
  (upto 32).find? (fun l => s.lampUsed l && s.lampChain l == c && s.lampHas l m)

/-- R267: some channel of lamp l is driven by another lamp. -/
def State.lampOverlap (s : State) (l : Nat) : Bool :=
  s.lampUsed l && (upto (s.chainChans (s.lampChain l))).any (fun m => s.lampHas l m && s.driver (s.lampChain l) m != some l)

/-- R267: lamp l is on. -/
def State.lampOn (s : State) (l : Nat) : Bool :=
  s.lampUsed l && (s.inMode .print || (s.inMode .service && s.sys.svc == some .calPrint)
    || (s.inMode .ready && s.fb (F.LMP_LAMP_CFG_ON_READY l)))

/-- R265, R270, R271: lamp l is failed. -/
def State.lampFailed (s : State) (l : Fin 32) : Bool :=
  s.lmp.lamp[l].failed || s.lmp.lamp[l].hot || (s.lampUsed l.val && s.retired (chainBoard (s.lampChain l.val)))

/-- POLICY of a lamp; 3 is used as 2. -/
def State.lampPolicy (s : State) (l : Nat) : Nat := min 2 (s.f (F.LMP_LAMP_CFG_POLICY l))

/-- R274: a bind is ignored: a lamp of POLICY 1 or 2 is failed. -/
def State.lampBars (s : State) : Bool := (List.finRange 32).any (fun l => s.lampUsed l.val && s.lampFailed l && s.lampPolicy l.val != 0)

/-- R272, R273: a stretch or a light-sensor run is allowed now. -/
def State.lampGap (s : State) : Bool := s.inMode .service || (s.inMode .print && s.allBlank)

/-- R274: what a lamp that becomes failed does to a printing seat. -/
def State.lampFails (s : State) (l : Fin 32) : State :=
  if !s.inMode .print then s
  else match s.lampPolicy l.val with
    | 1 => s.onLamp l fun x => { x with stopAtEnd := true }
    | 2 => s.orderlyStop .haltRamp 0xA
    | _ => s

/-- `f` fails lamp l, or leaves it as it is: POLICY acts once, when it becomes failed. -/
def State.failing (s : State) (l : Fin 32) (f : State → State) : State :=
  let t := f s
  if !s.lampFailed l && t.lampFailed l then t.lampFails l else t

/-! ### Sensors (R269, R273) -/

/-- The sensors that lamps of chain c use. -/
def State.usesPd (s : State) (c i : Nat) : Bool :=
  (upto 32).any (fun l => s.lampUsed l && s.lampChain l == c && !s.fb (F.LMP_LAMP_CFG_KIND l) && s.f (F.LMP_LAMP_SRC_PD l) == i)
def State.usesLs (s : State) (c i : Nat) : Bool :=
  (upto 32).any (fun l => s.lampUsed l && s.lampChain l == c && s.fb (F.LMP_LAMP_CFG_KIND l) && s.f (F.LMP_LAMP_SRC_LS l) == i)
def State.usesTs (s : State) (c i : Nat) : Bool :=
  (upto 32).any (fun l => s.lampUsed l && s.lampChain l == c && s.f (F.LMP_LAMP_CFG_TS l) == i)

/-- R269: a read that is not acknowledged; which of the two buses a sensor sits on is open (a free choice). -/
def State.busError (s : State) : State := (s.bump (if s.freeBit then F.LMP_I2C_ERR_BUS1 else F.LMP_I2C_ERR_BUS0)).drawn

/-- A number of unacknowledged reads. -/
def State.busErrors (s : State) : Nat → State
  | 0 => s
  | n + 1 => s.busError.busErrors n

/-- R269: the readings of a frame of chain c. -/
def State.sense (s : State) (c : Nat) (i : LampIn) : State :=
  let badL := (List.finRange 16).filter (fun k => s.usesLs c k.val && i.ls[k].isNone)
  let badT := (List.finRange 15).filter (fun k => s.usesTs c k.val && i.ts[k].isNone)
  let s1 := s.onLmp fun x => { x with
    pd := Vector.ofFn (fun (k : Fin 16) => if s.usesPd c k.val then i.pd[k].toNat else x.pd[k])
    ls := Vector.ofFn (fun (k : Fin 16) => match s.usesLs c k.val, i.ls[k] with | true, some v => v.map BitVec.toNat | _, _ => x.ls[k])
    lsMiss := Vector.ofFn (fun (k : Fin 16) =>
      if !s.usesLs c k.val then x.lsMiss[k] else if i.ls[k].isNone then min 8 (x.lsMiss[k] + 1) else 0)
    ts := Vector.ofFn (fun (k : Fin 15) => match s.usesTs c k.val, i.ts[k] with | true, some v => v.toInt | _, _ => x.ts[k])
    tsMiss := Vector.ofFn (fun (k : Fin 15) =>
      if !s.usesTs c k.val then x.tsMiss[k] else if i.ts[k].isNone then min 8 (x.tsMiss[k] + 1) else 0) }
  s1.busErrors (badL.length + badT.length)

/-- A gain one frame nearer to a finished run's (R273). -/
def gainStep (cur old new : Nat) : Nat :=
  let lim := cdiv (if old < new then new - old else old - new) 16
  if cur < new then min new (cur + lim) else max new (cur - lim)

/-- R273: the gains of the sensors that chain c's lamps use move towards the last run's. -/
def State.gainsMove (s : State) (c : Nat) : State :=
  s.onLmp fun x => { x with
    gain := Vector.ofFn (fun (k : Fin 16) => match s.usesLs c k.val, x.gainGoal[k] with
      | true, some g => Vector.ofFn (fun (j : Fin 3) => gainStep (x.gain[k][j]) g[j].1 g[j].2)
      | _, _ => x.gain[k]) }

/-- R273: a run found the means `m`: gain = REF ÷ M in Q4.12.  A gain beyond the format, and M = 0, are open (free values). -/
def State.gainFound (s : State) (k : Fin 16) (m : Vector (BitVec 16) 3) : State :=
  let one := fun (j : Fin 3) =>
    let g := s.f (F.LMP_LS_REF_VALUE k.val j.val) * 4096 / m[j].toNat
    if m[j].toNat = 0 ∨ 65535 < g then (s.freeNat + j.val) % 65536 else g
  s.drawn.onLmp fun x => { x with gainGoal := vset x.gainGoal k (some (Vector.ofFn (fun (j : Fin 3) => (x.gain[k][j], one j)))) }

/-- The inspection lamps that name light sensor k. -/
def State.lsLamps (s : State) (k : Nat) : List Nat :=
  (upto 32).filter (fun l => s.lampUsed l && s.fb (F.LMP_LAMP_CFG_KIND l) && s.f (F.LMP_LAMP_SRC_LS l) == k)

/-- R273: a light-sensor run may start or go on. -/
def State.lsRunOk (s : State) (k : Nat) : Bool :=
  s.lampGap && !s.lmp.stopped && !(s.lsLamps k).isEmpty && (s.lsLamps k).all s.lampOn

/-- A light-sensor run on sensor k is under way. -/
def State.lsRuns (s : State) (k : Nat) : Bool := s.chl.running.contains (3, k)

/-- R240, R273, R276: runs that may not go on are abandoned; their units stay due. -/
def State.lsAbandon (s : State) : State :=
  s.onChl fun c => { c with running := c.running.filter (fun u => u.1 != 3 || s.lsRunOk u.2) }

/-! ### The duty (R268, R270) -/

/-- R270: the duty ceiling of lamp l. -/
def State.lampCeil (s : State) (l : Nat) : Nat :=
  let ts := s.f (F.LMP_LAMP_CFG_TS l)
  let d := s.f (F.LMP_LAMP_LAW_DMAX l)
  if ts = 15 then d
  else if 8 ≤ vgetD s.lmp.tsMiss ts 0 then d / 2
  else
    let t := vgetD s.lmp.ts ts 0
    let a := s.fi (F.LMP_LAMP_DER_T_DER l)
    let o := s.fi (F.LMP_LAMP_DER_T_OFF l)
    if o ≤ t then 0 else if t ≤ a ∨ o ≤ a then d else (d * (o - t).toNat) / (o - a).toNat

/-- R268: E of lamp l. -/
def State.lampE (s : State) (l : Nat) : Int :=
  if s.fb (F.LMP_LAMP_CFG_KIND l) then
    let k := s.f (F.LMP_LAMP_SRC_LS l)
    let j := match s.f (F.LMP_LAMP_SRC_COL l) with | 3 => 1 | n => n
    ((vgetD (vgetD s.lmp.ls k (Vector.replicate 3 0)) j 0 * vgetD (vgetD s.lmp.gain k (Vector.replicate 3 0)) j 0 / 4096 : Nat) : Int)
  else
    let k := s.f (F.LMP_LAMP_SRC_PD l)
    ((vgetD s.lmp.pd k 0 : Nat) : Int) - ((vgetD s.lmp.dark k 0 : Nat) : Int)

/-- R268: E_t of lamp l; VREF 0 is used as 1, TGT above TMAX is clamped. -/
def State.lampGoal (s : State) (l : Nat) : Int :=
  let t := min (s.f (F.LMP_LAMP_TGT_TGT l)) (s.f (F.LMP_LAMP_TGT_TMAX l))
  if s.fb (F.LMP_LAMP_CFG_KIND l) then t else (t * s.mot.w / (max 1 (s.f F.LMP_VREF_MMS) * 1000000) : Nat)

/-- R268: a UV lamp's duty is forced to 0 while w is below 1 % of VREF. -/
def State.uvLow (s : State) (l : Nat) : Bool :=
  !s.fb (F.LMP_LAMP_CFG_KIND l) && decide (s.mot.w * 100 < max 1 (s.f F.LMP_VREF_MMS) * 1000000)

/-- R269: the lamp runs open loop after missed reads of its light sensor. -/
def State.lampBlind (s : State) (l : Nat) : Bool :=
  s.fb (F.LMP_LAMP_CFG_KIND l) && decide (8 ≤ vgetD s.lmp.lsMiss (s.f (F.LMP_LAMP_SRC_LS l)) 0)

/-- R268, R269: the duty of an on lamp one frame on; `d` is the duty before, none when it turns on. -/
def State.lampDuty (s : State) (l : Nat) (d : Option Nat) : Nat :=
  let top := s.lampCeil l
  let dmax := s.f (F.LMP_LAMP_LAW_DMAX l)
  if s.uvLow l then 0
  else if s.lampBlind l then min (dmax / 2) top
  else if s.f (F.LMP_LAMP_LAW_KI l) = 0 then min dmax top
  else match d with
    | none => min (dmax / 4) top
    | some d => (clampI 0 top ((d : Int) + tdivI (s.f (F.LMP_LAMP_LAW_KI l) * (s.lampGoal l - s.lampE l)) 65536)).toNat

/-- R270: HOT of a lamp at the reading of its sensor. -/
def State.hotNow (s : State) (l : Fin 32) : Bool :=
  let ts := s.f (F.LMP_LAMP_CFG_TS l.val)
  if ts = 15 then false
  else
    let t := vgetD s.lmp.ts ts 0
    if s.fi (F.LMP_LAMP_DER_T_OFF l.val) ≤ t then true
    else s.lmp.lamp[l].hot && decide (s.fi (F.LMP_LAMP_DER_T_DER l.val) ≤ t)

/-- R270: HOT follows the reading; EVT_LMP_HOT once. -/
def State.hotTick (s : State) (l : Fin 32) : State :=
  let h := s.hotNow l
  let s1 := if h && !s.lmp.lamp[l].hot then s.event 0x0C0 l.val else s
  s1.onLamp l fun x => { x with hot := h }

/-- The duty that lamp l's channels carry: 0 while it is off or failed, CAL_DUTY during a light-sensor run. -/
def State.lampOut (s : State) (l : Fin 32) : Nat :=
  if !s.lampOn l.val || s.lampFailed l then 0
  else if s.fb (F.LMP_LAMP_CFG_KIND l.val) && s.lsRuns (s.f (F.LMP_LAMP_SRC_LS l.val)) then s.f (F.LMP_LAMP_SRC_CAL_DUTY l.val)
  else s.lmp.lamp[l].d

/-- R267, R268, R275: lamp l after a frame of its chain. -/
def State.lampTick (s : State) (l : Fin 32) : State :=
  let s1 := s.failing l (fun s => s.hotTick l)
  let on := s1.lampOn l.val
  let held := s1.fb (F.LMP_LAMP_CFG_KIND l.val) && s1.lsRuns (s1.f (F.LMP_LAMP_SRC_LS l.val))
  let s2 := s1.onLamp l fun x => { x with
    on := on
    d := if !on then 0 else if held && x.on then x.d else s1.lampDuty l.val (if x.on then some x.d else none)
    openLoop := on && s1.lampBlind l.val
    e := s1.lampE l.val
    t := vgetD s1.lmp.ts (s1.f (F.LMP_LAMP_CFG_TS l.val)) 0
    sinceStretch := x.sinceStretch + 1 }
  let used := s2.lampOut l * s2.frameNs (s2.lampChain l.val)
  s2.onLamp l fun x =>
    let n := x.frac + used
    { x with secs := satAdd 32 x.secs (n / 4096000000000), frac := n % 4096000000000 }

/-! ### Status (R264, R265, R271) -/

/-- R265: every status word of a frame carries the marker. -/
def markersOk (n : Nat) (l : List (BitVec 24)) : Bool := (upto n).all (fun m => ((l.getD m 0).toNat / 2 ^ 20) == 6)

/-- R271: the code of a status word about a frame that carried `w`; DIAG_TON 0 is used as 1. -/
def statCode (ton : Nat) (w st : BitVec 24) : Nat :=
  if st.getLsbD 1 then 3
  else if !st.getLsbD 2 || (decide (w.toNat % 4096 < ton) && !w.getLsbD 16) then 1
  else if st.getLsbD 0 then 2 else 0

/-- The code of channel m as it was stored. -/
def LampChain.code (x : LampChain) (m : Nat) : Nat := ((rget x.stat m).toNat + 1) % 4

/-- R271: the codes of a frame, and how many frames running each channel has read OPEN or SHORT. -/
def LampChain.readback (x : LampChain) (ton n : Nat) (l : List (BitVec 24)) : LampChain :=
  let code := fun m => statCode ton (x.before.getD m 0) (l.getD m 0)
  { x with
    stat := (upto n).foldl (fun r m => rset r m (BitVec.ofNat 32 ((code m + 3) % 4))) []
    bad := (upto n).foldl (fun r m => rset r m (if 2 ≤ code m then BitVec.ofNat 32 (min 3 ((rget x.bad m).toNat + 1)) else 0)) [] }

/-- R271: a lamp with a channel OPEN or SHORT in 3 frames is failed. -/
def State.openFail (s : State) (c : Fin 4) (l : Fin 32) : State :=
  let bad := (upto (s.chainChans c.val)).any (fun m => decide ((rget s.lmp.chain[c].bad m).toNat = 3) && s.driver c.val m == some l.val)
  if bad && !s.lmp.lamp[l].failed then
    s.failing l (fun s => (s.onLamp l fun x => { x with failed := true }).event 0x0C1 l.val)
  else s

/-- R271: some channel of lamp l reads UNVERIFIED. -/
def State.lampUnver (s : State) (l : Nat) : Bool :=
  let x := vgetD s.lmp.chain (s.lampChain l) {}
  s.lampUsed l && (upto (s.chainChans (s.lampChain l))).any (fun m => s.lampHas l m && decide (x.code m = 1))

/-- R272: frames for which an on lamp has read UNVERIFIED. -/
def State.unverTick (s : State) (l : Fin 32) : State :=
  s.onLamp l fun x => { x with unver := if x.on && s.lampUnver l.val then x.unver + 1 else 0 }

/-- R272: a stretch is made on lamp l in this frame. -/
def State.stretches (s : State) (l : Fin 32) : Bool :=
  let ivl := max 1 (s.f F.LMP_DIAG_CFG_DIAG_IVL)
  let x := s.lmp.lamp[l]
  s.fb F.LMP_DIAG_CFG_STRETCH_EN && s.lampGap && x.on && decide (ivl ≤ x.unver) && decide (ivl ≤ x.sinceStretch)
    && !(s.fb (F.LMP_LAMP_CFG_KIND l.val) && s.lsRuns (s.f (F.LMP_LAMP_SRC_LS l.val)))

/-- R264: the word channel m of chain c carries. -/
def State.chanWord (s : State) (c m : Nat) : BitVec 24 :=
  let p := match s.driver c m with
    | some l => if h : l < 32 then (s.lampOut ⟨l, h⟩ % 4096, s.stretches ⟨l, h⟩) else (0, false)
    | none => (0, false)
  BitVec.ofNat 24 (p.1 + m % 16 * 4096 + (if p.2 then 65536 else 0))

/-- R264: the bits of a frame as `LMP_SDI` carries them: the highest channel of the last device first, each word from its most
significant bit. -/
def frameBits (ws : List (BitVec 24)) : List Bool := ws.reverse.flatMap (fun w => (upto 24).map (fun i => w.getLsbD (23 - i)))

/-- R266, R288: `LMP_EN` of chain c as its pad carries it; none: high impedance. -/
def State.lampPad (s : State) (c : Fin 4) : Option Bool :=
  if s.pad.held then some s.pad.lampEn[c] else if s.padsOff then none else some (!s.lmp.chain[c].dark)

/-- R24, R266: the chain's outputs may conduct. -/
def State.lampsDriven (s : State) : Bool :=
  (s.inMode .ready || s.inMode .print || s.inMode .service) && !s.lmp.stopped && decide (s.thm.stop ≠ 2)

/-- R264: the frame is latched. -/
def State.latchFrame (s : State) (c : Fin 4) : State :=
  let ws := (upto (s.chainChans c.val)).map (s.chanWord c.val)
  let st := (List.finRange 32).filter (fun l => s.lampChain l.val == c.val && s.stretches l)
  let s1 := s.onChain c fun x => { x with before := x.latched, latched := ws, dark := !s.lampsDriven }
  st.foldl (fun s l => s.onLamp l fun x => { x with sinceStretch := 0 }) s1

/-- The lamps of chain c. -/
def State.lampsOf (s : State) (c : Nat) : List (Fin 32) := (List.finRange 32).filter (fun l => s.lampUsed l.val && s.lampChain l.val == c)

/-- R264, R265: chain c is refreshed. -/
def State.chainRuns (s : State) (c : Fin 4) : Bool :=
  s.fb (F.LMP_CHAIN_CFG_EN c.val) && !s.retired (chainBoard c.val) && !s.sys.cold && !s.inMode .boot

/-- R264–R275: a frame of chain c, but for the upset a failed readback counts. -/
def State.lampFrame (s : State) (c : Fin 4) (i : LampIn) : State :=
  let n := s.chainChans c.val
  let ok := markersOk n i.status
  let s1 := (((s.sense c.val i).gainsMove c.val).lsAbandon).forward (.lamp c i)
  let s2 := if ok then s1.onChain c fun x => x.readback (max 1 (s1.f F.LMP_DIAG_CFG_DIAG_TON)) n i.status
    else s1.bump (F.LMP_CHAIN_ERR_COUNT c.val)
  let s3 := if ok then (s2.lampsOf c.val).foldl (fun s l => s.openFail c l) s2 else s2
  let s4 := (s3.lampsOf c.val).foldl (fun s l => (s.lampTick l).unverTick l) s3
  if ok then s4.latchFrame c else s4

/-- LAMP_FRAME (R264, R265): the frame, and the upset of one whose readback failed. -/
def State.lampFrameIn (s : State) (c : Fin 4) (i : LampIn) : State :=
  if !s.chainRuns c then s
  else
    let s1 := s.lampFrame c i
    if markersOk (s.chainChans c.val) i.status then s1 else s1.upset (chainBoard c.val)

/-- R265: chain c is retired: LMP_EN low, its lamps failed. -/
def State.chainRetires (s : State) (c : Fin 4) : State :=
  let ls := (s.lampsOf c.val).filter (fun l => !s.lampFailed l)
  let s1 := (((s.markRetired (chainBoard c.val)).onChain c fun x => { x with dark := true }).event 0x0C2 c.val)
  ls.foldl (fun s l => s.lampFails l) s1

/-- R276: an island reset of MOT: chains dark, lamps afresh. -/
def State.lampReset (s : State) : State :=
  s.onLmp fun x => { x with
    chain := x.chain.map (fun c => { c with dark := true, latched := [], before := [], stat := [], bad := [] })
    lamp := x.lamp.map (fun l => { secs := l.secs, frac := l.frac })
    gainGoal := Vector.replicate 16 none
    lsMiss := Vector.replicate 16 0
    tsMiss := Vector.replicate 15 0 }

/-- R274: POLICY 1: the stop that waited for the running job's last line. -/
def State.lampStops (s : State) : State :=
  if s.lmp.lamp.any (·.stopAtEnd) then
    (s.onLmp fun x => { x with lamp := x.lamp.map (fun l => { l with stopAtEnd := false }) }).orderlyStop .haltRamp 0xA
  else s

end Sys2Proof.Machine
end

