-- ==== Sys2Proof/Machine/Vis.lean ====
section
/-! DEFINITION. Cameras (R212–R221, R229): ports, triggers, frame groups, sensor settings, raw queues and the pipelines' order.
What a pipeline measures is in Measure.lean. -/
namespace Sys2Proof.Machine

/-! ### Settings of a camera -/

/-- A field of a snapshot of registers. -/
def fldIn (m : RegMap) (f : Fld) : Nat := bits (rget m f.addr).toNat f.lo f.w

/-- Address of camera k's registers. -/
def camBase (k : Nat) : Nat := 0x161000 + k * 0x200

/-- The registers of group VIS_CAM of camera k that are in force. -/
def State.camRegs (s : State) (k : Nat) : RegMap :=
  rfilter (fun a => decide (camBase k ≤ a ∧ a < camBase k + 0x200 ∧ ¬(camBase k + 0x20 ≤ a ∧ a < camBase k + 0x100))) s.regs.act

/-- R212: bits per pixel. -/
def camBits (m : RegMap) (k : Nat) : Nat := match fldIn m (F.VIS_CAM_CFG_DT k) with | 0 => 10 | 2 => 14 | _ => 12

/-- R216: exposures per group. -/
def camExps (m : RegMap) (k : Nat) : Nat := max 1 (fldIn m (F.VIS_CAM_CFG_EXPS k))

/-- R214: the trigger mode; 3 is treated as 0. -/
def camMode (m : RegMap) (k : Nat) : Nat := match fldIn m (F.VIS_CAM_CFG_MODE k) with | 1 => 1 | 2 => 2 | _ => 0

/-- WIDTH and FLINES, clamped. -/
def camWidth (m : RegMap) (k : Nat) : Nat := clampN 64 16384 (fldIn m (F.VIS_CAM_SIZE_WIDTH k))
def camLines (m : RegMap) (k : Nat) : Nat := clampN 16 8192 (fldIn m (F.VIS_CAM_SIZE_FLINES k))

/-- COLSTEP and LINESTEP in 1/4,096; 0 is used as 1. -/
def camColStep (m : RegMap) (k : Nat) : Nat := let v := fldIn m (F.VIS_CAM_STEP_COLSTEP k); if v = 0 then 4096 else v
def camLineStep (m : RegMap) (k : Nat) : Nat := let v := fldIn m (F.VIS_CAM_STEP_LINESTEP k); if v = 0 then 4096 else v

/-- Camera k changed by `f`. -/
def State.onCam (s : State) (k : Fin 8) (f : Cam → Cam) : State := s.onVis fun v => { v with cam := vmod v.cam k f }

/-- R212: the port of a camera, and its scoreboard (R318). -/
def portOf (k : Fin 8) : Fin 4 := ⟨k.val / 2, by omega⟩
def portBoard (p : Fin 4) : Nat := 60 + p.val

/-- R56: the raw and the statistics queue of a port. -/
def rawQ (p : Fin 4) : Fin 64 := ⟨48 + p.val, by omega⟩
def statQ (p : Fin 4) : Fin 64 := ⟨52 + p.val, by omega⟩

/-- R212: camera k is in use: enabled, and not the higher camera of a port whose cameras name one virtual channel. -/
def State.camOn (s : State) (k : Fin 8) : Bool :=
  s.fb (F.VIS_CAM_CFG_EN k.val) && !(k.val % 2 == 1 && s.f (F.VIS_CAM_CFG_VC k.val) == s.f (F.VIS_CAM_CFG_VC (k.val - 1)))

/-- VIS works: clocked, and in a mode that runs it. -/
def State.visOn (s : State) : Bool := !s.thm.gated && !s.sys.cold && !s.inMode .boot && !s.inMode .frozen

/-- R212, R227, R229: port p receives: enabled, not retired, not on a standby. -/
def State.portRx (s : State) (p : Fin 4) : Bool :=
  s.visOn && s.fb (F.VIS_PORT_CFG_EN p.val) && !s.retired (portBoard p) && !s.inMode .standby

/-- R212: the camera of port p that a virtual channel selects. -/
def State.camFor (s : State) (p vc : Fin 4) : Option (Fin 8) :=
  ((List.finRange 8).filter (fun k => portOf k = p ∧ s.camOn k ∧ s.f (F.VIS_CAM_CFG_VC k.val) = vc.val)).head?

/-! ### Statistics records leave (R56, R59, R227) -/

/-- Records waiting for room put into their queues, in order. -/
def State.visPump (s : State) : State :=
  let r := s.pumpList (s.vis.outQ.map (fun p => (p.1, Entry.stats p.2))) []
  r.1.onVis fun v => { v with outQ := r.2.filterMap (fun e => match e.2 with | .stats x => some (e.1, x) | _ => none) }

/-- R226, R227: records delivered, and forwarded by the holder. -/
def State.statOut (s : State) (p : Fin 4) (l : List StatRec) : State :=
  ((l.foldl (fun s r => s.forward (.stats r)) s).onVis fun v => { v with outQ := v.outQ ++ l.map (fun r => (52 + p.val, r)) }).visPump

/-- The header of a group's records (R226). -/
def Grp.rec_ (g : Grp) (k : Nat) (fl : GrpFlags) (lines : Nat) (body : StatBody) : StatRec :=
  { cam := k, flags := fl, frame := g.frame, handle := g.handle, idx0 := g.idx0.getD 0xFFFFFFFFFFFF, lines := min 0xFFFF lines,
    setId := g.set.id, wait := min 0xFFFF (g.wait / 10), rep := g.rep, body := body }

/-- R219, R221, R229: a group that yields one frame record only. -/
def State.frameOnly (s : State) (k : Fin 8) (g : Grp) (fl : GrpFlags) : State :=
  s.statOut (portOf k) [{ g.rec_ k.val fl 0 (.frame (g.sec % 2 ^ 32) g.ns g.g 0 0 0) with last := true }]

/-- R219: a MISSING group is counted; one that was not dropped is an upset (R229). -/
def State.missing (s : State) (k : Fin 8) (g : Grp) (dropped : Bool) : State :=
  let s1 := (s.bump (F.VIS_CAM_CNT0_MISSING k.val)).frameOnly k g { missing := true }
  if dropped then s1 else s1.upset (portBoard (portOf k))

/-! ### Triggers (R214, R215) -/

/-- The job whose lines a print line belongs to, its first line and its repeat length. -/
def State.jobAtLine (s : State) (line : Nat) : Option (BJob × Nat × Nat) :=
  match s.sys.jobs.find? (s.hasLine line) with
  | none => none
  | some bj => some (bj, bj.start.getD 0, match (s.job? bj.handle).bind (·.usable 0) with | some o => dRepeat o.bytes | none => 0)

/-- A group opened under the next frame number, at print line `idx0` (none: unknown). -/
def State.newGrp (s : State) (k : Fin 8) (idx0 : Option Nat) : Grp :=
  let jb := idx0.bind s.jobAtLine
  { frame := (s.vis.cam[k].frame + 1) % 2 ^ 32, idx0 := idx0, g := s.ltm.g.toNat, sec := s.tim.sec, ns := s.tim.ns
    handle := match jb with | some (bj, _, _) => bj.handle | none => 0
    rep := match jb, idx0 with
      | some (_, st, n), some i => (if n = 0 then 0 else lineDist st i / n) % 2 ^ 32
      | _, _ => 0xFFFFFFFF
    cfg := s.camRegs k.val }

/-- R214, mode 2: grid line g is S + k × REPEAT_LINES + OFS + CAM_DLY for a repeat of a bound job. -/
def State.repeatLine (s : State) (g ofs dly : Nat) : Bool :=
  s.sys.jobs.any (fun bj => match bj.start with
    | none => false
    | some st =>
      let rep := match (s.job? bj.handle).bind (·.usable 0) with | some o => dRepeat o.bytes | none => 0
      !lineBefore g (st + ofs + dly) &&
        (let d := lineDist (st + ofs + dly) g
         if rep = 0 then decide (d = 0)
         else decide (d % rep = 0) && (match s.linesOf bj with | some n => decide (d < n) | none => true)))

/-- R214: camera k triggers at grid line g. -/
def State.camDue (s : State) (k : Fin 8) (g : Nat) : Bool :=
  let m := s.camRegs k.val
  let ofs := s.f (F.VIS_CAM_OFS_LINES k.val)
  s.camOn k && (match camMode m k.val with
    | 1 => decide (((g : Int) - ofs) % (max 1 (s.f (F.VIS_CAM_PITCH_LINES k.val)) : Nat) = 0)
    | 2 => s.repeatLine g ofs (s.f (F.VIS_CAM_DLY_LINES k.val))
    | _ => false)

/-- R214: triggers are issued in `PRINT` and in calibration prints. -/
def State.triggersOn (s : State) : Bool :=
  s.visOn && s.tbl.holder && (s.inMode .print || (s.inMode .service && s.sys.svc == some .calPrint))

/-- R214, R215, R229: the trigger of camera k: its pulse, and a group under the next frame number; a retired port yields its
record at once. -/
def State.camTrigger (s : State) (k : Fin 8) : State :=
  let g := s.newGrp k (some ((s.ltm.g.toNat + 2 ^ 48 - s.f (F.VIS_CAM_DLY_LINES k.val)) % 2 ^ 48))
  let s1 := (s.onPad fun p => { p with camTrig := p.camTrig ||| (1#8 <<< k.val) }).onCam k fun c => { c with frame := g.frame }
  if s.retired (portBoard (portOf k)) then
    (s1.bump (F.VIS_CAM_CNT0_MISSING k.val)).frameOnly k g { missing := true, portRet := true }
  else s1.onCam k fun c => { c with grps := c.grps ++ [g] }

/-- R214: the triggers of a line boundary. -/
def State.camTriggers (s : State) : State :=
  if s.triggersOn then (List.finRange 8).foldl (fun s k => if s.camDue k s.ltm.g.toNat then s.camTrigger k else s) s else s

/-- CAMERA_TRIGGER_END (R214). -/
def execCameraTriggerEnd (k : Fin 8) (s : State) : Host.Outcome State Fault Refusal :=
  .next (s.live fun s => s.onPad fun p => { p with camTrig := p.camTrig &&& ~~~(1#8 <<< k.val) })

/-! ### Sensor settings (R217, R218) -/

/-- The exposure times and saturation level committed for camera k. -/
def State.sensNow (s : State) (k : Nat) (id first : Nat) : SensSet :=
  { id := id, first := first, time := Vector.ofFn (fun (e : Fin 3) => max 1 (s.f (F.VIS_SENS_EXP_TIME k e.val)))
    sat := s.f (F.VIS_SENS_CFG_SAT k) }

/-- R218: the settings in force for a frame: the newest set that has begun, else the oldest kept. -/
def State.setFor (s : State) (k : Fin 8) (frame : Nat) : SensSet :=
  let l := s.vis.cam[k].sets
  match l.find? (fun x => !newerF x.first frame), l.getLast? with
  | some x, _ => x
  | none, some x => x
  | none, none => s.sensNow k.val 0 0
where
  /-- Frame number `a` lies after `b` (R5). -/
  newerF (a b : Nat) : Bool := decide ((a + 2 ^ 32 - b) % 2 ^ 32 ≠ 0) && decide ((a + 2 ^ 32 - b) % 2 ^ 32 < 2 ^ 31)

/-- R217: the transactions of camera k's sequence, as bytes after the start: address, register, data. -/
def State.sensSeq (s : State) (k : Nat) : List (List Byte) :=
  let ad := s.f (F.VIS_SENS_CFG_ADDR k)
  let two := s.fb (F.VIS_SENS_CFG_DLEN k)
  ((upto 16).takeWhile (fun i => s.f (F.VIS_SENS_SEQ_REG k i) ≠ 0xFFFF)).map (fun i =>
    let r := s.f (F.VIS_SENS_SEQ_REG k i)
    let d := s.f (F.VIS_SENS_SEQ_DATA k i)
    [BitVec.ofNat 8 (ad * 2), BitVec.ofNat 8 (r / 256), BitVec.ofNat 8 r]
      ++ (if two then [BitVec.ofNat 8 (d / 256), BitVec.ofNat 8 d] else [BitVec.ofNat 8 d]))

/-- R217, R230: a commit of group VIS_SENS takes effect: SET_ID increments and the sequence is to be sent, behind one of the port's
other camera that waits; the settings in force before the first commit stay on record. -/
def State.sensCommit (s : State) (k : Fin 8) (old : SensSet) : State :=
  (s.onCam k fun c => { c with
    setId := (c.setId + 1) % 65536, pend := true, sent := none, sets := if c.sets.isEmpty then [old] else c.sets }).onVis fun v => { v with
    sensQ := vmod v.sensQ (portOf k) (fun l => if l.contains k.val then l else l ++ [k.val]) }

/-- R217: a frame of camera k is arriving. -/
def State.camArriving (s : State) (k : Fin 8) : Bool := s.vis.cam[k].grps.any (·.arriving)

/-- SENSOR_SEQUENCE_SEND (R217, R218), in commit order on the port: the whole sequence, or a write not acknowledged and everything abandoned. -/
def State.sensSend (s : State) (k : Fin 8) (ack : Bool) : State :=
  if !s.visOn || s.inMode .standby || !s.vis.cam[k].pend || s.camArriving k || s.vis.sensQ[portOf k].head? != some k.val then s
  else
    let p := portOf k
    let s1 := s.onVis fun v => { v with i2c := vset v.i2c p (s.sensSeq k.val) }
    if ack then (s1.onCam k fun c => { c with
      pend := false, sent := some (s.sensNow k.val c.setId (s.f (F.VIS_SENS_CFG_LAT k.val))) }).onVis fun v => { v with
      sensQ := vmod v.sensQ p (fun l => l.drop 1) }
    else ((s1.bump (F.VIS_I2C_ERR_NACK p.val)).event 0x090 k.val).upset (portBoard p)

/-! ### Raw queues (R220, R221) -/

/-- Group of camera k under a frame number, changed by `f`. -/
def State.onGrp (s : State) (k : Fin 8) (frame : Nat) (f : Grp → Grp) : State :=
  s.onCam k fun c => { c with grps := c.grps.map (fun g => if g.frame = frame then f g else g) }

/-- The camera and group a segment belongs to. -/
def State.segGrp (s : State) (x : FrameSeg) : Option (Fin 8 × Grp) :=
  if h : x.cam < 8 then
    ((s.vis.cam[x.cam].grps.find? (fun g => g.frame = x.frame))).map (fun g => (⟨x.cam, h⟩, g))
  else none

/-- A segment of a group. -/
def isSeg (k frame : Nat) (e : Entry) : Bool := match e with | .frame x => decide (x.cam = k ∧ x.frame = frame) | _ => false

/-- A group of port p that its pipeline works on still has data to come through the raw queue. -/
def State.rawWanted (s : State) (p : Fin 4) : Bool :=
  (List.finRange 8).any (fun k => decide (portOf k = p) && s.vis.cam[k].grps.any (fun g =>
    g.busy && !g.dropped && (!g.closed || s.cvq[rawQ p].all.any (isSeg k.val g.frame))))

/-- R58, R220: the oldest segment of port p's raw queue leaves it: the pipeline wants data of its group, and takes the segments before
them in their order; or its group was dropped or is gone. -/
def State.segLeaves (s : State) (p : Fin 4) : Bool :=
  match s.qHead (rawQ p) with
  | some (.frame x) => (match s.segGrp x with | some (_, g) => g.dropped || s.rawWanted p | none => true)
  | _ => false

/-- The oldest segment of a raw queue taken: kept with its group, unless that was dropped. -/
def State.visTake1 (s : State) (p : Fin 4) : State :=
  let s1 := (s.qFree (rawQ p)).settle (rawQ p)
  match s.qHead (rawQ p) with
  | some (.frame x) => match s.segGrp x with
    | some (k, g) => if g.dropped then s1 else s1.onGrp k g.frame fun g => { g with data := g.data ++ [x] }
    | none => s1
  | _ => s1

/-- R220, R221: a pipeline takes what its groups have in a raw queue, as far as it has arrived. -/
def State.visTakeN (s : State) (p : Fin 4) : Nat → State
  | 0 => s
  | k + 1 => if s.segLeaves p then (s.visTake1 p).visTakeN p k else s

def State.visTake (s : State) (p : Fin 4) : State := (s.settle (rawQ p)).visTakeN p ((s.cvq[rawQ p].fill) + 1)

/-- A segment of a group put into its raw queue, or the whole group dropped (R221). -/
def State.segPut (s : State) (k : Fin 8) (frame : Nat) (x : FrameSeg) : State :=
  match s.vis.cam[k].grps.find? (fun g => g.frame = frame) with
  | none => s
  | some g =>
    let q := rawQ (portOf k)
    if g.dropped then s
    else if s.qFull q then
      (((s.bump (F.CVQ_DROP_DROP q)).onGrp k frame fun g => { g with dropped := true }).missing k g true).visTake (portOf k)
    else (s.qPut q (.frame x)).visTake (portOf k)

/-- R213: one line of `w` pixels joins its group: every 16 KiB of frame data ends a segment. -/
def State.lineIn (s : State) (k : Fin 8) (frame : Nat) (row : List Nat) (bytes : Nat) : State :=
  match s.vis.cam[k].grps.find? (fun g => g.frame = frame) with
  | none => s
  | some g =>
    let n := (g.fill + bytes) / 16384
    let rest := (g.fill + bytes) % 16384
    let seg := fun (rows : List (List Nat)) => ({ cam := k.val, frame := frame, exp := g.starts - 1, rows := rows } : FrameSeg)
    if n = 0 then s.onGrp k frame fun g => { g with fill := rest, rows := g.rows ++ [row] }
    else
      let s1 := s.onGrp k frame fun g => { g with fill := rest, rows := if rest = 0 then [] else [row] }
      let segs := if rest = 0 then List.replicate (n - 1) (seg []) ++ [seg (g.rows ++ [row])]
        else seg g.rows :: List.replicate (n - 1) (seg [])
      segs.foldl (fun s x => s.segPut k frame x) s1

/-! ### Frames (R213, R215, R216) -/

/-- R213: the open frame of camera k closes; the group closes with its last exposure. -/
def State.frameClose (s : State) (k : Fin 8) : State :=
  match s.vis.cam[k].grps.find? (·.arriving) with
  | none => s
  | some g =>
    let s1 := if g.rows.isEmpty then s
      else s.segPut k g.frame { cam := k.val, frame := g.frame, exp := g.starts - 1, rows := g.rows, last := true }
    let s2 := s1.onGrp k g.frame fun g => { g with
      arriving := false, fill := 0, rows := [], closed := g.closed || decide (camExps g.cfg k.val ≤ g.starts) }
    s2.onCam k fun c => { c with grps := c.grps.filter (fun g => !(g.dropped && g.closed)) }

/-- R216: a frame start for the next group closes one that still lacks exposures. -/
def State.cutGroup (s : State) (k : Fin 8) : State :=
  s.onCam k fun c =>
    let l := c.grps.map (fun g => if decide (0 < g.starts) && !g.closed then { g with closed := true } else g)
    { c with grps := l.filter (fun g => !(g.dropped && g.closed)) }

/-- R218: the set sent last comes into force LAT frames after the first frame start that follows it; until then it carries its LAT. -/
def State.setBegins (s : State) (k : Fin 8) (frame : Nat) : State :=
  s.onCam k fun c => match c.sent with
    | some x => { c with sent := none, sets := ({ x with first := (frame + x.first) % 2 ^ 32 } :: c.sets).take 4 }
    | none => c

/-- A frame start given to a group (R215, R216, R218). -/
def State.startIn (s : State) (k : Fin 8) (frame : Nat) : State :=
  let s1 := s.setBegins k frame
  s1.onGrp k frame fun g => { g with
    set := if g.starts = 0 then s1.setFor k frame else g.set
    starts := g.starts + 1
    arriving := true
    lines := g.lines ++ [0]
    came := s.tim.sec * 1000000000 + s.tim.ns }

/-- R215, R216: a frame start of camera k; `first`: the sensor begins the exposures of a trigger with it. -/
def State.frameStart (s : State) (k : Fin 8) (first : Bool) : State :=
  let s1 := s.frameClose k
  let s2 := if first then s1.cutGroup k else s1
  match s2.vis.cam[k].grps.find? (fun g => !g.closed && decide (g.starts < camExps g.cfg k.val)) with
  | some g => s2.startIn k g.frame
  | none =>
    if camMode (s2.camRegs k.val) k.val = 0 then
      let g := s2.newGrp k none
      (s2.onCam k fun c => { c with frame := g.frame, grps := c.grps ++ [g] }).startIn k g.frame
    else s2.bump (F.VIS_CAM_CNT1_STRAY k.val)

/-- R212: a packet header that cannot be corrected. -/
def State.badHeader (s : State) (p : Fin 4) : State := (s.bump (F.VIS_PORT_ERR_ECC_UNC p.val)).upset (portBoard p)

/-- FRAME_START (R213, R215, R216). -/
def State.frameStartIn (s : State) (p vc : Fin 4) (hdrOk first : Bool) : State :=
  if !s.portRx p then s
  else if !hdrOk then s.badHeader p
  else match s.camFor p vc with
    | some k => s.frameStart k first
    | none => s

/-- FRAME_END (R213). -/
def State.frameEndIn (s : State) (p vc : Fin 4) (hdrOk : Bool) : State :=
  if !s.portRx p then s
  else if !hdrOk then s.badHeader p
  else match s.camFor p vc with
    | some k => s.frameClose k
    | none => s

/-- R212: a checksum of port p that fails is counted, and one upset. -/
def State.badLine (s : State) (p : Fin 4) : State := (s.bump (F.VIS_PORT_ERR_CRC p.val)).upset (portBoard p)

/-- R212, R213: a line of camera k; `pix`: its pixels, as CSI-2 packs them for the data type.  A line outside the frames of a group is
discarded, its checksum judged. -/
def State.lineOfCam (s : State) (k : Fin 8) (crcOk : Bool) (pix : List (BitVec 14)) : State :=
  match s.vis.cam[k].grps.find? (·.arriving) with
  | none => s.when (!crcOk) fun s => s.badLine (portOf k)
  | some g =>
    let p := portOf k
    let w := camWidth g.cfg k.val
    let b := camBits g.cfg k.val
    let y := g.lines.getLastD 0
    let bad := !crcOk || decide (pix.length ≠ w)
    let s1 := if bad then s.badLine p else s
    let s2 := s1.onGrp k g.frame fun g => { g with
      lines := g.lines.dropLast ++ [y + 1]
      errs := if bad then g.errs ++ [(g.starts - 1, y)] else g.errs }
    if g.dropped ∨ camLines g.cfg k.val ≤ y then s2
    else s2.lineIn k g.frame (((pix.map (fun (c : BitVec 14) => c.toNat % 2 ^ b)) ++ List.replicate w 0).take w) (cdiv (w * b) 8)

/-- LINE_PACKET (R212, R213). -/
def State.linePacketIn (s : State) (p vc : Fin 4) (dt : Fin 64) (hdrOk crcOk : Bool) (pix : List (BitVec 14)) : State :=
  if !s.portRx p then s
  else if !hdrOk then s.badHeader p
  else if dt.val = 0x12 then s.when ((s.camFor p vc).isSome && !crcOk) fun s => s.badLine p
  else if dt.val < 0x2B ∨ 0x2D < dt.val then s.bump (F.VIS_PORT_ERR_DT_UNK p.val)
  else match s.camFor p vc with
    | some k => if camBits (s.camRegs k.val) k.val = 10 + 2 * (dt.val - 0x2B) then s.lineOfCam k crcOk pix else s
    | none => s

/-- FRAME_TIMEOUT (R213): FRAME_TMO after its frame start the open frame closes. -/
def State.frameTimeout (s : State) (k : Fin 8) : State := if s.portRx (portOf k) then s.frameClose k else s

/-- TRIGGER_TIMEOUT (R215): the oldest group without a frame start closes as MISSING. -/
def State.triggerTimeout (s : State) (k : Fin 8) : State :=
  if !s.visOn then s
  else match s.vis.cam[k].grps.find? (fun g => decide (g.starts = 0)) with
    | none => s
    | some g => (s.onCam k fun c => { c with grps := c.grps.filter (fun x => x.frame ≠ g.frame) }).missing k g false

/-! ### The pipelines' order (R220) -/

/-- The groups a pipeline may start: all exposures begun, or closed; not yet begun. -/
def State.waiting (s : State) (i : Fin 2) : List (Nat × Fin 8 × Nat) :=
  (List.finRange 8).flatMap (fun k =>
    if bits (s.f F.VIS_PIPE_MAP_PIPE) (portOf k).val 1 = i.val then
      ((s.vis.cam[k].grps.filter (fun g => !g.busy && !g.dropped && decide (0 < g.starts) &&
        (g.closed || decide (camExps g.cfg k.val ≤ g.starts))))).map (fun g => (g.came, k, g.frame))
    else [])

/-- The earliest arrival, the lower camera first among equals. -/
def earliest : List (Nat × Fin 8 × Nat) → Option (Nat × Fin 8 × Nat)
  | [] => none
  | x :: t => match earliest t with
    | some y => if y.1 < x.1 then some y else some x
    | none => some x

/-- A pipeline works on a group. -/
def State.pipeBusy (s : State) (i : Fin 2) : Bool :=
  (List.finRange 8).any (fun k => decide (bits (s.f F.VIS_PIPE_MAP_PIPE) (portOf k).val 1 = i.val) && s.vis.cam[k].grps.any (·.busy))

/-- PIPELINE_GROUP_START (R220). -/
def State.groupStart (s : State) (i : Fin 2) : State :=
  if !s.visOn || s.pipeBusy i then s
  else match earliest (s.waiting i) with
    | none => s
    | some (came, k, frame) =>
      let ns := s.tim.sec * 1000000000 + s.tim.ns - came
      let late := decide (s.f F.VIS_LATE_TMO_US * 1000 < ns)
      ((s.onGrp k frame fun g => { g with busy := true, wait := ns / 1000, late := late }).peak (F.VIS_CAM_WAIT_PEAK k.val)
        (ns / 1000)).visTake (portOf k)

def execPipelineGroupStart (i : Fin 2) (s : State) : Host.Outcome State Fault Refusal := .next (s.live fun s => s.groupStart i)

/-! ### Resets and modes (R230) -/

/-- R230, R35: VIS is reset: groups in flight are lost, each yielding MISSING; settings return to image values. -/
def State.visReset (s : State) : State :=
  let s1 := (List.finRange 8).foldl (fun s k =>
    s.vis.cam[k].grps.foldl (fun s g => if g.dropped then s else s.frameOnly k g { missing := true }) s) s
  s1.onVis fun v => { v with sensQ := Vector.replicate 4 [], cam := v.cam.map (fun c => { c with grps := [], sets := [], pend := false, sent := none, setId := 0 }) }

end Sys2Proof.Machine
end

