-- ==== Sys2Proof/Machine/Measure.lean ====
section
/-! DEFINITION. What a vision pipeline computes (R222–R226): linearisation, merge, demosaic, regions of interest, the Ace check, and
a group's statistics records. -/
namespace Sys2Proof.Machine

/-! ### Pixels (R222, R223) -/

/-- A group as its pipeline sees it: settings, tables, and pixel codes by exposure, line and column. -/
structure View where
  k : Nat := 0
  cfg : RegMap := []
  curve : RegMap := []
  white : RegMap := []
  set : SensSet := {}
  pix : Array (Array (Array Nat)) := #[]
  /-- Lines received by every exposure, at most FLINES. -/
  lines : Nat := 0

/-- R222, stages 1 to 3: a code's linear value. -/
def View.lin (v : View) (c : Nat) : Nat :=
  let u := c * 2 ^ (16 - camBits v.cfg v.k) - fldIn v.cfg (F.VIS_CAM_BLACK_BLACK v.k)
  let i := u / 64
  let f := u % 64
  ((rget v.curve i).toNat * (64 - f) + (rget v.curve (i + 1)).toNat * f + 32) / 64

/-- The linear value of exposure `e` at a pixel. -/
def View.linAt (v : View) (e x y : Nat) : Nat := v.lin (((v.pix.getD e #[]).getD y #[]).getD x 0)

/-- Exposures in the group. -/
def View.exps (v : View) : Nat := v.pix.size

/-- The exposure time of exposure `e`. -/
def View.time (v : View) (e : Nat) : Nat := vgetD v.set.time e 1

/-- Of a list of exposures the one whose time wins under `better`, the first among equals. -/
def View.pickExp (v : View) (better : Nat → Nat → Bool) : List Nat → Option Nat
  | [] => none
  | e :: t => match v.pickExp better t with
    | some f => some (if better (v.time f) (v.time e) then f else e)
    | none => some e

/-- R222, stage 4: the merged value of a pixel, and whether it is saturated. -/
def View.merge (v : View) (x y : Nat) : Nat × Bool :=
  let es := upto v.exps
  let scale := fun (e : Nat) => min (2 ^ 20 - 1) (v.linAt e x y * v.time 0 / v.time e)
  match v.pickExp (fun a b => decide (b < a)) (es.filter (fun e => v.linAt e x y < v.set.sat)) with
  | some e => (if v.exps ≤ 1 then v.linAt e x y else scale e, false)
  | none => match v.pickExp (fun a b => decide (a < b)) es with
    | some e => (if v.exps ≤ 1 then v.linAt e x y else scale e, true)
    | none => (0, false)

/-- The merged value at a pixel, coordinates held inside the frame. -/
def View.m (v : View) (x y : Int) : Int :=
  ((v.merge (edge x (camWidth v.cfg v.k)) (edge y v.lines)).1 : Int)

/-- R223: the colour of a site: 0 red, 1 green, 2 blue. -/
def bayerAt (pat : Nat) (x y : Int) : Nat :=
  let i := (x % 2).toNat + 2 * (y % 2).toNat
  match pat with
  | 1 => [0, 1, 1, 2].getD i 1
  | 2 => [1, 0, 2, 1].getD i 1
  | 3 => [1, 2, 0, 1].getD i 1
  | _ => [2, 1, 1, 0].getD i 1

/-- R223: BAYER; values 5 to 7 are treated as 0. -/
def View.bayer (v : View) : Nat := let b := fldIn v.cfg (F.VIS_CAM_CFG_BAYER v.k); if b < 5 then b else 0

/-- R223: green at a pixel. -/
def View.green (v : View) (x y : Int) : Int :=
  if bayerAt v.bayer x y = 1 then v.m x y
  else
    let c := v.m x y
    let dh := 2 * c - v.m (x - 2) y - v.m (x + 2) y
    let dv := 2 * c - v.m x (y - 2) - v.m x (y + 2)
    let gh : Int := (v.m (x - 1) y - v.m (x + 1) y).natAbs + dh.natAbs
    let gv : Int := (v.m x (y - 1) - v.m x (y + 1)).natAbs + dv.natAbs
    let eh := tdivI (v.m (x - 1) y + v.m (x + 1) y) 2 + tdivI dh 4
    let ev := tdivI (v.m x (y - 1) + v.m x (y + 1)) 2 + tdivI dv 4
    clampI 0 (2 ^ 20 - 1) (if gh < gv then eh else if gv < gh then ev else tdivI (eh + ev) 2)

/-- R223: red or blue at a pixel: the site's green plus the mean of the nearest same-colour neighbours' differences from
green. -/
def View.chroma (v : View) (col : Nat) (x y : Int) : Int :=
  if bayerAt v.bayer x y = col then v.m x y
  else
    let near := ([(-1, 0), (1, 0), (0, -1), (0, 1)] : List (Int × Int)).filter (fun d => bayerAt v.bayer (x + d.1) (y + d.2) = col)
    let diag : List (Int × Int) := [(-1, -1), (1, -1), (-1, 1), (1, 1)]
    let ns := if near.isEmpty then diag else near
    let sum := (ns.map (fun d => v.m (x + d.1) (y + d.2) - v.green (x + d.1) (y + d.2))).foldl (· + ·) 0
    clampI 0 (2 ^ 20 - 1) (v.green x y + tdivI sum ns.length)

/-- R223, R224: channel `ch` (R, G, B, Y) of a pixel; pixels within two of the frame edge reuse the nearest pixel inside. -/
def View.chan (v : View) (ch x y : Nat) : Nat :=
  if v.bayer = 0 then (v.m x y).toNat
  else
    let xi := clampI 2 ((camWidth v.cfg v.k : Int) - 3) x
    let yi := clampI 2 (max 2 ((v.lines : Int) - 3)) y
    let r := v.chroma 0 xi yi
    let g := v.green xi yi
    let b := v.chroma 2 xi yi
    (match ch with | 0 => r | 1 => g | 2 => b | _ => tdivI (77 * r + 150 * g + 29 * b) 256).toNat

/-- The white reference of a column in a channel. -/
def View.whiteAt (v : View) (ch x : Nat) : Nat :=
  let w := fun i => (rget v.white (x * 3 + i)).toNat
  match ch with | 0 => w 0 | 1 => w 1 | 2 => w 2 | _ => (77 * w 0 + 150 * w 1 + 29 * w 2) / 256

/-! ### Density (R224) -/

/-- Bits of a density settled from the top: the largest D with 10^D · v^1024 ≤ w^1024. -/
def densAux (wp vp : Nat) : Nat → Nat → Nat
  | 0, d => d
  | k + 1, d => if vp * 10 ^ (d + 2 ^ k) ≤ wp then densAux wp vp k (d + 2 ^ k) else densAux wp vp k d

/-- R224: D = log10(W ÷ v) in 1/1,024, truncated, 0 to 4,095; v = 0 gives 4,095. -/
def density (w v : Nat) : Nat := if v = 0 then 4095 else if w ≤ v then 0 else densAux (w ^ 1024) (v ^ 1024) 12 0

/-! ### Regions of interest (R224) -/

/-- A region of interest. -/
structure Roi where
  m : Nat := 0
  x : Nat := 0
  w : Nat := 0
  y : Nat := 0
  h : Nat := 0
  kind : Nat := 0
  ch : Nat := 0
  bar : Nat := 0
  stag : Nat := 1
  col0 : Nat := 0
  ncol : Nat := 0
deriving DecidableEq, Repr

/-- ROI m of a snapshot. -/
def roiOf (c : RegMap) (k m : Nat) : Roi :=
  { m := m, x := fldIn c (F.VIS_ROI0_X k m), w := fldIn c (F.VIS_ROI0_W k m), y := fldIn c (F.VIS_ROI1_Y k m)
    h := fldIn c (F.VIS_ROI1_H k m), kind := fldIn c (F.VIS_ROI2_KIND k m), ch := fldIn c (F.VIS_ROI2_CH k m)
    bar := fldIn c (F.VIS_ROI2_BAR k m), stag := max 1 (fldIn c (F.VIS_ROI2_STAGGER k m))
    col0 := fldIn c (F.VIS_ROI3_COL0 k m), ncol := fldIn c (F.VIS_ROI3_NCOL k m) }

/-- The part of a range inside a bound. -/
def inside (a n top : Nat) : List Nat := (upto n).filterMap (fun i => if a + i < top then some (a + i) else none)

/-- Sum of a list. -/
def sumN (l : List Nat) : Nat := l.foldl (· + ·) 0

/-- R224, KIND 1: a patch. -/
def View.patch (v : View) (r : Roi) : Option PatchEnt :=
  let xs := inside r.x r.w (camWidth v.cfg v.k)
  let ys := inside r.y r.h v.lines
  let ps := ys.flatMap (fun y => xs.map (fun x => (x, y)))
  let n := ps.length
  if n = 0 then none
  else
    let vs := ps.map (fun p => v.chan r.ch p.1 p.2)
    let mv := sumN vs / n
    let mw := sumN (xs.map (v.whiteAt r.ch)) / xs.length
    some { roi := r.m, ch := r.ch, v := mv, w := mw, d := density mw mv
           dev := isqrt ((n * sumN (vs.map (fun a => a * a)) - sumN vs * sumN vs) / (n * n))
           pixels := n, sat := (ps.filter (fun p => (v.merge p.1 p.2).2)).length }

/-- R224, KIND 2: the lines of the middle half of a column's band. -/
def Roi.band (r : Roi) (c : Nat) : List Nat :=
  let hb := r.h / r.stag
  let y0 := r.y + (c - r.col0) % r.stag * hb + hb / 4
  (upto (hb / 2)).map (y0 + ·)

/-- R224, KIND 2: the pixels of the window of column c, from its expected position (c − X0) ÷ COLSTEP. -/
def View.window (v : View) (r : Roi) (c : Nat) : List Nat :=
  let st := camColStep v.cfg v.k
  let xe := tdivI (((c : Int) - sgn 18 (fldIn v.cfg (F.VIS_CAM_X0_X0 v.k))) * 65536) st
  let hw : Int := (r.stag * 65536 / st : Nat)
  (upto (camWidth v.cfg v.k)).filter (fun x => 2 * (16 * (x : Int) - xe).natAbs ≤ hw.toNat)

/-- R224, KIND 2: the entry of a column before OUT_SUSPECT; the offset of the centroid, whose weights the rule does not give, is a
free value. -/
def View.stripEnt (v : View) (r : Roi) (c free : Nat) : StripEnt :=
  let ys := r.band c
  let xs := v.window r c
  let n := ys.length * xs.length
  if n = 0 ∨ ys.any (fun y => v.lines ≤ y) then { clipped := true }
  else
    let mv := sumN (ys.flatMap (fun y => xs.map (fun x => v.chan r.ch x y))) / n
    let mw := sumN (xs.map (v.whiteAt r.ch)) / xs.length
    { d := density mw mv, ofs := sgn 12 free }

/-- Insertion into an ascending list. -/
def insertN (a : Nat) : List Nat → List Nat
  | [] => [a]
  | b :: t => if a ≤ b then a :: b :: t else b :: insertN a t

/-- A median; with an even count the lower of the two middle values. -/
def medianN (l : List Nat) : Nat := (l.foldl (fun acc a => insertN a acc) []).getD ((l.length - 1) / 2) 0

/-- R224: a strip's entries with OUT_SUSPECT: D below OUT_FRAC ÷ 256 of the band's median. -/
def View.strip (v : View) (r : Roi) (outFrac free : Nat) : List StripEnt :=
  let es := (upto r.ncol).map (fun i => v.stripEnt r (r.col0 + i) (free + 4096 * i))
  let med := fun (b : Nat) => medianN (((es.zipIdx).filter (fun p => p.2 % r.stag = b ∧ !p.1.clipped)).map (·.1.d))
  let meds := (upto r.stag).map med
  (es.zipIdx).map (fun p =>
    if p.1.clipped then p.1 else { p.1 with suspect := decide (p.1.d * 256 < outFrac * meds.getD (p.2 % r.stag) 0) })

/-- R224, KIND 3: a registration mark. -/
def View.mark (v : View) (r : Roi) (thr : Nat) : Option MarkEnt :=
  let xs := inside r.x r.w (camWidth v.cfg v.k)
  let ys := inside r.y r.h v.lines
  if xs.isEmpty ∨ ys.isEmpty then none
  else
    let ps := (ys.flatMap (fun y => xs.map (fun x => (x, y)))).filter (fun p =>
      thr ≤ density (v.whiteAt r.ch p.1) (v.chan r.ch p.1 p.2))
    let n := ps.length
    if n = 0 then some { roi := r.m, bar := r.bar }
    else some { roi := r.m, bar := r.bar, pixels := n
                dx := tdivI ((16 * sumN (ps.map (·.1)) : Nat) : Int) n - (16 * r.x + 8 * r.w : Nat)
                dy := tdivI ((16 * sumN (ps.map (·.2)) : Nat) : Int) n - (16 * r.y + 8 * r.h : Nat) }

/-! ### The Ace check (R225) -/

/-- What the Ace check compares. -/
structure AceIn where
  o : OBytes
  /-- First job line of the repeat, the length of a repeat, and the job line of frame line 0. -/
  start : Int
  rep : Nat
  idx0 : Int
  bars : Nat
  thr : Nat
  search : Nat
  maxMis : Nat
  /-- Lines with a checksum error. -/
  bad : List Nat

/-- R225: the printed column and job line under a camera pixel. -/
def View.colAt (v : View) (x : Int) : Int :=
  ((x - sgn 18 (fldIn v.cfg (F.VIS_CAM_X0_X0 v.k))) * (camColStep v.cfg v.k : Int)) / 4096
def View.lineAt (v : View) (i : AceIn) (y : Int) : Int := i.idx0 + (y * (camLineStep v.cfg v.k : Int)) / 4096

/-- The Ace bit of some plane in BARS over a printed column and job line, whichever repeat's Ace layer covers it (R108). -/
def AceIn.expected (i : AceIn) (c l : Int) : Bool :=
  decide (0 ≤ l) && (aceStarts i.o i.rep l.toNat).any (fun st =>
    (upto 8).any (fun b => decide (bits i.bars b 1 = 1) && decide (bits (aMask i.o) b 1 = 1) &&
      (let u := c - aX i.o
       let w := l - st - aY i.o
       decide (0 ≤ u ∧ u < lWidth i.o ∧ 0 ≤ w ∧ w < lHeight i.o) &&
         decide (bits (byteAt i.o (64 + (acePlane i.o b * lHeight i.o + w.toNat) * lStride i.o + u.toNat / 8)) (7 - u.toNat % 8) 1 = 1))))

/-- Camera pixels of check window `w`, and whether it lies, with its search margin, within the lines and columns received. -/
def View.aceWin (v : View) (i : AceIn) (w : Nat) : List (Nat × Nat) × Bool :=
  let p := aWindow i.o w
  let c0 := aX i.o + p.1
  let l0 := i.start + aY i.o + p.2.1
  let xs := (upto (camWidth v.cfg v.k)).filter (fun (x : Nat) => c0 ≤ v.colAt x ∧ v.colAt x < c0 + p.2.2.1)
  let ys := (upto v.lines).filter (fun (y : Nat) => l0 ≤ v.lineAt i y ∧ v.lineAt i y < l0 + p.2.2.2)
  let ok := match xs.head?, xs.getLast?, ys.head?, ys.getLast? with
    | some xa, some xb, some ya, some yb =>
      decide (i.search ≤ xa) && decide (xb + i.search < camWidth v.cfg v.k) && decide (i.search ≤ ya) && decide (yb + i.search < v.lines)
        && decide (v.lineAt i (ya - 1) < l0) && decide (l0 + p.2.2.2 ≤ v.lineAt i (yb + 1))
        && decide (v.colAt ((xa : Int) - 1) < c0) && decide (c0 + p.2.2.1 ≤ v.colAt (xb + 1))
    | _, _, _, _ => false
  (ys.flatMap (fun y => xs.map (fun x => (x, y))), ok)

/-- R225: mismatches of a window at a shift; every pixel of an errored line counts (R219). -/
def View.mismatches (v : View) (i : AceIn) (ps : List (Nat × Nat)) (dx dy : Int) : Nat :=
  (ps.filter (fun p =>
    let x := ((p.1 : Int) + dx).toNat
    let y := ((p.2 : Int) + dy).toNat
    i.bad.contains y ||
      (decide (i.thr ≤ density (v.whiteAt 3 x) (v.chan 3 x y)) != i.expected (v.colAt p.1) (v.lineAt i p.2)))).length

/-- The shifts searched, in order. -/
def shifts (n : Nat) : List (Int × Int) :=
  let r := (upto (2 * n + 1)).map (fun (a : Nat) => (a : Int) - n)
  r.flatMap (fun dy => r.map (fun dx => (dx, dy)))

/-- The lowest count over the shifts, with its shift. -/
def lowestMis (l : List (Nat × Int × Int)) : Nat × Int × Int :=
  match l with
  | [] => (0, 0, 0)
  | a :: t => t.foldl (fun b c => if c.1 < b.1 then c else b) a

/-- R225, R226: the verdict on a repeat. -/
def View.aceVerdict (v : View) (i : AceIn) : StatBody :=
  let used := (upto 2).filter (fun w => (aWindow i.o w).2.2.1 ≠ 0)
  let rs := (upto 2).map (fun w =>
    if used.contains w then
      let p := v.aceWin i w
      let l := lowestMis ((shifts i.search).map (fun d => (v.mismatches i p.1 d.1 d.2, d.1, d.2)))
      (p.2, l, p.1.length)
    else (true, (0, 0, 0), 0))
  let g := fun (w : Nat) => rs.getD w (true, (0, 0, 0), 0)
  let b := used.headD 0
  let ok := used.all (fun w => (g w).1)
  let fail := used.any (fun w => i.maxMis * (g w).2.2 < (g w).2.1.1 * 4096)
  .ace (if !ok then 2 else if fail then 1 else 0) used.length ((g 0).2.1.1, (g 1).2.1.1) ((g 0).2.2, (g 1).2.2) (g b).2.1.2.1 (g b).2.1.2.2

/-! ### A group's records (R219, R226) -/

/-- R219: the flags of a group that a pipeline has processed. -/
def Grp.flags (g : Grp) (k : Nat) : GrpFlags :=
  let n := (g.lines.foldl min (g.lines.headD 0))
  { short := decide (n < camLines g.cfg k) || decide (g.starts < camExps g.cfg k)
    long := g.lines.any (fun l => decide (camLines g.cfg k < l))
    crcErr := !g.errs.isEmpty
    late := g.late }

/-- What the pipeline works on. -/
def State.viewOf (s : State) (k : Fin 8) (g : Grp) : View :=
  { k := k.val, cfg := g.cfg, curve := s.vis.cam[k].curve, white := s.vis.cam[k].white, set := g.set
    lines := min (camLines g.cfg k.val) (g.lines.foldl min (g.lines.headD 0))
    pix := ((upto g.starts).map (fun e =>
      ((((g.data.filter (fun x => x.exp = e)).flatMap (·.rows)).map List.toArray).toArray))).toArray }

/-- Entries of a list in records of at most n. -/
def groupsOf {α : Type} (n : Nat) : Nat → List α → List (List α)
  | 0, _ => []
  | k + 1, l => if l.isEmpty then [] else l.take n :: groupsOf n k (l.drop n)

/-- R224, R226: the strip records of a ROI. -/
def State.stripRecs (s : State) (v : View) (r : Roi) : List (Bool × StatBody) :=
  let es := v.strip r (s.f F.VIS_MEAS_CFG_OUT_FRAC) s.freeNat
  let ok := decide (r.y + r.h ≤ v.lines)
  (groupsOf 240 (es.length + 1) es).zipIdx.map (fun p => (ok, StatBody.strip r.m r.bar (r.col0 + 240 * p.2) p.1))

/-- R225: the Ace check of a group, where one is due: camera CAM in mode 2. -/
def State.aceOf (s : State) (k : Fin 8) (g : Grp) (v : View) (fl : GrpFlags) : Option StatBody :=
  if s.f F.VIS_ACE_CFG_CAM = k.val ∧ camMode g.cfg k.val = 2 then
    let none_ := StatBody.ace 2 0 (0, 0) (0, 0) 0 0
    if !s.fb F.VIS_ACE_CFG_EN || fl.late || fl.short then some none_
    else match s.job? g.handle, g.idx0 with
      | some j, some i =>
        match s.sys.jobs.find? (fun b => b.handle = g.handle), j.usable 0 with
        | some bj, some d =>
          match bj.start, (if dAce d.bytes = 0xFFFF then none else j.usable (dAce d.bytes)) with
          | some st, some o =>
            some (v.aceVerdict { o := o.bytes, start := (g.rep * dRepeat d.bytes : Nat), rep := dRepeat d.bytes, idx0 := lineDist st i
                                 bars := s.f F.VIS_ACE_CFG_BARS, thr := s.f F.VIS_ACE_CFG_THR, search := s.f F.VIS_ACE_CFG_SEARCH
                                 maxMis := s.f F.VIS_ACE_MIS_MAXMIS, bad := g.errs.map (·.2) })
          | _, _ => some none_
        | _, _ => some none_
      | _, _ => some none_
  else none

/-- R226: the bodies of a group's records after the frame record, each with STRIP_OK. -/
def State.bodies (s : State) (k : Fin 8) (g : Grp) (v : View) (fl : GrpFlags) : List (Bool × StatBody) :=
  let rois := (upto 16).map (roiOf g.cfg k.val)
  let ps := (rois.filter (·.kind = 1)).filterMap v.patch
  let ms := (rois.filter (·.kind = 3)).filterMap (fun r => v.mark r (s.f F.VIS_MEAS_CFG_MARK_THR))
  (if ps.isEmpty then [] else [(false, .patch ps)])
    ++ (rois.filter (fun r => r.kind = 2 ∧ r.x < camWidth g.cfg k.val ∧ r.y < camLines g.cfg k.val)).flatMap (s.stripRecs v)
    ++ (if ms.isEmpty then [] else [(false, .mark ms)])
    ++ (match s.aceOf k g v fl with | some b => [(false, b)] | none => [])

/-- R226: a group's records in order, numbered, the last marked LAST. -/
def State.groupRecs (s : State) (k : Fin 8) (g : Grp) : List StatRec :=
  let fl := g.flags k.val
  let v := s.viewOf k g
  let sat := sumN ((upto v.lines).map (fun y => ((upto (camWidth g.cfg k.val)).filter (fun x => (v.merge x y).2)).length))
  let head := (false, StatBody.frame (g.sec % 2 ^ 32) g.ns g.g g.starts sat g.errs.length)
  let l := head :: s.bodies k g v fl
  (l.zipIdx).map (fun p => { g.rec_ k.val fl (g.lines.foldl min (g.lines.headD 0)) p.1.2 with
    seq := p.2, stripOk := p.1.1, last := decide (p.2 + 1 = l.length) })

/-! ### The bytes of a record (R226) -/

/-- A signed number in n bytes. -/
def leInt (n : Nat) (v : Int) : List Byte := leBytes n (twos (8 * n) v)

/-- R226: FLAGS of a record. -/
def statFlags (r : StatRec) : Nat :=
  bitAt 0 r.flags.missing + bitAt 1 r.flags.late + bitAt 2 r.flags.short + bitAt 3 r.flags.long + bitAt 4 r.flags.crcErr
    + bitAt 5 r.flags.portRet + bitAt 6 r.last + bitAt 7 r.stripOk

/-- R226: KIND and NENT. -/
def statKind : StatBody → Nat | .frame .. => 0 | .patch _ => 1 | .strip .. => 2 | .mark _ => 3 | .ace .. => 4
def statNent : StatBody → Nat | .patch l => l.length | .strip _ _ _ l => l.length | .mark l => l.length | _ => 0

/-- R226: the payload from byte 32 on. -/
def statPayload : StatBody → List Byte
  | .frame sec ns g exps sat errs =>
    leBytes 4 sec ++ leBytes 4 ns ++ leBytes 6 g ++ leBytes 1 exps ++ leBytes 1 0 ++ leBytes 4 sat ++ leBytes 2 errs
  | .patch l => l.flatMap (fun e => leBytes 1 e.roi ++ leBytes 3 e.ch ++ leBytes 4 e.v ++ leBytes 4 e.w ++ leBytes 4 e.d ++ leBytes 4 e.dev
      ++ leBytes 4 e.pixels ++ leBytes 8 e.sat)
  | .strip roi bar col0 l => leBytes 1 roi ++ leBytes 1 bar ++ leBytes 6 col0 ++ l.flatMap (fun e =>
      leBytes 4 (e.d % 4096 + twos 12 e.ofs * 4096 + bitAt 24 e.suspect + bitAt 25 e.clipped))
  | .mark l => l.flatMap (fun e => leBytes 1 e.roi ++ leBytes 3 e.bar ++ leInt 4 e.dx ++ leInt 4 e.dy ++ leBytes 4 e.pixels)
  | .ace v w mis pix dx dy => leBytes 1 v ++ leBytes 3 w ++ leBytes 4 mis.1 ++ leBytes 4 mis.2 ++ leBytes 4 pix.1 ++ leBytes 4 pix.2
      ++ leInt 1 dx ++ leInt 1 dy

/-- R226: a record as its 1,024 bytes, little-endian. -/
def statBytes (r : StatRec) : List Byte :=
  fit 1024 (leBytes 1 (statKind r.body) ++ leBytes 1 r.cam ++ leBytes 2 (statFlags r) ++ leBytes 4 r.frame ++ leBytes 2 r.handle.toNat
    ++ leBytes 2 r.seq ++ leBytes 6 r.idx0 ++ leBytes 2 r.lines ++ leBytes 2 r.setId ++ leBytes 2 r.wait ++ leBytes 4 r.rep
    ++ leBytes 2 (statNent r.body) ++ leBytes 2 0 ++ statPayload r.body)

/-- R219: the counters of a group's flags. -/
def State.countFlags (s : State) (k : Fin 8) (fl : GrpFlags) : State :=
  let n := k.val
  let s1 := if fl.late then s.bump (F.VIS_CAM_CNT0_LATE n) else s
  let s2 := if fl.short then s1.bump (F.VIS_CAM_CNT1_SHORT n) else s1
  let s3 := if fl.long then s2.bump (F.VIS_CAM_CNT1_LONG n) else s2
  if fl.crcErr then s3.bump (F.VIS_CAM_CNT1_CRCERR n) else s3

/-- The group a pipeline works on, once all its data has been taken from the raw queue. -/
def State.pipeGroup (s : State) (i : Fin 2) : Option (Fin 8 × Grp) :=
  (List.finRange 8).findSome? (fun k =>
    if bits (s.f F.VIS_PIPE_MAP_PIPE) (portOf k).val 1 = i.val then
      (s.vis.cam[k].grps.find? (fun g => g.busy && g.closed && !g.dropped)).map (fun g => (k, g))
    else none)

end Sys2Proof.Machine
end

