-- ==== Sys2Proof/Machine/Chl.lean ====
section
/-! DEFINITION. The colour hold unit and calibration runs (R231–R244, R325), and what an Ace verdict does (R109). -/
namespace Sys2Proof.Machine

/-! ### Ace verdicts (R109) -/

/-- R109: a failure: counted, the reject pulse, and the stop request 0x6 once the run reaches STOP_RUN; a standby takes the holder's
(R290). -/
def State.aceFail (s : State) (rep : Nat) : State :=
  let s1 := (((s.event 0x042 rep).bump F.LYR_ACE_FAIL_CNT_COUNT).setF F.LYR_ACE_LAST_REPEAT rep).when (s.fb F.LYR_ACE_POLICY_REJECT_EN)
    fun s => s.onPad fun p => { p with reject := true }
  let s2 := s1.onBar 0 fun x => { x with aceRun := x.aceRun + 1 }
  let n := s.f F.LYR_ACE_POLICY_STOP_RUN
  if n ≠ 0 ∧ s2.bars[0].aceRun = n then
    let s3 := s2.event 0x044 n
    if s3.inMode .standby || s3.sys.unseen then s3 else (s3.stopReq { code := 6 }).1
  else s2

/-- R109: the action on a verdict: 0 PASS, 1 FAIL, 2 none. -/
def State.aceAct (s : State) (rep v : Nat) : State :=
  match v with
  | 0 => s.onBar 0 fun x => { x with aceRun := 0 }
  | 1 => s.aceFail rep
  | _ =>
    let s1 := s.event 0x043 rep
    if s.fb F.LYR_ACE_POLICY_UNCHK_FAIL then s1.aceFail rep else s1

/-- R75, R109: a verdict with a stale handle is counted and discarded. -/
def State.aceVerdict (s : State) (h : BitVec 16) (rep v : Nat) : State :=
  if (s.job? h).isNone then s.stale else s.aceAct rep v

/-- ACE_VERDICT (R109). -/
def execAceVerdict (h : BitVec 16) (rep : Word) (v : Fin 3) (s : State) : Host.Outcome State Fault Refusal :=
  .next (s.live fun s => s.asShadow fun s => s.aceVerdict h rep.toNat v.val)

/-- ACE_REJECT_PULSE_END (R109). -/
def execAceRejectPulseEnd (s : State) : Host.Outcome State Fault Refusal :=
  .next (s.live fun s => s.onPad fun p => { p with reject := false })

/-! ### The control law (R235) -/

/-- R235: an accumulator (ē in 1/256, n) after a sample S ÷ c. -/
def accStep (e : Int) (n : Nat) (sum : Int) (c : Nat) : Int × Nat := (e + tdivI (256 * sum - c * e) (c * (n + 1) : Nat), n + 1)

/-- R235: Δ of an act. -/
def actDelta (k db step : Nat) (e : Int) : Int :=
  let d : Int := if e.natAbs ≤ 256 * db then 0 else if 0 < e then e - 256 * db else e + 256 * db
  clampI (-step) step (tdivI (k * d) 65536)

/-- R235: N. -/
def State.navg (s : State) : Nat := 2 ^ min 3 (s.f F.CHL_NOZ_LAW_NAVG_LOG2)

/-- R231: acts are allowed. -/
def State.acting (s : State) : Bool :=
  let p := s.inMode .print || (s.inMode .standby && s.sys.shadow == .print)
  let v := s.inMode .service || (s.inMode .standby && s.sys.shadow == .service)
  (p && s.anyBound) || (v && s.sys.svc == some .calPrint && s.fb F.CHL_CTL_SVC)

/-- R231, R237: the unit's own acts take effect: never on a standby. -/
def State.ownActs (s : State) : Bool := s.acting && !s.inMode .standby

/-! ### Settling (R236) -/

/-- The print line index bar b is composing. -/
def State.composing (s : State) (b : Fin 8) : Nat :=
  match s.bars[b].mid, s.nextPrint b with
  | some m, _ => m.line
  | none, some n => n
  | none, none => s.lineOf b.val

/-- R236: a block of bar b has settled: neither dirty nor about to be. -/
def State.blkClean (s : State) (b : Fin 8) (k : Nat) : Bool :=
  let x := s.bars[b]
  !x.dirty.contains k && !x.holdQ.any (fun e => e.1 / 1024 == k) && !x.winQ.any (fun e => e.1 / 1024 == k)

/-- R236: the knots in force of bar b equal the active ones. -/
def State.toneLevel (s : State) (b : Fin 8) : Bool :=
  s.bars[b].knotQ.isEmpty && (List.finRange 17).all (fun k => decide (s.bars[b].oNow[k] = s.fi (F.TON_OFS_OFS b.val k.val)))

/-- R236: what has settled on bar b takes its settle line. -/
def State.settleBar (s : State) (b : Fin 8) : State :=
  let n := s.composing b
  let ready := (s.chl.blkWait[b]).filter (s.blkClean b)
  let tone := s.chl.toneWait[b] && s.toneLevel b
  s.onChl fun c => { c with
    blkWait := vmod c.blkWait b (fun l => l.filter (fun k => !ready.contains k))
    blkSettle := vmod c.blkSettle b (fun l => ready.map (fun k => (k, n)) ++ l.filter (fun e => !ready.contains e.1))
    toneWait := vset c.toneWait b (c.toneWait[b] && !tone)
    toneSettle := if tone then vset c.toneSettle b n else c.toneSettle }

/-- R236: every bar's blocks and knots. -/
def State.settleAll (s : State) : State := (List.finRange 8).foldl State.settleBar s

/-- R236: registration: at a grid line at which e = e_t on every head of the bar. -/
def State.settleReg (s : State) : State :=
  (List.finRange 8).foldl (fun s b =>
    let hs := s.headsOf b.val
    let even := decide (s.chl.trim[b] = s.ltm.trim[b]) &&
      hs.all (fun h => decide (s.eNow b h.h = s.fineGoal b h.h))
    if s.chl.regWait[b] && even then
      s.onChl fun c => { c with
        regWait := vset c.regWait b false
        regSettle := vset c.regSettle b (pl (s.lineOf b.val + (hs.map (fun h => s.headDly b.val h.h)).foldl max 0)) }
    else s) s

/-- R237: C[b] reaches line timing at the next grid line, and is forwarded with it. -/
def State.trimsOn (s : State) : State :=
  (List.finRange 8).foldl (fun s b =>
    if s.ltm.trim[b] = s.chl.trim[b] then s
    else (s.onLtm fun l => { l with trim := vset l.trim b s.chl.trim[b] }).forward (.hold (.trim b.val s.chl.trim[b]) s.ltm.g.toNat)) s

/-- R236: the settle line of a column's block; none while it has not settled. -/
def State.colSettle (s : State) (b : Fin 8) (c : Nat) : Option Nat :=
  if s.chl.blkWait[b].contains (c / 1024) then none
  else some (((s.chl.blkSettle[b].find? (fun e => e.1 = c / 1024)).map (·.2)).getD 0)

/-! ### Which ROI feeds what (R231) -/

/-- R231: the role of ROI m of camera k; 0 when its KIND does not match. -/
def State.roiRole (s : State) (k m : Nat) : Nat :=
  let r := s.f (F.CHL_ROI_MAP_ROLE k m)
  let kind := fldIn (s.camRegs k) (F.VIS_ROI2_KIND k m)
  if (r = 1 ∧ kind = 2) ∨ (r = 2 ∧ kind = 1) ∨ (r = 3 ∧ kind = 3) then r else 0

/-- The knot of a tone patch. -/
def State.roiKnot (s : State) (k m : Nat) : Nat := s.f (F.CHL_ROI_MAP_KNOT k m)

/-- R231: the print line of a sample. -/
def State.sampleLine (s : State) (k m idx0 : Nat) : Nat :=
  let c := s.camRegs k
  pl (idx0 + fldIn c (F.VIS_ROI1_Y k m) * camLineStep c k / 4096)

/-- Camera k feeds column c of bar b; its knot; its trim. -/
def State.feedsCol (s : State) (k : Fin 8) (b c : Nat) : Bool :=
  s.camOn k && (upto 16).any (fun m => let r := roiOf (s.camRegs k.val) k.val m
    decide (s.roiRole k.val m = 1 ∧ r.bar = b ∧ r.col0 ≤ c ∧ c < r.col0 + r.ncol))
def State.feedsKnot (s : State) (k : Fin 8) (b i : Nat) : Bool :=
  s.camOn k && (upto 16).any (fun m => decide (s.roiRole k.val m = 2 ∧ (roiOf (s.camRegs k.val) k.val m).bar = b ∧ s.roiKnot k.val m = i))
def State.feedsTrim (s : State) (k : Fin 8) (b : Nat) : Bool :=
  s.camOn k && (upto 16).any (fun m => decide (s.roiRole k.val m = 3 ∧ (roiOf (s.camRegs k.val) k.val m).bar = b))

/-- Only camera k feeds it. -/
def onlyBy (k : Fin 8) (p : Fin 8 → Bool) : Bool := p k && (List.finRange 8).all (fun j => j == k || !p j)

/-! ### Blind cameras (R239) -/

/-- R239: the accumulators that only camera k feeds are cleared. -/
def State.clearFed (s : State) (k : Fin 8) : State :=
  let keep := fun (b : Fin 8) (m : RegMap) => rfilter (fun c => !onlyBy k (fun j => s.feedsCol j b.val c)) m
  s.onChl fun c => { c with
    colE := Vector.ofFn (fun (b : Fin 8) => keep b c.colE[b])
    colN := Vector.ofFn (fun (b : Fin 8) => keep b c.colN[b])
    run := Vector.ofFn (fun (b : Fin 8) => keep b c.run[b])
    knot := Vector.ofFn (fun (b : Fin 8) => Vector.ofFn (fun (i : Fin 17) =>
      if onlyBy k (fun j => s.feedsKnot j b.val i.val) then (0, 0) else c.knot[b][i]))
    trimAcc := Vector.ofFn (fun (b : Fin 8) => if onlyBy k (fun j => s.feedsTrim j b.val) then (0, 0) else c.trimAcc[b]) }

/-- R239: camera k becomes blind. -/
def State.goBlind (s : State) (k : Fin 8) : State :=
  if s.chl.blind.getLsbD k.val then s
  else ((s.onChl fun c => { c with blind := c.blind ||| (1#8 <<< k.val) }).event 0x0A1 (k.val + 256)).clearFed k

/-- R239: the first usable group ends a blind spell. -/
def State.seesAgain (s : State) (k : Fin 8) : State :=
  if s.chl.blind.getLsbD k.val && !s.retired (portBoard (portOf k)) then
    (s.onChl fun c => { c with blind := c.blind &&& ~~~(1#8 <<< k.val) }).event 0x0A1 k.val
  else s

/-- BLIND_TIMEOUT (R239): CHL_BLIND_TMO without a usable group, in `PRINT`, or while a standby's holder prints. -/
def execBlindTimeout (k : Fin 8) (s : State) : Host.Outcome State Fault Refusal :=
  .next (s.live fun s => s.when (decide (s.f F.CHL_BLIND_TMO_MS ≠ 0) &&
    (s.inMode .print || (s.inMode .standby && s.sys.shadow == .print)) && s.camOn k) fun s => s.goBlind k)

/-! ### Columns (R232, R235, R238) -/

/-- A strip entry with its column. -/
structure ColEnt where
  col : Nat
  e : StripEnt
deriving DecidableEq, Repr

/-- The strip entries of one ROI in a group's records. -/
def stripOfRoi (m : Nat) (l : List StatRec) : List ColEnt :=
  l.flatMap (fun r => match r.body with
    | .strip roi _ col0 es => if roi = m then es.zipIdx.map (fun p => { col := col0 + p.2, e := p.1 }) else []
    | _ => [])

/-- R232: M of a column's band. -/
def bandMedian (stag col0 : Nat) (l : List ColEnt) (c : Nat) : Nat :=
  medianN ((l.filter (fun x => !x.e.clipped && !x.e.suspect && decide ((x.col - col0) % stag = (c - col0) % stag))).map (·.e.d))

/-- The bound on a target about its calibrated value. -/
def boundI (mid lim lo hi x : Int) : Int := clampI lo hi (clampI (mid - lim) (mid + lim) x)

/-- R235, R237: the act on column c with mean ē. -/
def State.colAct (s : State) (b : Fin 8) (c : Nat) (e : Int) : State :=
  let w := rget s.bars[b].tgt c
  let d := actDelta (s.f F.CHL_NOZ_LAW_KN) (s.f F.CHL_NOZ_LAW_DB) (s.f F.CHL_NOZ_LIM_NSTEP) e
  let g := boundI (eGain (rget s.cfg.cal.corr[b] c)) (s.f F.CHL_NOZ_LIM_GLIM) 0 16383 ((eGain w : Int) - d)
  let s1 := s.bump F.CHL_ACT_CNT_COUNT
  if g = eGain w then s1
  else
    let n := (eWord g.toNat (eOfs w)).toNat
    let s2 := if s.boundOn b.val then s1.onBar b fun x => { x with holdQ := x.holdQ ++ [(c, n)] }
      else (s1.onBar b fun x => x.holdPut c n).forward (.hold (.gain b.val c n) (s.lineOf b.val))
    s2.onChl fun x => { x with blkWait := vmod x.blkWait b (fun l => if l.contains (c / 1024) then l else l ++ [c / 1024]) }

/-- The column loop acts. -/
def State.colOn (s : State) : Bool :=
  s.ownActs && s.fb F.CHL_CTL_NOZ_EN && decide (s.f F.CHL_NOZ_LAW_KN ≠ 0) && decide (s.f F.CHL_NOZ_LIM_NSTEP ≠ 0)

/-- R235: a sample of column c. -/
def State.colSample (s : State) (b : Fin 8) (c : Nat) (x : Int) : State :=
  let a := accStep (rget s.chl.colE[b] c).toInt (rget s.chl.colN[b] c).toNat x 1
  let full := decide (s.navg ≤ a.2)
  let put := fun (e : Int) (n : Nat) => s.onChl fun k => { k with
    colE := vmod k.colE b (fun m => rset m c (BitVec.ofInt 32 e)), colN := vmod k.colN b (fun m => rset m c (BitVec.ofNat 32 n)) }
  if full then (if s.colOn then (put 0 0).colAct b c a.1 else put 0 0) else put a.1 a.2

/-- R232: an out flag of a column's entry is set. -/
def State.outFlag (s : State) (b : Fin 8) (c : Nat) : Bool := eOutLo (rget s.bars[b].inf c) || eOutHi (rget s.bars[b].inf c)

/-- R232: an entry gives a sample. -/
def State.colGives (s : State) (b : Fin 8) (line : Nat) (x : ColEnt) : Bool :=
  !x.e.clipped && !x.e.suspect && !s.outFlag b x.col && !s.outFlag b (x.col + 1) && !(decide (0 < x.col) && s.outFlag b (x.col - 1)) &&
    (match s.colSettle b x.col with | some n => !lineBefore line n | none => false)

/-- R238: the report of a column found out. -/
def State.nozzleOut (s : State) (b : Fin 8) (c : Nat) : State :=
  let lap := decide (2 ≤ (coverers (s.headsOf b.val) c).length)
  let auto := s.fb F.CHL_CTL_OUT_AUTO && !lap && !s.inMode .standby
  let s1 := ((((s.setF F.CHL_OUT_LAST_COL c).setF F.CHL_OUT_LAST_BAR b.val).setF F.CHL_OUT_LAST_AMBIG (if lap then 1 else 0)).setF
    F.CHL_OUT_LAST_SET (if auto then 1 else 0)).raise 0x0A0 b.val c
  if auto then
    if s.boundOn b.val then s1.onBar b fun x => { x with autoQ := x.autoQ ++ [c] }
    else (s1.onBar b fun x => x.autoPut c).forward (.hold (.out b.val c) (s.lineOf b.val))
  else s1

/-- R238: RUN of a column after a usable entry. -/
def State.runSample (s : State) (b : Fin 8) (c : Nat) (suspect : Bool) : State :=
  let n := (rget s.chl.run[b] c).toNat
  let m := if !suspect then 0 else if s.outFlag b c then n else min 255 (n + 1)
  let s1 := s.onChl fun k => { k with run := vmod k.run b (fun r => rset r c (BitVec.ofNat 32 m)) }
  let lim := s.f F.CHL_NOZ_LIM_OUT_N
  if lim ≠ 0 ∧ n < lim ∧ lim ≤ m then s1.nozzleOut b c else s1

/-- R232, R238: the strip of ROI m of camera k in a group: `use`: its samples feed the loop; `det`: detection. -/
def State.stripGroup (s : State) (k : Fin 8) (l : List StatRec) (use : Bool) (det : StatRec → Bool) (m : Nat) : State :=
  if s.roiRole k.val m ≠ 1 then s
  else
    let r := roiOf (s.camRegs k.val) k.val m
    if h : r.bar < 8 then
      let b : Fin 8 := ⟨r.bar, h⟩
      let line := s.sampleLine k.val m ((l.headD { body := .mark [] }).idx0)
      let es := stripOfRoi m l
      let xs := if use then es.filter (s.colGives b line) else []
      let res := xs.map (fun x => (x.col, (x.e.d : Int) - (bandMedian r.stag r.col0 es x.col : Int)))
      let s1 := (stripOfRoi m (l.filter det)).foldl (fun s x => if x.e.clipped then s else s.runSample b x.col x.e.suspect) s
      let s2 := res.foldl (fun s p => s.colSample b p.1 p.2) s1
      if res.isEmpty then s2
      else s2.setF (F.CHL_DRES_RES b.val) (min 65535 (isqrt (256 * (res.map (fun p => p.2.natAbs * p.2.natAbs)).foldl (· + ·) 0 / res.length)))
    else s

/-! ### Knots (R233, R235) -/

/-- R233: DT, held within its limits. -/
def State.toneTarget (s : State) (b k : Nat) : Nat :=
  let lo := s.f (F.CHL_DLIM_LO b k)
  clampN lo (max lo (s.f (F.CHL_DLIM_HI b k))) (s.f (F.CHL_DTGT_D b k))

/-- R235, R237: the act on knot i with mean ē. -/
def State.toneAct (s : State) (b : Fin 8) (i : Fin 17) (e : Int) : State :=
  let o := s.fi (F.TON_OFS_OFS b.val i.val)
  let d := actDelta (s.f F.CHL_TONE_LAW_KT) (s.f F.CHL_TONE_LAW_DBT) (s.f F.CHL_TONE_LAW_TSTEP) e
  let v := boundI (sgn 12 (rget s.cfg.cal.tone[b] i.val).toNat) (s.f F.CHL_TONE_LIM_TLIM) (-2048) 2047 (o + d)
  let s1 := s.bump F.CHL_ACT_CNT_COUNT
  if v = o then s1
  else
    let s2 := if s.boundOn b.val then s1.onBar b fun x => { x with knotQ := x.knotQ ++ [(i.val, v)] }
      else ((s1.setF (F.TON_OFS_OFS b.val i.val) (twos 12 v)).knotsFree b).forward (.hold (.knot b.val i.val v) (s.lineOf b.val))
    s2.onChl fun x => { x with toneWait := vset x.toneWait b true }

/-- The tone loop acts. -/
def State.toneOn (s : State) : Bool := s.ownActs && s.fb F.CHL_CTL_TONE_EN && decide (s.f F.CHL_TONE_LAW_KT ≠ 0)

/-- R235: a sample of a knot, the mean of `c` residuals with sum `x`. -/
def State.toneSample (s : State) (b : Fin 8) (i : Fin 17) (x : Int) (c : Nat) : State :=
  let o := s.chl.knot[b][i]
  let a := accStep o.1 o.2 x c
  let put := fun (v : Int × Nat) => s.onChl fun k => { k with knot := vmod k.knot b (fun r => vset r i v) }
  if s.navg ≤ a.2 then (if s.toneOn then (put (0, 0)).toneAct b i a.1 else put (0, 0)) else put a

/-- The patch entries of a group. -/
def patchesOf (l : List StatRec) : List PatchEnt := l.flatMap (fun r => match r.body with | .patch p => p | _ => [])

/-- R233: the patches of knot i of bar b in a group. -/
def State.toneGroup (s : State) (k : Fin 8) (l : List StatRec) (b : Fin 8) (i : Fin 17) : State :=
  let idx := (l.headD { body := .mark [] }).idx0
  let ps := (patchesOf l).filter (fun p => decide (s.roiRole k.val p.roi = 2 ∧ s.roiKnot k.val p.roi = i.val
    ∧ (roiOf (s.camRegs k.val) k.val p.roi).bar = b.val ∧ !lineBefore (s.sampleLine k.val p.roi idx) s.chl.toneSettle[b]) && !s.chl.toneWait[b])
  if ps.isEmpty then s
  else s.toneSample b i ((ps.map (fun p => (s.toneTarget b.val i.val : Int) - p.d)).foldl (· + ·) 0) ps.length

/-! ### Registration (R234, R235) -/

/-- R235, R237: the act on C[b] with mean ē. -/
def State.regAct (s : State) (b : Fin 8) (e : Int) : State :=
  let d := actDelta (s.f F.CHL_REG_LAW_KR) (s.f F.CHL_REG_LAW_DBR) (max 1 (s.f F.CHL_REG_LAW_RSTEP)) e
  let lim : Int := s.f (F.LTM_BAR_TRIM_REG_LIM b.val)
  let v := clampI (-lim) lim (s.chl.trim[b] - d)
  let s1 := (s.bump F.CHL_ACT_CNT_COUNT).setF (F.CHL_RRES_RES b.val) (twos 16 (tdivI e 256))
  if v = s.chl.trim[b] then s1
  else s1.onChl fun x => { x with trim := vset x.trim b v, regWait := vset x.regWait b true }

/-- The registration loop acts. -/
def State.regOn (s : State) : Bool := s.ownActs && s.fb F.CHL_CTL_REG_EN && decide (s.f F.CHL_REG_LAW_KR ≠ 0)

/-- R235: a sample r = x ÷ c of bar b's trim. -/
def State.regSample (s : State) (b : Fin 8) (x : Int) (c : Nat) : State :=
  let a := accStep s.chl.trimAcc[b].1 s.chl.trimAcc[b].2 x c
  let put := fun (v : Int × Nat) => s.onChl fun k => { k with trimAcc := vset k.trimAcc b v }
  if s.navg ≤ a.2 then
    let s1 := (put (0, 0)).setF (F.CHL_RRES_RES b.val) (twos 16 (tdivI a.1 256))
    if s.regOn then s1.regAct b a.1 else s1
  else put a

/-- The usable mark entries of a bar in a group: marks found, in their role, of settled lines. -/
def State.marksOf (s : State) (k : Fin 8) (l : List StatRec) (b : Nat) : List MarkEnt :=
  (l.flatMap (fun r => match r.body with | .mark p => p | _ => [])).filter (fun p =>
    decide (p.bar = b ∧ p.pixels ≠ 0 ∧ s.roiRole k.val p.roi = 3))

/-- R234: the marks of bar b against those of REF. -/
def State.regGroup (s : State) (k : Fin 8) (l : List StatRec) (b : Fin 8) : State :=
  let ref := s.f F.CHL_CTL_REG_REF
  let idx := (l.headD { body := .mark [] }).idx0
  let ms := (s.marksOf k l b.val).filter (fun p => !lineBefore (s.sampleLine k.val p.roi idx) s.chl.regSettle[b] && !s.chl.regWait[b])
  let rs := s.marksOf k l ref
  if b.val = ref ∨ ms.isEmpty ∨ rs.isEmpty then s
  else
    let sb := (ms.map (·.dy)).foldl (· + ·) 0
    let sr := (rs.map (·.dy)).foldl (· + ·) 0
    let c := ms.length * rs.length * 1024
    let x := (sb * rs.length - sr * ms.length) * camLineStep (s.camRegs k.val) k.val - s.fi (F.CHL_REG_TGT_TGT b.val) * c
    s.regSample b x c

/-! ### White reference in use (R241, item 2) -/

/-- A table entry one group nearer to a finished run's. -/
def whiteStep (cur old new : Word) : Word := BitVec.ofNat 32 (gainStep cur.toNat old.toNat new.toNat)

/-- R241: a later group moves each entry of camera k's white reference. -/
def State.whiteMove (s : State) (k : Fin 8) : State :=
  match s.chl.whiteGoal[k] with
  | none => s
  | some (old, new) =>
    let w := s.vis.cam[k].white
    let w' := new.foldl (fun m e => rset m e.1 (whiteStep (rget w e.1) (rget old e.1) e.2)) w
    let s1 := s.onCam k fun c => { c with white := w' }
    if new.all (fun e => rget w' e.1 == e.2) then s1.onChl fun c => { c with whiteGoal := vset c.whiteGoal k none } else s1

/-! ### A group's records (R231) -/

/-- R231: a group feeds the loops. -/
def groupUsed (f : GrpFlags) : Bool := !f.missing && !f.late && !f.short && !f.crcErr && !f.portRet

/-- R231: a record of a group feeds detection. -/
def detects (f : GrpFlags) (r : StatRec) : Bool := if f.missing || f.portRet then false else if f.short then r.stripOk else true

/-- R231: a record of this handle may be used now. -/
def State.handleUsed (s : State) (h : BitVec 16) : Bool :=
  if h = 0 then s.acting && !(s.inMode .print || (s.inMode .standby && s.sys.shadow == .print)) else s.acting

/-- R231–R239: the records of a whole group of camera k. -/
def State.holdGroup (s : State) (k : Fin 8) (l : List StatRec) : State :=
  match l with
  | [] => s
  | r :: _ =>
    let use := groupUsed r.flags
    let s1 := if use then s.seesAgain k else s.bump F.CHL_SKIP_CNT_COUNT
    if !s1.handleUsed r.handle then s1
    else
      let s2 := (upto 16).foldl (fun s m => s.stripGroup k l use (detects r.flags) m) s1
      if use then
        let s3 := (List.finRange 8).foldl (fun s b => (List.finRange 17).foldl (fun s i => s.toneGroup k l b i) s) s2
        (List.finRange 8).foldl (fun s b => s.regGroup k l b) s3
      else s2

/-- R64, R226: a record joins those of its group read before it; one whose predecessors were lost joins none. -/
def gathered (l : List StatRec) (r : StatRec) : List StatRec :=
  if r.seq = 0 then [r]
  else match l with
    | x :: _ => if x.frame = r.frame ∧ l.length = r.seq then l ++ [r] else []
    | [] => []

/-- R109, R219: a MISSING group of the Ace camera in mode 2, or one of a retired port, yields no verdict for its repeat. -/
def State.noVerdict (s : State) (r : StatRec) : Bool :=
  r.flags.missing && r.handle != 0 && r.cam == s.f F.VIS_ACE_CFG_CAM && camMode (s.camRegs r.cam) r.cam == 2

/-- R231: a record read: an Ace verdict is acted on; a stale one is dropped; a group's records are taken together. -/
def State.readStat (s : State) (r : StatRec) : State :=
  let k : Fin 8 := ⟨r.cam % 8, by omega⟩
  let stale := decide (r.handle ≠ 0) && (s.job? r.handle).isNone
  let s1 := if stale then s.stale else match r.body with
    | .ace v _ _ _ _ _ => if r.handle = 0 then s else s.aceAct r.rep v
    | .frame .. => if s.noVerdict r then s.aceAct r.rep 2 else s
    | _ => s
  let l := if stale then [] else gathered s1.chl.gather[k] r
  if r.last then
    let s2 := s1.onChl fun c => { c with gather := vset c.gather k [] }
    (if stale || !l.isEmpty then s2.holdGroup k l else s2.bump F.CHL_SKIP_CNT_COUNT).when (s.inMode .standby) fun s => s.whiteMove k
  else s1.onChl fun c => { c with gather := vset c.gather k l }

/-- CHL works: clocked. -/
def State.chlOn (s : State) : Bool := !s.thm.gated && !s.sys.cold && !s.inMode .boot && !s.inMode .frozen

/-- R231: the unit reads the oldest record of a port's queue. -/
def State.statsRead (s : State) (p : Fin 4) : State :=
  if !s.chlOn then s
  else
    let s0 := s.settle (statQ p)
    match s0.qHead (statQ p) with
    | some (.stats r) => (((s0.qFree (statQ p)).settle (statQ p)).readStat r).visPump
    | _ => s0

/-- STATS_RECORD (R231). -/
def execStatsRecord (p : Fin 4) (s : State) : Host.Outcome State Fault Refusal :=
  .next (s.live fun s => s.statsRead p)

/-! ### Calibration runs (R240, R241, R325) -/

/-- R241: unit u exists for an item. -/
def State.calUnit (s : State) (item u : Nat) : Bool :=
  match item with
  | 0 => if h : u < 52 then s.laneUse ⟨u, h⟩ else false
  | 1 => decide (u < 4) && s.fb (F.ENC_CFG_EN u)
  | 2 => if h : u < 8 then s.camOn ⟨u, h⟩ else false
  | 3 => decide (u < 16) && !(s.lsLamps u).isEmpty
  | _ => false

/-- The units of an item, ascending. -/
def State.calUnits (s : State) (item : Nat) : List (Nat × Nat) := ((upto 52).filter (s.calUnit item)).map (fun u => (item, u))

/-- R240: T_last of a unit, 1/16 °C. -/
def State.tLast (s : State) (u : Nat × Nat) : Int := (rget s.chl.tlast (u.1 * 64 + u.2)).toInt

/-- A unit inserted in ascending order. -/
def insUnit (u : Nat × Nat) : List (Nat × Nat) → List (Nat × Nat)
  | [] => [u]
  | v :: t => if u = v then v :: t else if u.1 < v.1 ∨ (u.1 = v.1 ∧ u.2 < v.2) then u :: v :: t else v :: insUnit u t

/-- Units made due. -/
def State.makeDue (s : State) (l : List (Nat × Nat)) : State := s.onChl fun c => { c with due := l.foldl (fun d u => insUnit u d) c.due }

/-- CAL_TEMP_CHECK (R240). -/
def State.calTempCheck (s : State) : State :=
  let dt : Nat := s.f F.CHL_CAL_DT_DT
  if dt = 0 ∨ !s.chlOn then s
  else s.makeDue (((upto 4).flatMap s.calUnits).filter (fun u => decide (16 * dt < (s.thm.temp - s.tLast u).natAbs)))

def execCalTempCheck (s : State) : Host.Outcome State Fault Refusal := .next (s.live State.calTempCheck)

/-- CHL_CAL_CMD (R240): in `STANDBY` items 0, 1 and 3 only (R291). -/
def State.calCmd (s : State) (ses : Fin 5) (items : BitVec 4) : State :=
  s.sesCmd ses .installer 0x170A04 (BitVec.ofNat 32 items.toNat) fun s =>
    let on := fun (i : Nat) => items.getLsbD i && !(s.inMode .standby && decide (i = 2))
    some (s.makeDue (((upto 4).filter on).flatMap s.calUnits))

def execChlCalCmd (ses : Fin 5) (items : BitVec 4) (s : State) : Host.Outcome State Fault Refusal := .next (s.calCmd ses items)

/-- R241, R325: the opportunity of a unit. -/
def State.calMay (s : State) (u : Nat × Nat) : Bool :=
  match u.1 with
  | 0 => if h : u.2 < 52 then
      let n : Fin 52 := ⟨u.2, h⟩
      s.lnk.lanes[n].st == .active && !s.lnk.lanes[n].eyeBusy && !s.retired (laneBoard n) else false
  | 1 => if h : u.2 < 4 then
      let x := s.enc.ch[(⟨u.2, h⟩ : Fin 4)]
      x.spdValid (s.f (F.ENC_CFG_AVG_LOG2 u.2)) && decide (4000 ≤ x.period ∧ x.period ≤ 1000000) && x.cal == .none && !s.retired (64 + u.2)
      else false
  | 2 => if h : u.2 < 8 then
      let k : Fin 8 := ⟨u.2, h⟩
      s.tbl.holder && s.camOn k && !s.retired (portBoard (portOf k)) &&
        ((s.inMode .print && decide (camMode (s.camRegs u.2) u.2 = 1)) || (s.inMode .service && s.sys.svc == some .calPrint)) else false
  | _ => s.lsRunOk u.2 && !s.inMode .standby

/-- R325: the scheduler starts the first due unit that may run. -/
def State.calStart (s : State) : State :=
  if !s.chlOn || s.sys.coldPend || decide (2 ≤ s.chl.running.length) then s
  else match s.chl.due.find? (fun u => !s.chl.running.any (fun r => r.1 == u.1) && s.calUnit u.1 u.2 && s.calMay u) with
    | none => s
    | some u =>
      let s1 := s.onChl fun c => { c with running := c.running ++ [u] }
      match u.1 with
      | 1 => if h : u.2 < 4 then s1.onCh ⟨u.2, h⟩ fun x => { x with cal := .collect {} } else s1
      | 2 => s1.onChl fun c => { c with whites := vsetN c.whites u.2 [] }
      | _ => s1

def execCalRunStart (s : State) : Host.Outcome State Fault Refusal := .next (s.live State.calStart)

/-- R240: a run of a unit has completed. -/
def State.calOver (s : State) (u : Nat × Nat) : State :=
  let t := s.thm.temp
  let s1 := s.onChl fun c => { c with
    running := c.running.filter (· ≠ u), due := c.due.filter (· ≠ u)
    tlast := rset c.tlast (u.1 * 64 + u.2) (BitVec.ofInt 32 t) }
  let s2 := (s1.bump (F.CHL_CAL_STAT_COUNT u.1)).setF (F.CHL_CAL_STAT_TLAST u.1) (twos 12 (t / 4))
  (s2.setF (F.CHL_CAL_TIME_SEC u.1) (s.tim.sec % 2 ^ 32)).event 0x0A2 (u.1 + 256 * u.2)

/-- R241: the mean of the groups of a white reference run, per entry, rounded down. -/
def whiteMean (l : List RegMap) : RegMap :=
  let keys := (l.headD []).map (·.1)
  keys.foldl (fun m a => rset m a (BitVec.ofNat 32 (((l.map (fun g => (rget g a).toNat)).foldl (· + ·) 0) / l.length))) []

/-- R241: what a run of unit u has found comes into use as its item's slew rule allows; none while the run is not over. -/
def State.calTake (s : State) (u : Nat × Nat) (x : CalFound) : Option State :=
  match u.1, x with
  | 0, .lane point phases volts => some (s.onLnk fun t => { t with
      eq := rset t.eq u.2 point
      lanes := vmodN t.lanes u.2 (fun y => { y with eyeValid := true, eyeW := eyeWidth phases, eyeH := eyeHeight volts }) })
  | 1, .own => if h : u.2 < 4 then
      let t := s.encCalDone ⟨u.2, h⟩
      match t.enc.ch[(⟨u.2, h⟩ : Fin 4)].cal with | .collect _ => none | _ => some t
      else none
  | 2, .own => if h : u.2 < 8 then
      let k : Fin 8 := ⟨u.2, h⟩
      if s.chl.whites[k].length < 4 then none
      else
        let new := whiteMean s.chl.whites[k]
        some ((s.onChl fun c => { c with whites := vset c.whites k [], whiteGoal := vset c.whiteGoal k (some (s.vis.cam[k].white, new)) }).forward
          (.white u.2 new s.vis.cam[k].frame))
      else none
  | 3, .light m => if h : u.2 < 16 then some (s.gainFound ⟨u.2, h⟩ m) else none
  | _, _ => none

/-- CAL_RUN_COMPLETE (R240). -/
def State.calComplete (s : State) (item : Nat) (x : CalFound) : State :=
  match s.chl.running.find? (fun u => u.1 = item) with
  | none => s
  | some u => match s.calTake u x with
    | some t => t.calOver u
    | none => s

def execCalRunComplete (item : Fin 4) (x : CalFound) (s : State) : Host.Outcome State Fault Refusal :=
  .next (s.live fun s => s.calComplete item.val x)

/-- R240: a run abandoned leaves its unit due. -/
def State.calAbandon (s : State) (p : Nat × Nat → Bool) : State :=
  s.onChl fun c => { c with running := c.running.filter (fun u => !p u) }

/-- R241: the mean linear value per column and channel of a group's lines; entries by column × 3 + channel. -/
def View.means (v : View) : RegMap :=
  (upto (camWidth v.cfg v.k)).foldl (fun m x => (upto 3).foldl (fun m ch =>
    rset m (x * 3 + ch) (BitVec.ofNat 32 (sumN ((upto v.lines).map (fun y => v.chan ch x y)) / max 1 v.lines))) m) []

/-- R241: every frame line of a group lies on a blank print line, or nothing fires in a calibration print. -/
def State.grpBlank (s : State) (k : Nat) (g : Grp) (lines : Nat) : Bool :=
  if s.inMode .service then !s.ltm.armed
  else match g.idx0 with
    | some i => (upto lines).all (fun y => (s.jobAtLine (i + y * camLineStep g.cfg k / 4096)).isNone)
    | none => false

/-- R241: a group that a white reference run may use is added to it. -/
def State.whiteTake (s : State) (k : Fin 8) (g : Grp) (v : View) : State :=
  if s.chl.running.contains (2, k.val) && groupUsed (g.flags k.val) && s.grpBlank k.val g v.lines && decide (s.chl.whites[k].length < 4) then
    s.onChl fun c => { c with whites := vmod c.whites k (fun l => l ++ [v.means]) }
  else s

/-! ### Resets and commits (R237, R244) -/

/-- R244: an operator target outside its limits clears the knot's accumulator. -/
def State.knotCleared (s : State) (b : Fin 8) (k : Nat) : State :=
  s.onChl fun c => { c with knot := vmod c.knot b (fun r => vsetN r k (0, 0)) }

/-- R35, R244: an island reset of CHL: accumulators, settle lines and RUN counts are lost, corrections return to the calibration
set, runs are abandoned. -/
def State.chlReset (s : State) : State :=
  s.onChl fun c => { tlast := c.tlast, due := c.due, trim := s.cfg.cal.trim, whiteGoal := c.whiteGoal }

end Sys2Proof.Machine
end

