-- ==== Sys2Proof/Machine/Jobs.lean ====
section
/-! DEFINITION. The life of a job after its objects (R72, R76, R84–R86): CLOSE, ABORT, the archive check, the end of a job, and
an archive region that runs out. -/
namespace Sys2Proof.Machine

/-! ### The archive region (R84, R228) -/

/-- R84: bytes per line of bar b, lane record by lane record. -/
def State.barBytes (s : State) (b : Nat) : Nat := ((upto 5).map (fun i => s.recBytes (b * 5 + i))).foldl (· + ·) 0

/-- R84: the print-record stream of context q for a job of `lines` lines. -/
def State.printArch (s : State) (lines q : Nat) : Nat :=
  let b0 := s.barBytes (2 * q)
  let b1 := s.barBytes (2 * q + 1)
  if b0 + b1 = 0 then 0 else lines * (b0 + b1 + 8 * (cdiv b0 4096 + cdiv b1 4096)) + 20

/-- R228: S_c, the bytes of an archived frame. -/
def frameBytes (m : RegMap) (k : Nat) : Nat := camExps m k * camLines m k * cdiv (camWidth m k * camBits m k) 8

/-- R228: F_c, the frames a job of `lines` lines and repeat length `rep` takes on camera k. -/
def State.camFrames (s : State) (k lines rep : Nat) : Nat :=
  match camMode (s.camRegs k) k with
  | 1 => cdiv lines (max 1 (s.f (F.VIS_CAM_PITCH_LINES k)))
  | 2 => if rep = 0 then 1 else cdiv lines rep
  | _ => 0

/-- R84: the camera term of A_max; mode 0 cameras are not archived. -/
def State.camArch (s : State) (k : Fin 8) (lines rep : Nat) : Nat :=
  let m := s.camRegs k.val
  if s.camOn k ∧ fldIn m (F.VIS_CAM_CFG_ARCH k.val) = 1 ∧ camMode m k.val ≠ 0 then
    let sz := frameBytes m k.val
    s.camFrames k.val lines rep * (sz + 8 * (cdiv sz 16384 + cdiv sz 65536)) + 20
  else 0

/-- R84: A_max. -/
def State.archMax (s : State) (j : Job) : Nat :=
  let lines := j.lines.getD 0
  let rep := match j.usable 0 with | some o => dRepeat o.bytes | none => 0
  65536 + (if bits j.arch 0 1 = 1 then ((upto 4).map (s.printArch lines)).foldl (· + ·) 0 else 0)
    + (if bits j.arch 1 1 = 1 then ((List.finRange 8).map (fun k => s.camArch k lines rep)).foldl (· + ·) 0 else 0)

/-! ### CLOSE (R72, R76) -/

/-- A further stream of an object is outstanding. -/
def State.objPending (s : State) (tag num : Nat) : Bool :=
  s.ing.rings.toList.any (fun x => x.out.any (fun f => f.again && !f.done && decide (f.tag = tag ∧ f.d.obj = num)))

/-- The lowest-numbered object that is not usable, one with a further stream outstanding as arriving. -/
def State.worst (s : State) (j : Job) : Option Obj :=
  ((j.objs.map (fun o => if s.objPending j.tag o.num then { o with st := 1 } else o)).filter (·.st ≠ 2)).foldl (fun a o => match a with
    | some x => if o.num < x.num then some o else some x
    | none => some o) none

/-- R76: what CLOSE finds of a staged job: status and DETAIL, 0 for STAGED.  An object cut short by a ring's reset still lacks
the rest of its stream. -/
def State.closeCheck (s : State) (j : Job) : Nat × Nat :=
  match s.worst j with
  | some o => if o.st = 3 ∧ o.crcBad then (5, 0) else if o.st = 3 ∧ o.err ≠ 0 then (4, o.err) else (4, 8)
  | none =>
    if !j.refsOk (j.lines.getD 0) then (4, 0x17)
    else if j.archSize < s.archMax j then (6, 0)
    else (0, 0)

/-- R72: a descriptor completes OK, and a job event's entry follows it on the ring that carried OPEN. -/
def State.finishWith (s : State) (r : Fin 8) (d : Desc) (j : Job) (kind status detail : Nat) : State :=
  if j.ring = r.val then
    (s.fetched r { d := d, handle := d.handle, done := true, after := [
      { handle := j.handle, kind := kind, status := status, detail := detail, index := j.printed % 2 ^ 32 }] }).drain r
  else (s.finish r d d.handle 0 0).jobEntry j kind status detail

/-- A staged job becomes STAGED, or fails with a status. -/
def State.settleClose (s : State) (j : Job) (status : Nat) : State :=
  if status = 0 then ((s.modJob j.tag fun j => { j with st := .staged }).event 0x031 j.handle.toNat).forward (.job j.handle 1 0 0)
  else ((s.trailerOf j).modJob j.tag fun j => { j with
    st := .failed, status := status
    objs := j.objs.map (fun o => if o.st = 1 then { o with st := 3 } else o) }).forward (.job j.handle 3 status 0)

/-- CLOSE on a served ring (R76).  A streaming CLOSE shorter than its 8 bytes completes with BADDESC (DESIGN CHOICE, log entry 58). -/
def State.closeJob (s : State) (r : Fin 8) (d : Desc) (p : List Byte) : State :=
  if d.op ≠ 3 then s.finish r d d.handle 8 0
  else match s.job? d.handle with
    | none => s.stale.finish r d d.handle 1 0
    | some j =>
      if j.streaming then
        if (j.st = .opened ∨ j.st = .bound ∨ j.st = .printing) ∧ j.lines = none then
          if p.length < 8 then s.finish r d d.handle 8 0
          else ((s.modJob j.tag fun j => { j with lines := some (leAt p 0 8) }).finish r d d.handle 0 0).forward (.desc r d p)
        else s.finish r d d.handle 3 0
      else if j.st = .opened then
        let c := s.closeCheck j
        (s.finishWith r d j (if c.1 = 0 then 1 else 3) c.1 c.2).settleClose j c.1
      else s.finish r d d.handle 3 0

def execClose (r : Fin 8) (d : Desc) (p : List Byte) (s : State) : Host.Outcome State Fault Refusal :=
  .next (s.fetchDesc r d p fun s d p => s.closeJob r d p)

/-! ### ABORT (R76, R86) -/

/-- R76: a job is aborted: its objects are discarded, its streams stop.  Aborted while PRINTING it ends firing at the next line
boundary and stops the press; the last job bound aborted in `READY` takes the seat to `IDLE/WARM`. -/
def State.abortJob (s : State) (j : Job) : State :=
  let s0 := if j.st = .printing then s else s.trailerOf j
  let s1 := (s0.ctxDrop j.tag).modJob j.tag fun j => { j with st := .aborted, status := 0xA, objs := [] }
  match j.st with
  | .printing => s1.orderlyStop .haltRamp 1
  | .bound =>
    let s2 := s1.dropJobs (fun b => tagOf b.handle ≠ j.tag)
    if s2.inMode .ready && s2.sys.jobs.isEmpty then s2.toIdle else s2
  | _ => s1

/-- ABORT on a served ring. -/
def State.abortDesc (s : State) (r : Fin 8) (d : Desc) : State :=
  if d.op ≠ 4 then s.finish r d d.handle 8 0
  else match s.job? d.handle with
    | none => s.stale.finish r d d.handle 1 0
    | some j =>
      if j.st = .opened ∨ j.st = .staged ∨ j.st = .bound ∨ j.st = .printing then
        ((s.abortJob j).finish r d d.handle 0 0).forward (.desc r d [])
      else s.finish r d d.handle 3 0

def execAbort (r : Fin 8) (d : Desc) (s : State) : Host.Outcome State Fault Refusal :=
  .next (s.live fun s => s.when (s.ringServed r) fun s => s.abortDesc r d)

/-! ### The end of a job (R76, R84) -/

/-- R45, R46, R76: a job retires and is no longer bound. -/
def State.leaveJob (s : State) (tag status : Nat) : State :=
  let h := match s.jobAt tag with | some j => j.handle | none => mkHandle tag 0
  ((((s.retireJob tag).dropJobs (fun b => tagOf b.handle ≠ tag)).forward (.job h 2 status 0)).useRecords).calAuto true

/-- R84: everything a bar has screened for an archived job has been compressed. -/
def State.archDone (s : State) (tag : Nat) : Bool :=
  s.archClear tag && s.bars.toList.all (fun b => b.outQ.all (fun e => !isPiece tag e.2))

/-- JOB_ENDING_COMPLETE: end blocks and trailer are written; the job retires. -/
def State.endingDone (s : State) (tag : Nat) : State :=
  match s.jobAt tag with
  | none => s
  | some j =>
    if j.st = .ending ∧ s.archDone tag then
      let s1 := s.endBlocks tag
      let s2 := match s1.sys.jobs.find? (fun b => tagOf b.handle = tag) with
        | some bj => s1.writeTrailer bj
        | none => s1
      s2.leaveJob tag 0
    else s

def execJobEndingComplete (tag : Nat) (s : State) : Host.Outcome State Fault Refusal :=
  .next (s.live fun s => s.when (!s.inMode .standby) fun s => s.endingDone tag)

/-- R76: nothing of a job that failed or was aborted is still in flight. -/
def State.drained (s : State) (tag : Nat) : Bool :=
  s.ing.rings.toList.all (fun r => r.out.all (fun f => f.done || f.tag ≠ tag)) && s.archClear tag
    && s.sys.jobs.all (fun b => tagOf b.handle ≠ tag)

/-- JOB_DRAINED: a failed or aborted job becomes FREE with its final status. -/
def State.jobDrained (s : State) (tag : Nat) : State :=
  match s.jobAt tag with
  | none => s
  | some j => if (j.st = .failed ∨ j.st = .aborted) ∧ s.drained tag then s.leaveJob tag j.status else s

def execJobDrained (tag : Nat) (s : State) : Host.Outcome State Fault Refusal :=
  .next (s.live fun s => s.when (!s.inMode .standby) fun s => s.jobDrained tag)

/-! ### An archive region that runs out (R85, R86) -/

/-- R84, R85: the region is exhausted: the streams and the trailer no longer fit, or the run records overflow the trailer. -/
def Job.exhausted (j : Job) (bj : BJob) : Bool :=
  (decide (j.arch ≠ 0) && decide (j.archSize < j.archBytes + 65536))
    || decide (4096 < ((j.trailerRuns bj.bars (bj.start.getD 0)).filter (·.status ≠ 3)).length)

/-- ARCHIVE_EXHAUSTED (R85): the job fails with ARCHIVE, without end blocks, and the press stops. -/
def State.exhausted (s : State) (tag : Nat) : State :=
  match s.jobAt tag, s.sys.jobs.find? (fun b => tagOf b.handle = tag) with
  | some j, some bj =>
    if j.streaming ∧ (j.st = .printing ∨ j.st = .ending) ∧ j.exhausted bj then
      let s1 := (s.ctxDrop tag).writeVoid bj
      let s2 := ((s1.failJob tag 6 0).forward (.job j.handle 3 6 0)).orderlyStop .haltRamp 9
      if s2.ltm.armed then s2 else s2.dropJobs (fun b => tagOf b.handle ≠ tag)
    else s
  | _, _ => s

def execArchiveExhausted (tag : Nat) (s : State) : Host.Outcome State Fault Refusal :=
  .next (s.live fun s => s.when (!s.inMode .standby) fun s => s.exhausted tag)

end Sys2Proof.Machine
end

