-- ==== Sys2Proof/Machine/Retire.lean ====
section
/-! DEFINITION. What is done when a channel is classed permanent (R320, R188, R209, R229, R143, R265, R258, R282), yields for a
health failure (R286), and the uncorrectable error (R20). -/
namespace Sys2Proof.Machine

/-! ### Lanes (R188, R282) -/

/-- R26, R188: without a seat in step a retired lane stops a printing press. -/
def State.laneStop (s : State) : State := if s.inMode .print then s.orderlyStop .haltRamp 7 else s

/-- R188: the holder yields, or stops; a standby leaves step with cause 6. -/
def State.laneOutcome (s : State) : State :=
  if s.inMode .standby then s.leaveStep 6
  else if s.otherInStep then s.onTbl fun t => { t with yieldFor := some 1 }
  else s.laneStop

/-- R188: a Barchan lane retires. -/
def State.laneRetires (s : State) (n : Fin 40) : State :=
  (((s.markRetired (8 + n.val)).onLane (barLane n) fun x => { x with st := .retired, inGroup := false, tx := [], recEnd := none, pend := {}, raw := none }).event
    0x075 n.val).laneOutcome

/-- R281, R295: the group has lost its last lane. -/
def State.groupLost (s : State) : State :=
  if s.groupUp then s
  else if s.inMode .standby then s.leaveStep 3
  else if s.tbl.joining && !s.tbl.holder then s.onTbl fun t => { t with joining := false, left := 3 }
  else s

/-- R282: a Table lane retires and leaves the group. -/
def State.tblRetires (s : State) (n : Fin 52) : State :=
  (((s.markRetired (laneBoard n)).onLane n fun x => { x with st := .retired, inGroup := false, tx := [] }).event 0x0D5
    (n.val - 40)).groupLost

/-! ### G5-DDR channels (R209) -/

/-- R209: retirement waits: RET_PEND, with EVT_MEM_RET_PEND outside `BOOT`. -/
def State.memPend (s : State) (c : Fin 8) : State :=
  let s1 := s.onBoard c.val fun x => { x with pend := true }
  if s.inMode .boot then s1 else s1.event 0x083 c.val

/-- R209, R210: the retirement is carried out if it may be; else RET_PEND stays 1. -/
def State.memNow (s : State) (c : Fin 8) : State :=
  let s1 := s.memRetire
  if s1.mem.ch[c].st = .retired then s1 else s1.onBoard c.val fun x => { x with pend := true }

/-- R209: a channel classed permanent. -/
def State.memClassed (s : State) (c : Fin 8) : State :=
  if s.inMode .frozen || !s.mem.ch[c].listed then s
  else if s.inMode .standby then
    let s1 := s.leaveStep 6
    s1.memNow c
  else if s.idleWarm || s.inMode .halt then s.memNow c
  else if (s.inMode .ready || s.inMode .print || s.inMode .service) && s.otherInStep then
    (s.onBoard c.val fun x => { x with pend := true }).onTbl fun t => { t with yieldFor := some 1 }
  else s.memPend c

/-! ### The other kinds -/

/-- R229, R239: a camera port retires: its groups still coming in are lost, and its cameras are blind. -/
def State.portRetires (s : State) (p : Fin 4) : State :=
  let s1 := (s.markRetired (portBoard p)).event 0x091 p.val
  (List.finRange 8).foldl (fun s k =>
    if portOf k = p then
      let lost := s.vis.cam[k].grps.filter (fun g => !g.closed && !g.dropped)
      let s2 := s.onCam k fun c => { c with grps := c.grps.filter (fun g => g.closed && !g.dropped) }
      let s3 := lost.foldl (fun s g => s.frameOnly k g { missing := true, portRet := true }) s2
      if s3.camOn k then s3.goBlind k else s3
    else s) s1

/-- R143, R145: an encoder channel retires; of the web source, the alternate takes over or LOST is set. -/
def State.encRetires (s : State) (ch : Fin 4) : State :=
  let s1 := (s.markRetired (64 + ch.val)).encCalDrop ch
  if s1.enc.act ≠ ch ∨ s1.enc.lost then s1
  else if !s1.enc.onAlt && s1.altUsable then
    let s2 := s1.useAlt
    s2.event 0x053 s2.enc.act.val
  else
    let s2 := s1.onEnc fun e => { e with lost := true }
    if s2.inMode .print then s2.orderlyStop .haltRamp 8 else s2

/-- R258, R260: an axis retires: gates off, and a sequence that needs it fails. -/
def State.axisRetires (s : State) (a : Fin 16) : State :=
  let s1 := ((s.markRetired (axisBoard a.val)).event 0x0B2 a.val).onAxis a fun x => { x with
    pa := x.pa.rest, pb := x.pb.rest }
  match s1.mot.ax[a].seq with
  | some i => if s1.mot.seqs[i].running then (s1.seqFail i).asShadow fun t => t.seqsSince s1 else s1
  | none => s1

/-- R320: the retirement of the channel's own chapter. -/
def State.retireOne (s : State) (j : Nat) : State :=
  if h : j < 8 then s.memClassed ⟨j, h⟩
  else if h : j < 48 then s.laneRetires ⟨j - 8, by omega⟩
  else if h : j < 60 then s.tblRetires ⟨j - 8, by omega⟩
  else if h : j < 64 then s.portRetires ⟨j - 60, by omega⟩
  else if h : j < 68 then s.encRetires ⟨j - 64, by omega⟩
  else if h : j < 72 then s.chainRetires ⟨j - 68, by omega⟩
  else if h : j < 84 then s.axisRetires ⟨j - 72, by omega⟩
  else s

/-! ### Uncorrectable errors and yields for health (R20, R286) -/

/-- R20: the lines of a job being printed that come after the current one are void on every bar. -/
def State.voidRest (s : State) (bj : BJob) : State :=
  match s.job? bj.handle, bj.start with
  | some j, some st =>
    let n := j.lines.getD 0
    let run := fun (b : Nat) =>
      let k := lineSpan st (s.lineOf b + 1)
      ({ bar := b, first := pl (st + k), count := n - k, status := 1 } : Run)
    if j.st = .printing then
      s.modJob j.tag fun j => { j with
        runs := (((upto 8).filter (fun b => bj.bars.getLsbD b)).map run).filter (fun r => r.count ≠ 0) ++ j.runs }
    else s
  | _, _ => s

/-- R20: without a seat in step the holder stops firing and takes the emergency ramp; its pads hold and are released; the lines
after the error are void. -/
def State.freezeAlone (s : State) : State :=
  let s0 := s.sys.jobs.foldl State.voidRest s
  let s1 := ((s0.interruptSeqs).onLtm fun l => { l with armed := false, commit := none }).onMot fun m => { m with
    ax := Vector.ofFn (fun (a : Fin 16) => if a.val < 12 then m.ax[a].brake else m.ax[a]) }
  (s1.webStop .emergency).loseTrump

/-- R20, R206: the seat enters `FROZEN`, and the channels that work enter self-refresh. -/
def State.freeze (s : State) : State :=
  let s1 := if s.inMode .standby then s.dropStep 7
    else if s.otherInStep then (s.handOver false).dropStep 7
    else if s.tbl.holder then s.freezeAlone
    else s.onTbl fun t => { t with joining := false }
  ((((s1.onTbl fun t => { t with yieldFor := none }).onSys fun y => { y with
    stops := [], stopping := false, endFiring := false, freezePend := false, req := none, svc := none, waking := false }).setMode
    .frozen false).othersRest).laneRoles fun idle x => { x with pend := {} }.put idle

/-- R20, R286: the holder freezes at the next line boundary while lines fire, and at once during a stop or at rest. -/
def State.freezeDue (s : State) : State :=
  if s.inMode .boot || s.inMode .frozen then s
  else if s.tbl.holder && s.ltm.armed && !s.sys.stopping then s.onSys fun y => { y with freezePend := true }
  else s.freeze

/-- R188, R209: what is left to do without a seat in step. -/
def State.healthAlone (s : State) : State :=
  let lost := (List.finRange 40).any (fun n => s.retired (8 + n.val) && s.laneHasHeads n.val)
  let s1 := if lost then s.laneStop else s
  (List.finRange 8).foldl (fun s c => if (s.board c.val).perm && s.mem.ch[c].listed then s.memPend c else s) s1

/-- R20, R286: the entry to `FROZEN` and a yield for a health failure are carried out: at a line boundary while lines fire, else
at once.  `FROZEN` outranks a yield. -/
def State.healthTry (s : State) (atLine : Bool) : State :=
  if s.ltm.armed && !atLine then s
  else if s.sys.freezePend then s.freeze
  else if s.tbl.yieldFor = some 1 then
    let s1 := s.onTbl fun t => { t with yieldFor := none }
    if s1.otherInStep then (s1.handOver false).leaveStep 6 else s1.healthAlone
  else s

/-- The retirements that have fallen due are carried out, and what waited for firing to end. -/
def State.settleFaults (s : State) : State :=
  (if s.flt.due.isEmpty then s else (s.flt.due.foldl State.retireOne s).onFlt fun t => { t with due := [] }).healthTry false

/-- `f`, while the device operates, and the retirements it makes due. -/
def State.liveF (s : State) (f : State → State) : State := s.live fun s => (f s).settleFaults

/-! ### G5-DDR errors (R204–R206, R209) -/

/-- R206, R211: accesses are made on channel c: it works, or an error on another channel froze the seat in this same cycle. -/
def State.memWorks (s : State) (c : Fin 8) : Bool :=
  let x := s.mem.ch[c].st
  x == .active || x == .quiesced || x == .init || (x == .selfRefresh && s.inMode .frozen && s.mem.frozeAt == some s.nowNs)

/-- R20, R206: an uncorrectable error at local address l: the channel freezes, and the seat goes to `FROZEN`. -/
def State.uncorrectableAt (s : State) (c : Fin 8) (l kind subch src synd cmd : Nat) : State :=
  let s1 := (s.ueRecord c l kind subch src synd cmd).onSys fun y => { y with frozenCh := y.frozenCh ||| (1#8 <<< c.val) }
  let s2 := if s.mem.ch[c].st = .quiesced then s1.quiesceNext (c.val + 1) else s1
  if s.inMode .frozen then s2
  else
    let s3 := s2.freezeDue
    s3.onMem fun m => { m with frozeAt := if s3.inMode .frozen then some s.nowNs else none }

/-- R203, R204, R206: an access at local address l whose beats carry these errors. -/
def State.readErr (s : State) (c : Fin 8) (l src : Nat) (beats : List (BitVec 80)) : State :=
  match readVerdict (beats.take 16) with
  | .clean => s
  | .fixed k e n => s.correctedAt c l src k e n
  | .bad e => s.uncorrectableAt c l 1 0 src (Config.syndrome e).toNat 0

/-- CORRECTED_ERROR (R204) before its upset is carried further. -/
def State.corrected (s : State) (c : Fin 8) (e : CorrErr) : State :=
  if s.memWorks c then s.readErr c (e.ofs.toNat / 128 * 128) e.src.val e.beats else s

def execCorrectedError (c : Fin 8) (e : CorrErr) (s : State) : Host.Outcome State Fault Refusal :=
  .next (s.liveF fun s => s.corrected c e)

/-- UNCORRECTABLE_ERROR (R20, R206): a command/address parity alert, or beats that the code judges. -/
def State.uncorrectable (s : State) (c : Fin 8) (e : UncorrErr) : State :=
  if !s.memWorks c then s
  else if e.parity then
    s.uncorrectableAt c e.ofs.toNat 2 (if e.subch then 1 else 0) e.src.val 0 e.cmd.val
  else s.readErr c (e.ofs.toNat / 128 * 128) e.src.val e.beats

def execUncorrectableError (c : Fin 8) (e : UncorrErr) (s : State) : Host.Outcome State Fault Refusal :=
  .next (s.liveF fun s => s.uncorrectable c e)

/-- CAL_COPY_VERIFIED (R45); a retirement that waited for the staged snapshot follows (R211). -/
def execCalCopyVerified (ok : Bool) (s : State) : Host.Outcome State Fault Refusal :=
  .next (s.live fun s => (s.calVerified ok).when (s.idleWarm || s.inMode .halt) State.memRetire)

/-- CHANNEL_RETIREMENT (R209): a retirement that waits is carried out on entry to `IDLE/WARM` or `HALT`. -/
def execChannelRetirement (s : State) : Host.Outcome State Fault Refusal :=
  .next (s.liveF fun s => s.when (s.idleWarm || s.inMode .halt) State.memRetire)

end Sys2Proof.Machine
end

