-- ==== Sys2Proof/Machine/LaneRows.lean ====
section
/-! DEFINITION. The lane commands (R166–R170, R178, R179, R187–R191, R280, R287): bring-up, received blocks, the module's
status and reports, pattern tests, error injection and eye scans. -/
namespace Sys2Proof.Machine

/-- Lane n of the seat. -/
def State.lane (s : State) (n : Fin 52) : Lane := s.lnk.lanes[n]

/-- From state `a`, lane n goes to state `b`. -/
def State.laneGo (s : State) (n : Fin 52) (a b : LaneSt) : State :=
  if (s.lane n).st = a then s.onLane n fun x => { x with st := b, hdrs := [] } else s

/-! ### Bring-up (R167) -/

/-- LANE_RECEIVER_DETECT (R167): sending starts at a phase of the block boundaries that the rules do not fix (a free value). -/
def State.laneDetected (s : State) (n : Fin 52) : State :=
  if (s.lane n).st = .detect ∧ !(s.lane n).retryWait then
    (s.onLane n fun x => ({ x with st := .train, present := true, hdrs := [], phase := s.freeNat % 512 } : Lane).send
      (s.trainGroup n false)).drawn
  else s

def execLaneReceiverDetect (n : Fin 52) (s : State) : Host.Outcome State Fault Refusal := .next (s.liveF fun s => s.laneDetected n)

/-- LANE_DETECT_TIMEOUT (R167, R289): the failed window counts for R289 only. -/
def State.laneAbsent (s : State) (n : Fin 52) : State :=
  if (s.lane n).st = .detect ∧ !(s.lane n).retryWait then
    s.onLane n fun x => { x with present := false, retryWait := true, failedOnce := true }
  else s

def execLaneDetectTimeout (n : Fin 52) (s : State) : Host.Outcome State Fault Refusal := .next (s.liveF fun s => s.laneAbsent n)

/-- LANE_DETECT_RETRY (R167). -/
def State.laneRetry (s : State) (n : Fin 52) : State :=
  if (s.lane n).st = .detect then s.onLane n fun x => { x with retryWait := false } else s

def execLaneDetectRetry (n : Fin 52) (s : State) : Host.Outcome State Fault Refusal := .next (s.liveF fun s => s.laneRetry n)

/-- LANE_CLOCK_RECOVERED (R167). -/
def execLaneClockRecovered (n : Fin 52) (s : State) : Host.Outcome State Fault Refusal :=
  .next (s.liveF fun s => s.laneGo n .train .bitlock)

/-- LANE_COMMA_ALIGNED (R167). -/
def execLaneCommaAligned (n : Fin 52) (s : State) : Host.Outcome State Fault Refusal :=
  .next (s.liveF fun s => s.laneGo n .bitlock .symlock)

/-- R166, R168: block lock is declared.  READY is sent once the own equaliser has settled too: after DETECT it may have settled by
now or not (a free value), after a relock it is kept. -/
def State.laneLocked (s : State) (n : Fin 52) : State :=
  if (s.lane n).st = .symlock then
    (s.onLane n fun x =>
      let e := x.eqDone || s.freeBit
      ({ x with st := .blocklock, hdrs := List.replicate 64 true, eqDone := e } : Lane).send (s.trainGroup n e)).drawn
  else s

/-- LANE_BLOCK_LOCK (R166, R167). -/
def execLaneBlockLock (n : Fin 52) (s : State) : Host.Outcome State Fault Refusal := .next (s.liveF fun s => s.laneLocked n)

/-- LANE_TRAINING_DONE (R167): the equaliser has settled and READY blocks have gone out; the device capability page goes out. -/
def State.laneTrained (s : State) (n : Fin 52) : State :=
  if (s.lane n).st = .blocklock then
    s.onLane n fun x => ({ x with st := .cap, pages := false, eqDone := true } : Lane).send (s.trainGroup n true ++ [s.capBlock n])
  else s

def execLaneTrainingDone (n : Fin 52) (s : State) : Host.Outcome State Fault Refusal := .next (s.liveF fun s => s.laneTrained n)

/-- CAP_PAGE_SEND (R167, R169): idle once a check has failed. -/
def State.capSend (s : State) (n : Fin 52) : State :=
  if (s.lane n).st = .cap then
    s.onLane n fun x => x.send [if x.pages then s.idleBlock (n.val % 40) else s.capBlock n]
  else s

def execCapPageSend (n : Fin 52) (s : State) : Host.Outcome State Fault Refusal := .next (s.liveF fun s => s.capSend n)

/-! ### Capability pages (R169, R170, R280) -/

/-- R169: the 20 bits of `LNK_MOD_RATE`; of a larger MAX_RATE they show a free value. -/
def rateWord (r : Nat) : Nat := if r < 2 ^ 20 then r else (Config.rateShown r).toNat

/-- R169: what the module's pages say is kept in its registers. -/
def State.modStore (s : State) (n : Fin 40) (p : ModPages) : State :=
  let i := n.val
  let s1 := (((((((s.setF (F.LNK_MOD_ID_VALUE i) p.modId.toNat).setF (F.LNK_MOD_SN_VALUE i) p.serial.toNat).setF
    (F.LNK_MOD_INFO_HEADS i) p.heads.val).setF (F.LNK_MOD_INFO_RATES i) p.rates.toNat).setF (F.LNK_MOD_INFO_DEPTH i)
    p.depth.toNat).setF (F.LNK_MOD_RATE_VALUE i) (rateWord p.maxRate.toNat)).setF (F.LNK_MOD_PREP_VALUE i) p.prep.toNat).setF
    (F.LNK_PAT_FAR_COUNT i) p.patErr.toNat
  let s2 := (List.finRange 4).foldl (fun s (m : Fin 4) =>
    (s.setF (F.LNK_MOD_TYPE_EVEN i m.val) (p.types[2 * m.val]'(by omega)).toNat).setF (F.LNK_MOD_TYPE_ODD i m.val)
      (p.types[2 * m.val + 1]'(by omega)).toNat) s1
  s2.onLane (barLane n) fun x => { x with version := p.version.toNat, maxRate := p.maxRate.toNat, pages := true }

/-- R167, R170, R188: the checks on a module's pages: the lane comes up, or stays in CAP; a relock in `PRINT` retires it. -/
def State.modPages (s : State) (n : Fin 40) (p : ModPages) : State :=
  let s1 := s.modStore n p
  let e := s1.capCheck n
  let s2 := s1.capNote (barLane n) e
  if e = 0 then s2.laneUp n
  else
    let s3 := (s2.onLane (barLane n) fun x => x.send [s2.idleBlock n.val]).event 0x072 n.val
    if s3.inMode .print && (s3.lane (barLane n)).relock then s3.retireDue (laneBoard (barLane n)) else s3

/-- R280: the checks on the other seat's page. -/
def State.seatCheck (s : State) (p : SeatPage) : Nat :=
  if p.version ≠ 1 then 1
  else if p.seat = s.pad.seatId then 2
  else if p.imgSeq ≠ s.cfg.image.seq then 3
  else if p.part ≠ s.cfg.image.part ∨ p.die ≠ s.cfg.image.die then 4
  else if !s.fb F.TBL_CFG_TWIN || !p.twin then 5
  else 0

/-- R280, R281: a Table lane that passes joins the group; the other seat's deal is seen. -/
def State.seatPage (s : State) (n : Fin 52) (p : SeatPage) : State :=
  let e := s.seatCheck p
  let s1 := ((s.onLane n fun x => { x with pages := true }).capNote n e).onTbl fun t => { t with
    otherDeal := p.deal
    deal := if t.holder then t.deal else p.deal }
  if e = 0 then
    s1.onLane n fun x => { x with st := .active, relock := false, inGroup := s1.laneUse n, hdrs := List.replicate 64 true, tx := [] }
  else s1.onLane n fun x => x.send [s1.idleBlock (n.val % 40)]

/-- LANE_CAP_PAGES_RECEIVED (R167, R170, R280): pages of the wrong kind do not occur on a lane. -/
def State.capPages (s : State) (n : Fin 52) (p : CapPages) : State :=
  if (s.lane n).st ≠ .cap ∨ (s.lane n).pages then s
  else if h : n.val < 40 then
    match p with | .module m => s.modPages ⟨n.val, h⟩ m | .seat _ => s
  else
    match p with | .seat q => s.seatPage n q | .module _ => s

def execLaneCapPagesReceived (n : Fin 52) (p : CapPages) (s : State) : Host.Outcome State Fault Refusal :=
  .next (s.liveF fun s => s.capPages n p)

/-- LANE_CAP_TIMEOUT (R167). -/
def State.capTimeout (s : State) (n : Fin 52) : State :=
  if (s.lane n).st = .cap ∧ !(s.lane n).pages then (s.bringUpFailed n).toTrain n (s.lane n).relock else s

def execLaneCapTimeout (n : Fin 52) (s : State) : Host.Outcome State Fault Refusal := .next (s.liveF fun s => s.capTimeout n)

/-- A lane between TRAIN and BLOCKLOCK. -/
def LaneSt.trains (x : LaneSt) : Bool := x == .train || x == .bitlock || x == .symlock || x == .blocklock

/-- LANE_TRAINING_TIMEOUT (R167). -/
def State.trainTimeout (s : State) (n : Fin 52) : State :=
  if (s.lane n).st.trains then (s.bringUpFailed n).laneStart n else s

def execLaneTrainingTimeout (n : Fin 52) (s : State) : Host.Outcome State Fault Refusal := .next (s.liveF fun s => s.trainTimeout n)

/-! ### Lock and blocks (R166, R167, R188, R192) -/

/-- R187, R192: the records whose RECORD_END has not left whole when a Barchan lane drops are void. -/
def State.voidCut (s : State) (n : Fin 40) : State :=
  let s1 := s.laneRun n s.ltm.now
  let x := s1.lane (barLane n)
  let last := match x.recEnd with
    | some (line, e) => if s.ltm.now < e then [line] else []
    | none => []
  (last ++ x.pend.recs.map (·.line)).foldl (fun s line => (s.bump (F.LNK_VOID_CNT_COUNT n.val)).voidLine (n.val / 5) line) s1

/-- R167, R188, R282: an ACTIVE lane loses lock: one upset, and it trains again. -/
def State.lockLost (s : State) (n : Fin 52) : State :=
  if (s.lane n).st ≠ .active then s
  else if h : n.val < 40 then
    let m : Fin 40 := ⟨n.val, h⟩
    ((((s.bump (F.LNK_DOWN_CNT_COUNT n.val)).event 0x071 n.val).voidCut m).toTrain n true).upset (laneBoard n)
  else
    (((s.bump (F.TBL_DOWN_CNT_COUNT (n.val - 40))).toTrain n true).upset (laneBoard n)).groupLost

/-- LANE_LOCK_LOST (R167). -/
def execLaneLockLost (n : Fin 52) (s : State) : Host.Outcome State Fault Refusal := .next (s.liveF fun s => s.lockLost n)

/-- A lane whose receiver finds block headers. -/
def LaneSt.hears (x : LaneSt) : Bool := x == .symlock || x == .blocklock || x == .cap || x == .active

/-- R166: the header counters; Table lanes have none. -/
def State.hdrCount (s : State) (n : Fin 52) (h : RxHdr) : State :=
  if isTbl n then s
  else match h with
    | .invalid => s.bump (F.LNK_HDR_ERR_BAD n.val)
    | .reserved => s.bump (F.LNK_HDR_ERR_RSV n.val)
    | _ => s

/-- R166: code errors are counted, one per bad position. -/
def State.codeCount (s : State) (n : Fin 52) (k : Nat) : State :=
  s.bumpBy (if isTbl n then F.TBL_CODE_ERR_COUNT (n.val - 40) else F.LNK_CODE_ERR_COUNT n.val) k

/-- R166: the header joins the last 64; 64 valid ones declare block lock, 8 invalid ones lose it. -/
def State.hdrJudge (s : State) (n : Fin 52) (h : RxHdr) : State :=
  let l := (decide (h ≠ .invalid) :: (s.lane n).hdrs).take 64
  let s1 := s.onLane n fun x => { x with hdrs := l }
  if (s.lane n).st = .symlock then (if l.length = 64 ∧ l.all (fun b => b) then s1.laneLocked n else s1)
  else if 8 ≤ (l.filter (fun b => !b)).length then s1.lockLost n
  else s1

/-- R166, R167, R282: what a received block does beyond its content, which the content's own command gives. -/
def State.blockIn (s : State) (n : Fin 52) (h : RxHdr) (errs : Nat) (crcOk : Bool) : State :=
  if !(s.lane n).st.hears then s
  else
    let s1 := ((s.hdrCount n h).codeCount n errs).hdrJudge n h
    if errs ≠ 0 then s1
    else if h = .training ∧ crcOk then s1.lockLost n
    else if h = .control ∧ !crcOk ∧ isTbl n then s1.upset (laneBoard n)
    else s1

/-- BLOCK_RECEIVE (R166). -/
def execBlockReceive (n : Fin 52) (h : RxHdr) (codeErrs : Fin 32) (crcOk : Bool) (s : State) : Host.Outcome State Fault Refusal :=
  .next (s.liveF fun s => s.blockIn n h codeErrs.val crcOk)

/-! ### Upstream blocks (R178, R179, R287) -/

/-- A lane on which upstream blocks arrive. -/
def State.hearsMod (s : State) (n : Fin 40) : Bool := (s.lane (barLane n)).st == .active || (s.lane (barLane n)).st == .cap

/-- R287: the holder steps down on a lane with heads whose module reports a higher deal, or on a module that twice reports this
port not active at the seat's own deal. -/
def State.dealJudge (s : State) (n : Fin 40) : State :=
  let x := s.lane (barLane n)
  if s.tbl.holder && ((x.dealAhead && s.laneHasHeads n.val) || decide (2 ≤ x.inactive)) then s.stepDown n.val else s

/-- R178, R179: the deal and the flags of an upstream block. -/
def State.upstream (s : State) (n : Fin 40) (dAcc : BitVec 32) (active : Bool) : State :=
  let x := s.lane (barLane n)
  let ahead := newer dAcc s.tbl.ownDeal
  let s1 := (s.setF (F.LNK_MOD_DEAL_VALUE n.val) dAcc.toNat).onLane (barLane n) fun x => { x with
    dealAhead := ahead
    modActive := active
    inactive := if !active && dAcc == s.tbl.ownDeal then x.inactive + 1 else 0 }
  (s1.when (ahead && !x.dealAhead) fun s => s.event 0x074 n.val).dealJudge n

/-- R157, R178: T and V of one head; a missing value counts as no status. -/
def State.headStatus (s : State) (n : Fin 40) (loc : Nat) (t v : BitVec 16) : State :=
  if t = 0x8000 ∨ v = 0xFFFF then s
  else (s.laneHeads n.val).foldl (fun s h =>
    if h.loc = loc then
      s.onLHead (headIdx (n.val / 5) h.h) fun x => { x with tv := some (t.toInt, v.toNat), since := 0, stale := false }
    else s) s

/-- MODULE_STATUS_BLOCK (R178, R179). -/
def State.statusIn (s : State) (n : Fin 40) (b : StatusBlock) : State :=
  if !s.hearsMod n then s
  else
    let s1 := s.setF (F.LNK_MOD_LAST_VALUE n.val) b.lastRec.toNat
    let s2 := (List.finRange 4).foldl (fun s (j : Fin 4) =>
      s.headStatus n ((if b.upper then 4 else 0) + j.val) b.tv[j].1 b.tv[j].2) s1
    s2.upstream n b.dAcc b.active

def execModuleStatusBlock (n : Fin 40) (b : StatusBlock) (s : State) : Host.Outcome State Fault Refusal :=
  .next (s.liveF fun s => s.statusIn n b)

/-- The print line a record index of 32 bits names: the latest one that the lane can have sent. -/
def State.lineOfIndex (s : State) (b : Nat) (index : Nat) : Nat :=
  let top := s.lineOf b + 1
  pl (top + 2 ^ 48 - (((top : Int) - (index : Int)) % 4294967296).toNat)

/-- R179: a report is counted, with the reports missing before it. -/
def State.reportCount (s : State) (n : Fin 40) (r : ModReport) : State :=
  let gap := match (s.lane (barLane n)).reports with
    | some p => (((r.count.toNat : Int) - p - 1) % 65536).toNat
    | none => 0
  let s1 := (s.bumpBy (F.LNK_REJ_CNT_MISSED n.val) gap).onLane (barLane n) fun x => { x with reports := some r.count.toNat }
  match r.kind with
  | 1 => s1.bump (F.LNK_REJ_CNT_REC n.val)
  | 2 => s1.bump (F.LNK_REJ_CNT_TIM n.val)
  | 3 => s1.bump (F.LNK_MISS_CNT_COUNT n.val)
  | _ => s1

/-- R179, R188: a rejected record voids its line; a rejected record or timing set is an upset. -/
def State.reportActs (s : State) (n : Fin 40) (r : ModReport) : State :=
  match r.kind with
  | 1 =>
    let s1 := (s.when (!s.inMode .standby) fun s => s.voidLine (n.val / 5) (s.lineOfIndex (n.val / 5) r.index.toNat)).event 0x073 n.val
    s1.upset (laneBoard (barLane n))
  | 2 => s.upset (laneBoard (barLane n))
  | _ => s

/-- MODULE_REPORT (R179). -/
def State.reportIn (s : State) (n : Fin 40) (r : ModReport) : State :=
  if !s.hearsMod n then s else ((s.reportCount n r).reportActs n r).upstream n r.dAcc r.active

def execModuleReport (n : Fin 40) (r : ModReport) (s : State) : Host.Outcome State Fault Refusal :=
  .next (s.liveF fun s => s.reportIn n r)

/-! ### Pattern tests, error injection, eye scans (R189–R192) -/

/-- A scan abandoned: its results are invalid. -/
def Lane.noScan (x : Lane) : Lane := if x.eyeBusy then { x with eyeBusy := false, eyeValid := false, eyeW := 0, eyeH := 0 } else x

/-- R189: the pattern a lane is set to, 1 µs after TEST. -/
def State.rawPat (s : State) (n : Nat) : RawPat :=
  { pat := s.f (F.LNK_PAT_CFG_PAT n), inv := s.fb (F.LNK_PAT_CFG_INV n), user := s.f (F.LNK_PAT_USER_PATTERN n) }

/-- PATTERN_TEST_GO (R189, R192): only in `SERVICE` on an ACTIVE lane. -/
def State.patGo (s : State) (ses : Fin 5) (n : Fin 40) : State :=
  s.sesCmd ses .installer (0x120068 + n.val * 0x400) 1 fun s =>
    if s.inMode .service ∧ (s.lane (barLane n)).st = .active then
      some ((((s.setF (F.LNK_PAT_ERR_COUNT n.val) 0).setF (F.LNK_PAT_BITS_COUNT n.val) 0).setF (F.LNK_PAT_FAR_COUNT n.val) 0).onLane
        (barLane n) fun x => { (x.noScan.control (s.idleBlock n.val) [s.testBlock n.val]) with
          st := .test, patSync := false, hdrs := [], recEnd := none, raw := some (s.rawPat n.val) })
    else none

def execPatternTestGo (ses : Fin 5) (n : Fin 40) (s : State) : Host.Outcome State Fault Refusal := .next (s.patGo ses n)

/-- LANE_TEST_END (R189): the counts of the checker over the bits `rx` received during the test, and the lane retrains. -/
def State.testEnd (s : State) (n : Fin 40) (rx : List Bool) : State :=
  if (s.lane (barLane n)).st = .test then
    let c := ((s.lane (barLane n)).raw.getD (s.rawPat n.val)).check rx
    (((s.setF (F.LNK_PAT_ERR_COUNT n.val) (min c.errs 0xFFFFFFFF)).setF (F.LNK_PAT_BITS_COUNT n.val)
      (min (c.bits / 2 ^ 20) 0xFFFFFFFF)).onLane (barLane n) fun x => { x with patSync := c.sync }).toTrain (barLane n) false
  else s

/-- The bits that LANE_TEST_END spells: `lead`, then `body` again and again. -/
def rxBits (lead body : List Bool) (times : Nat) : List Bool := lead ++ (List.replicate times body).flatten

def execLaneTestEnd (n : Fin 40) (lead body : List Bool) (times : Nat) (s : State) : Host.Outcome State Fault Refusal :=
  .next (s.liveF fun s => s.testEnd n (rxBits lead body times))

/-- The word of an `LNK_INJ` write. -/
def injWord (kind blk pos bit count confirm : Nat) : Word :=
  BitVec.ofNat 32 (kind + blk * 4 + pos * 32 + bit * 1024 + count * 65536 + confirm * 16777216)

/-- R190: the injection a write of `LNK_INJ` asks for. -/
def injOf (w : Nat) : Inject :=
  { left := max 1 (bits w 16 8)
    kind := bits w 0 2
    blk := if bits w 2 3 = 7 then 0 else bits w 2 3
    pos := max 1 (bits w 5 5)
    bit := if 10 ≤ bits w 10 4 then 0 else bits w 10 4 }

/-- R190: the blocks a lane sends while nothing else is pending, which an injection can take at once: idle, or training groups. -/
def State.fillers (s : State) (n : Fin 40) (k : Nat) : List Block :=
  let x := s.lane (barLane n)
  if x.st.trains then (List.replicate k (s.trainGroup (barLane n) (x.st == .blocklock && x.eqDone))).flatten
  else if (x.st == .active || x.st == .cap) && x.pend.size == 0 then List.replicate k (s.idleBlock n.val)
  else []

/-- R190: an injection is scheduled on the next blocks of its type. -/
def State.inject (s : State) (n : Fin 40) (i : Inject) : State :=
  s.onLane (barLane n) fun x => ({ x with inj := i } : Lane).send (s.fillers n i.left)

/-- ERROR_INJECT (R190). -/
def State.injCmd (s : State) (ses : Fin 5) (n : Fin 40) (w : Word) : State :=
  s.sesCmd ses .maker (0x120080 + n.val * 0x400) w fun s =>
    if bits w.toNat 24 8 = 0xA5 then some (s.inject n (injOf w.toNat)) else none

def execErrorInject (ses : Fin 5) (n : Fin 40) (kind : Fin 4) (blk : Fin 8) (pos : Fin 32) (bit : Fin 16) (count confirm : Byte)
    (s : State) : Host.Outcome State Fault Refusal :=
  .next (s.injCmd ses n (injWord kind.val blk.val pos.val bit.val count.toNat confirm.toNat))

/-- The eye scan command register of a lane. -/
def eyeAddr (n : Fin 52) : Nat := if n.val < 40 then 0x120090 + n.val * 0x400 else 0x1A0110 + (n.val - 40) * 0x40

/-- R191: a write of the eye scan command: GO starts a scan; STOP abandons it, one that the same write starts too. -/
def State.eyeCmd (s : State) (ses : Fin 5) (n : Fin 52) (w : Word) : State :=
  s.sesCmd ses .installer (eyeAddr n) w fun s =>
    let go := bits w.toNat 0 1 = 1
    let stop := bits w.toNat 1 1 = 1
    if go ∨ stop then
      some (s.onLane n fun x =>
        let x1 := if go then { x with eyeBusy := true, eyeDwell := bits w.toNat 2 4, eyeValid := false, eyeW := 0, eyeH := 0 } else x
        if stop then x1.noScan else x1)
    else none

/-- EYE_SCAN_GO (R191). -/
def execEyeScanGo (ses : Fin 5) (n : Fin 52) (dwell : Fin 16) (s : State) : Host.Outcome State Fault Refusal :=
  .next (s.eyeCmd ses n (BitVec.ofNat 32 (1 + dwell.val * 4)))

/-- EYE_SCAN_STOP (R191). -/
def execEyeScanStop (ses : Fin 5) (n : Fin 52) (s : State) : Host.Outcome State Fault Refusal := .next (s.eyeCmd ses n 2)

/-- EYE_SCAN_COMPLETE (R191): the 64 phases and 128 voltages of a scan, open or not; it runs only while its lane is ACTIVE. -/
def State.eyeOver (s : State) (n : Fin 52) (phases : BitVec 64) (volts : BitVec 128) : State :=
  if (s.lane n).eyeBusy ∧ (s.lane n).st = .active then
    s.onLane n fun x => { x with eyeBusy := false, eyeValid := true, eyeW := eyeWidth phases, eyeH := eyeHeight volts }
  else s

def execEyeScanComplete (n : Fin 52) (phases : BitVec 64) (volts : BitVec 128) (s : State) : Host.Outcome State Fault Refusal :=
  .next (s.liveF fun s => s.eyeOver n phases volts)

end Sys2Proof.Machine
end

