-- ==== Sys2Proof/Machine/Modes.lean ====
section
/-! DEFINITION. Requests (R26–R28): which are legal, what they do, when they wait; binding a job (R97, R122, R128, R130, R151,
R170, R174, R274, R357); `IDLE/COLD` (R29, R30). -/
namespace Sys2Proof.Machine

/-! ### Binding a job -/

/-- R97, R107: the Ace layer of a job at a bind: REQUIRED needs a usable one, and one that is named holds its seal still. -/
def State.aceOk (s : State) (j : Job) (d : Obj) : Bool :=
  match (if dAce d.bytes = 0xFFFF then none else j.usable (dAce d.bytes)) with
  | some a => if a.cls = 16 then s.sealOk a.bytes a.crc else !s.fb F.LYR_ACE_POLICY_REQUIRED
  | none => !s.fb F.LYR_ACE_POLICY_REQUIRED

/-- R122, R128, R130, R151, R170, R174: bar b is fit to print. -/
def State.barFit (s : State) (b : Nat) : Bool :=
  s.geomOk b && !s.htnBad b && !s.tgtBad b && !s.depthBadOn b &&
    (List.finRange 40).all (fun n => decide (n.val / 5 ≠ b) || !s.laneHasHeads n.val ||
      (s.lnk.lanes[barLane n].st == .active && !s.lnk.lanes[barLane n].capBad && !s.preShort n))

/-- R357: the bars a bind takes. -/
def State.bindBars (s : State) : BitVec 8 := BitVec.ofNat 8 (((upto 8).map (fun b => if s.hasHeads b then 2 ^ b else 0)).foldl (· + ·) 0)

/-- R27, R97: the handle names a usable job. -/
def State.bindJobOk (s : State) (h : BitVec 16) : Bool :=
  match s.job? h with
  | none => false
  | some j => (j.st == .staged || (j.st == .opened && j.streaming)) &&
      (match j.usable 0 with | some d => s.aceOk j d | none => false)

/-- Every condition of a bind on the press. -/
def State.pressOk (s : State) : Bool :=
  !s.pitchBad && !s.lampBars && s.mem.fill.isEmpty && (upto 8).all (fun b => !s.hasHeads b || s.barFit b)

/-- R170: every lane that carries heads is checked again at a bind. -/
def State.bindPrep (s : State) : State :=
  (List.finRange 40).foldl (fun s n => if s.laneHasHeads n.val then s.capRecheck n else s) s

/-- R26, R150, R357: the job is bound on its bars; the first one to print starts at G + 1. -/
def State.bind (s : State) (h : BitVec 16) : State :=
  let first := !s.inMode .print && !s.sys.jobs.any (fun j => s.composes j)
  let bj : BJob := { handle := h, bars := s.bindBars, gap := s.f F.LTM_JOB_GAP_LINES,
                     start := if first then some (pl (s.ltm.g.toNat + 1)) else none }
  ((s.onJobs fun l => l ++ [bj]).modJob (tagOf h) fun j => { j with st := .bound, printed := 0, runs := [], archBytes := 0 }).settleStarts

/-- R176: FLUSH at entry to `READY` from `IDLE`, before a lane's first record. -/
def State.readyFlush (s : State) : State :=
  if !s.leads then s
  else (List.finRange 40).foldl (fun s n =>
    let x := s.lnk.lanes[barLane n]
    if x.st = .active ∧ !x.sent ∧ s.laneHasHeads n.val then
      s.onLane (barLane n) fun x => x.control (s.idleBlock n.val) [s.flushBlock]
    else s) s

/-! ### IDLE/COLD (R29, R30) -/


/-- R29, R241: a calibration runs. -/
def State.calRunning (s : State) : Bool := !s.chl.running.isEmpty || s.enc.ch.any (fun x => x.cal != .none)

/-- R29: an ingest descriptor is outstanding. -/
def State.descOut (s : State) : Bool :=
  s.ing.rings.any (fun r => !r.out.isEmpty || !r.pull.isEmpty || (r.en && !r.err && r.prod != r.cons))

/-- R29: the conditions of entry other than calibrations. -/
def State.coldFit (s : State) : Bool :=
  s.idleWarm && s.cvq.all (fun q => decide (q.fill = 0) && q.held.isNone) && s.mot.rest && !s.descOut

/-- R186: a lane that sends electrical idle. -/
def State.laneDown (s : State) (n : Fin 52) : State :=
  s.onLane n fun x => { x with st := if x.st = .retired then .retired else .disabled, hdrs := [], tx := [], recEnd := none,
                               pages := false, pend := {}, raw := none, eqDone := false }

/-- R29: what the entry does besides the mode: every rank in self-refresh, the gated lanes down. -/
def State.coldRest (s : State) : State :=
  (List.finRange 52).foldl (fun s n => if isTbl n then s else s.laneDown n) s.othersRest

/-- R29: the seat enters `IDLE/COLD`. -/
def State.coldEnter (s : State) : State := (s.coldRest).setMode .idle true

/-- R30: what a wake does besides the mode: self-refresh is left with the current band's delay set, the lanes start, positions
wait for a reference (R140). -/
def State.coldWarm (s : State) : State :=
  let s1 := s.onMem fun m => { m with band := s.thm.band, ch := m.ch.map (fun x => if x.st = .selfRefresh then { x with st := .active, dly := s.thm.band } else x) }
  s1.encWake.lanesStart (fun n => !isTbl n)

/-- IDLE_TIMER_EXPIRY (R29). -/
def execIdleTimerExpiry (s : State) : Host.Outcome State Fault Refusal :=
  .next (s.live fun s => s.when (s.fb F.SYS_IDLE_CFG_COLD_AUTO && s.coldFit && !s.calRunning && !s.sys.waking) State.coldEnter)

/-- IDLE_COLD_ENTRY (R28): the entry that waits proceeds once no calibration runs; where the other conditions no longer hold the
request is ignored. -/
def State.coldTry (s : State) : State :=
  if !s.sys.coldPend || s.calRunning then s
  else
    let s1 := s.onSys fun y => { y with coldPend := false, req := none }
    if s1.coldFit then (s1.forward (.request { code := 2 } s.ltm.g.toNat)).coldEnter else s1.reqRejected

def execIdleColdEntry (s : State) : Host.Outcome State Fault Refusal := .next (s.live State.coldTry)

/-! ### Which requests are legal (R26–R28) -/

/-- R26: the role a request needs beyond operator. -/
def reqRole (r : ModeReq) : Role :=
  if r.code = 2 ∨ r.code = 8 ∨ (r.code = 5 ∧ r.fn ≠ .mechanics) then .installer else .operator

/-- The word a request writes; a service function is spelt in the ignored bits, so that a write held or put off keeps it. -/
def reqWord (r : ModeReq) : Word :=
  BitVec.ofNat 32 (r.code + 16 * (match r.fn with | .mechanics => 0 | .calPrint => 1 | .laneTest => 2) + 65536 * r.handle.toNat)

/-- The request a word of `SYS_MODE_REQ` spells. -/
def reqOf (w : Nat) : ModeReq :=
  { code := bits w 0 4, handle := BitVec.ofNat 16 (bits w 16 16)
    fn := match bits w 4 2 with | 1 => .calPrint | 2 => .laneTest | _ => .mechanics }

/-- R299: the other seat holds the Trump and the group has formed. -/
def State.joinOk (s : State) : Bool := s.fb F.TBL_CFG_TWIN && !s.tbl.holder && s.tbl.renewed && s.groupUp

/-- Bound jobs still to print (R76). -/
def State.toPrint (s : State) : Nat := (s.sys.jobs.filter (fun j => s.composes j)).length

/-- R26: a request is listed for the current mode and its conditions hold. -/
def State.reqLegal (s : State) (r : ModeReq) : Bool :=
  match s.sys.mode with
  | .idle =>
    if s.sys.cold then decide (r.code = 1) || (decide (r.code = 8) && s.joinOk)
    else decide (r.code = 2 ∧ s.coldFit) || decide (r.code = 5) || (decide (r.code = 8) && s.joinOk)
      || (decide (r.code = 3) && s.pressOk && s.bindJobOk r.handle)
  | .ready =>
    decide (r.code = 1 ∨ r.code = 6) || (s.sys.flow != .leave && (decide (r.code = 4)
      || (decide (r.code = 3) && !s.sys.jobs.isEmpty && decide (s.toPrint ≤ 1) && s.pressOk && s.bindJobOk r.handle)))
  | .print => decide (r.code = 6) || (decide (r.code = 3) && decide (s.toPrint ≤ 1) && s.pressOk && s.bindJobOk r.handle)
  | .service => decide (r.code = 6) || (decide (r.code = 9) && s.sys.flow != .leave)
  | .halt => decide (r.code = 7) && s.pad.estop && decide (s.thm.temp < 2400)
  | _ => false

/-- R26, R27, R261: a request that is accepted and waits with REQ_PEND = 1. -/
def State.reqWaits (s : State) (r : ModeReq) : Bool :=
  match s.sys.mode with
  | .print => true
  | .ready => decide (r.code = 4) && s.sys.flow == .enter
  | .halt => s.sys.seqStep == .lift || s.sys.seqStep == .cap
  | .idle => decide (r.code = 2) && s.calRunning
  | _ => false

/-! ### What a request does -/


/-- R76: the bound job that prints first is PRINTING. -/
def State.firstPrints (s : State) : State :=
  match s.sys.jobs.find? (fun j => s.jobSt j.handle == .bound) with
  | some bj => s.modJob (tagOf bj.handle) fun j => { j with st := .printing }
  | none => s

/-- R26, R150: `PRINT` is entered; firing is armed and the first job starts at G + 1. -/
def State.printStarts (s : State) : State :=
  let s1 := (s.settleStarts).arm.setMode .print false
  s1.settleStarts.firstPrints

/-- R26, R24: `SERVICE` is entered; a calibration print or a lane test fires lines. -/
def State.serviceStarts (s : State) (fn : ServiceFn) : State :=
  let s1 := (s.onSys fun y => { y with svc := some fn }).setMode .service false
  if fn = .mechanics then s1 else s1.arm

/-- R26: `SERVICE` is left. -/
def State.serviceLeaves (s : State) : State :=
  s.firingOver.leaveFlow false

/-- R348: code 0x7 clears the latch of `ESTOP_N`. -/
def State.unlatch (s : State) : State := s.onPad fun p => if p.estop then { p with latched := false } else p

/-- R26: what an accepted request does; `held`: it waited from `PRINT`. -/
def State.reqDo (s : State) (r : ModeReq) (held : Bool) : State :=
  match r.code with
  | 1 => if s.inMode .ready then s.readyLeaves else s.wake
  | 2 => s.coldEnter
  | 3 =>
    let fresh := s.inMode .idle
    let s1 := s.bind r.handle
    if fresh then (s1.setMode .ready false).readyFlush.enterFlow else s1
  | 4 => s.printStarts
  | 5 => s.serviceStarts r.fn
  | 6 => s.stopDo held
  | 7 => s.unlatch.clearHalt
  | 8 => (s.onTbl fun t => { t with joining := true, resync := 0 }).wake
  | 9 => s.serviceLeaves
  | _ => s

/-- R26, R27, R290: a request takes effect and is forwarded with G of the last grid line. -/
def State.reqAct (s : State) (r : ModeReq) (held : Bool) : State := (s.forward (.request r s.ltm.g.toNat)).reqDo r held

/-- R26–R28: a request arrives; second: it is accepted. -/
def State.request (s : State) (r : ModeReq) : State × Bool :=
  if r.code = 6 then s.stopReq r
  else if s.sys.req.isSome || s.sys.stopping then (s.reqRejected, false)
  else
    let s1 := if r.code = 3 then s.bindPrep else s
    if !s1.reqLegal r then (s1.reqRejected, false)
    else if s1.reqWaits r then (s1.onSys fun y => { y with req := some r, coldPend := decide (r.code = 2) }, true)
    else (s1.reqAct r false, true)

/-- A `SYS_MODE_REQ` write by a session (R26): below its role a request is ignored; a seat in `STANDBY` takes code 0x7 only, to
clear its own latch (R291). -/
def State.modeReq (s : State) (ses : Fin 5) (r : ModeReq) : State :=
  s.sesReach ses .operator 0x104 (reqWord r) fun s =>
    if !s.may ses (reqRole r) || decide (r.code = 0) || decide (9 < r.code) then s
    else if s.inMode .standby then (if r.code = 7 then s.unlatch.auditWrite ses 0x104 0 (reqWord r).toNat else s)
    else
      let w := s.writer ses
      let a := s.request { r with who := some (w.ses, w.role) }
      if a.2 then a.1.auditWrite ses 0x104 0 (reqWord r).toNat else a.1

/-- A request of a session, and the freeze or yield that waited where it ends firing. -/
def State.reqCmd (s : State) (ses : Fin 5) (r : ModeReq) : State := (s.modeReq ses r).settleFaults

def execReqIdleWarm (ses : Fin 5) (s : State) : Host.Outcome State Fault Refusal := .next (s.reqCmd ses { code := 1 })
def execReqIdleCold (ses : Fin 5) (s : State) : Host.Outcome State Fault Refusal := .next (s.reqCmd ses { code := 2 })
def execReqBindJob (ses : Fin 5) (handle : BitVec 16) (s : State) : Host.Outcome State Fault Refusal :=
  .next (s.reqCmd ses { code := 3, handle := handle })
def execReqRun (ses : Fin 5) (s : State) : Host.Outcome State Fault Refusal := .next (s.reqCmd ses { code := 4 })
def execReqEnterService (ses : Fin 5) (fn : ServiceFn) (s : State) : Host.Outcome State Fault Refusal :=
  .next (s.reqCmd ses { code := 5, fn := fn })
def execReqStop (ses : Fin 5) (s : State) : Host.Outcome State Fault Refusal := .next (s.reqCmd ses { code := 6 })
def execReqClearHalt (ses : Fin 5) (s : State) : Host.Outcome State Fault Refusal := .next (s.reqCmd ses { code := 7 })
def execReqJoinStandby (ses : Fin 5) (s : State) : Host.Outcome State Fault Refusal := .next (s.reqCmd ses { code := 8 })
def execReqLeaveService (ses : Fin 5) (s : State) : Host.Outcome State Fault Refusal := .next (s.reqCmd ses { code := 9 })

/-! ### Requests that waited (R26, R27, R261) -/

/-- A request that waited takes effect, or is ignored if its conditions no longer hold. -/
def State.reqApply (s : State) : State :=
  match s.sys.req with
  | none => s
  | some r =>
    let s0 := s.onSys fun y => { y with req := none, coldPend := false }
    let s1 := if r.code = 3 then s0.bindPrep else s0
    if s1.sys.stopping then (if r.code = 6 then s1 else s1.reqRejected)
    else if s1.reqLegal r then s1.reqAct r true
    else s1.reqRejected

/-- R27: at a line boundary of bar 0, or 100 µs after its arrival, a request made in `PRINT` takes effect, and firing ends where
a stop asks for it. -/
def State.boundaryActs (s : State) : State :=
  let s1 := s.reqApply
  if s1.sys.endFiring then s1.firingEnds else s1

/-- REQUEST_TIMEOUT (R27). -/
def execRequestTimeout (s : State) : Host.Outcome State Fault Refusal :=
  .next (s.liveF fun s => s.when (s.inMode .print || s.sys.endFiring) State.boundaryActs)

/-- PENDING_REQUEST_APPLY (R26, R261): LOWER is done, or the sequences of `HALT` have ended. -/
def execPendingRequestApply (s : State) : Host.Outcome State Fault Refusal :=
  .next (s.live fun s =>
    match s.sys.req with
    | none => s
    | some r => if s.inMode .standby || s.reqWaits r then s else s.reqApply)

end Sys2Proof.Machine
end

