-- ==== Sys2Proof/Machine/Queues.lean ====
section
/-! DEFINITION. What entry writes and pointer resets of the Caravan queues do in the blocks beside a queue (R56–R65). -/
namespace Sys2Proof.Machine

/-! ### Entry writes (R56–R59) -/

/-- R56, R57: an entry that queue q's producer writes: of its kind and size; a lane with no heads has none. -/
def State.entryFits (s : State) (q : Fin 64) : Entry → Bool
  | .lane r => decide (q.val < 40) && decide (s.recBytes q.val ≠ 0) && decide (cdiv r.data.length 64 * 64 = s.recBytes q.val)
  | .chunk b => decide (40 ≤ q.val ∧ q.val < 48) && decide (b.length ≤ 4096)
  | .frame x => decide (48 ≤ q.val ∧ q.val < 52) && decide (x.cam / 2 + 48 = q.val)
  | .stats r => decide (52 ≤ q.val ∧ q.val < 56) && decide (r.cam / 2 + 52 = q.val)
  | .arch p => decide (56 ≤ q.val ∧ q.val < 60) && decide (p.bar / 2 + 56 = q.val) && decide (p.data.length ≤ 4096)
  | .evt _ => decide (60 ≤ q.val)

/-- R59: a frame segment that no group of the model expects: its frame is dropped as a whole where it finds its queue full, with a
record flagged MISSING under its number. -/
def State.segOffer (s : State) (q : Fin 64) (x : FrameSeg) : State :=
  if h : x.cam < 8 then
    let k : Fin 8 := ⟨x.cam, h⟩
    if s.vis.cam[k].cutFrame = some x.frame then
      s.when x.last fun s => s.onCam k fun c => { c with cutFrame := none }
    else
      let s0 := s.settle q
      if s0.tailRoom q then s0.qPut q (.frame x)
      else
        (((s0.bump (F.CVQ_DROP_DROP q)).onCam k fun c => { c with cutFrame := if x.last then none else some x.frame }).missing k
          { frame := x.frame } true)
  else s

/-- R58, R59: an entry of queue q's producer. -/
def State.entryIn (s : State) (q : Fin 64) (e : Entry) : State :=
  if !s.entryFits q e then s
  else match e with
    | .frame x => (match s.segGrp x with
      | some (k, g) => s.segPut k g.frame x
      | none => s.segOffer q x)
    | _ => s.qOffer q e

/-- QUEUE_ENTRY_WRITE (R58, R59, R61): an entry that the queue's producer does not write is none (log entry 50). -/
def execQueueEntryWrite (q : Fin 64) (e : Entry) (s : State) : Host.Outcome State Fault Refusal :=
  .next (s.live fun s => s.entryIn q e)

/-! ### Pointer resets (R63–R65) -/

/-- The frames of the segments a queue held, each once. -/
def framesOf : List Entry → List (Nat × Nat)
  | [] => []
  | .frame x :: t => if (framesOf t).contains (x.cam, x.frame) then framesOf t else (x.cam, x.frame) :: framesOf t
  | _ :: t => framesOf t

/-- R64: frames lost with their queue: each yields a record flagged MISSING, and no more of it is taken. -/
def State.framesLost (s : State) (l : List (Nat × Nat)) : State :=
  l.foldl (fun s x =>
    if h : x.1 < 8 then
      let k : Fin 8 := ⟨x.1, h⟩
      match s.vis.cam[k].grps.find? (fun g => g.frame = x.2) with
      | some g =>
        if g.dropped then s
        else ((s.onGrp k x.2 fun g => { g with dropped := true }).missing k g true).onCam k fun c => { c with
          grps := c.grps.filter (fun g => !(g.dropped && g.closed)) }
      | none => s
    else s) s

/-- The records a statistics queue held. -/
def statsOf : List Entry → List StatRec
  | [] => []
  | .stats r :: t => r :: statsOf t
  | _ :: t => statsOf t

/-- R64: records lost with their queue: CHL takes their groups for MISSING, also one it has read in part. -/
def State.statsLost (s : State) (l : List StatRec) : State :=
  (s.bumpBy F.CHL_SKIP_CNT_COUNT (l.filter (·.last)).length).onChl fun c => { c with
    gather := Vector.ofFn (fun (k : Fin 8) => if l.any (fun r => r.cam = k.val) then [] else c.gather[k]) }

/-- R64: what the reset of queue q costs, by class. -/
def State.qResetCost (s : State) (q : Fin 64) (lost : List Entry) : State :=
  if q.val < 40 then
    s.when (s.tbl.inStep || s.tbl.joining) fun s => s.onTbl fun t => { t with
      digs := t.digs ++ (laneLines lost).map (fun n => { lane := q.val, line := n, own := true, val := none }) }
  else if h : 40 ≤ q.val ∧ q.val < 48 then
    s.onIng fun g => { g with
      rings := vmod g.rings ⟨q.val - 40, by omega⟩ (fun r => { r with pull := chunksOf lost ++ r.pull }) }
  else if q.val < 52 then s.framesLost (framesOf lost)
  else if q.val < 56 then s.statsLost (statsOf lost)
  else if q.val < 60 then
    match archsOf lost with
    | [] => s
    | p :: t => (s.markLost (p :: t)).raise 0x035 p.bar p.line
  else s

/-- R63: a pointer reset.  EVT_QPTR of an event queue is the first record written into it, any EVT_EVQ_LOST owed follows. -/
def State.pointerReset (s : State) (q : Fin 64) : State :=
  let lost := s.cvq[q].all
  let s1 := (s.onQ q Queue.flush).bump (F.CVQ_STAT_RESETS q)
  match evtIdx q with
  | some i => (s1.evtStore i (s1.evtRec 0x020 15 q.val)).evqLost i
  | none => (s1.qResetCost q lost).event 0x020 q.val

/-- QUEUE_POINTER_MISMATCH (R63–R65). -/
def execQueuePointerMismatch (q : Fin 64) (s : State) : Host.Outcome State Fault Refusal :=
  .next (s.live fun s => s.pointerReset q)

end Sys2Proof.Machine
end

