-- ==== Sys2Proof/Machine/Thm.lean ====
section
/-! DEFINITION. Temperature (R303–R313, R317): the diode, the band, the throttle step, the rate of rise, the two thermal stops and
`ALERT_N`. -/
namespace Sys2Proof.Machine

/-! ### Settings -/

/-- R17: the lowest temperature of a band in 1/16 °C; band 0 has none. -/
def bandLow : Nat → Int
  | 1 => 0 | 2 => 1360 | 3 => 1760 | 4 => 2160 | _ => -32768

/-- The band a temperature lies in. -/
def bandOf (t : Int) : Nat := if t < 0 then 0 else if t < 1360 then 1 else if t < 1760 then 2 else if t < 2160 then 3 else 4

/-- R305: the band after a temperature: up in the cycle the bound is reached, down once T is 2 °C below the band's own. -/
def nextBand (b : Nat) (t : Int) : Nat := if b < bandOf t then bandOf t else if 0 < b ∧ t ≤ bandLow b - 32 then max (bandOf t) (b - 1) else b

/-- R317: the threshold of step k, none above 149 °C and none below the one before it. -/
def State.stepThr (s : State) : Nat → Int
  | 0 => -32768
  | k + 1 => max (s.stepThr k) (min 2384 (s.fi (F.THM_STEP_T_T k)))

/-- The highest step whose threshold T has reached. -/
def State.stepOf (s : State) (t : Int) : Nat := ((upto 5).filter (fun k => decide (s.stepThr k ≤ t))).foldl max 0

/-- `THM_RISE_WARN` and `THM_RISE_STOP` as used, in 1/64 °C/s. -/
def State.riseWarn (s : State) : Int := clampN 16 384 (s.f F.THM_RISE_WARN_RATE)
def State.riseStop (s : State) : Int := max (clampN 64 768 (s.f F.THM_RISE_STOP_RATE) : Int) s.riseWarn

/-- DWELL in readings of 100 µs. -/
def State.dwell (s : State) : Nat := 1000 * max 1 (s.f F.THM_STEP_CFG_DWELL)

/-! ### The throttle step (R307) -/

/-- The sum of R307. -/
def Thm.sum (t : Thm) : Nat := min 4 (t.sAbs + if t.sRate then 1 else 0)

/-- EVT_THM_STEP. -/
def State.stepEvent (s : State) : State := s.event 0x0E1 (s.thm.step + 16 * s.thm.sAbs + (if s.thm.sRate then 256 else 0))

/-- R307: a rise of the sum above S takes effect at once. -/
def State.stepRise (s : State) : State :=
  if s.thm.step < s.thm.sum then
    ((s.onThm fun t => { t with step := t.sum }).bump F.THM_STEP_CNT_COUNT).stepEvent
  else s

/-- R307: S_abs at a temperature. -/
def State.absTick (s : State) (t : Int) : State :=
  let k := s.stepOf t
  let x := s.thm
  if x.sAbs < k then s.onThm fun y => { y with sAbs := k, absDwell := 0 }
  else if 0 < x.sAbs ∧ t ≤ s.stepThr x.sAbs - 32 then
    if s.dwell ≤ x.absDwell + 1 then s.onThm fun y => { y with sAbs := y.sAbs - 1, absDwell := 0 }
    else s.onThm fun y => { y with absDwell := y.absDwell + 1 }
  else s.onThm fun y => { y with absDwell := 0 }

/-- THROTTLE_STEP_DOWN (R307): DWELL has passed with the sum below S and since the last change of S. -/
def State.stepDownS (s : State) : State :=
  if s.thm.sum < s.thm.step then (s.onThm fun t => { t with step := t.step - 1 }).stepEvent else s

def execThrottleStepDown (s : State) : Host.Outcome State Fault Refusal := .next (s.live State.stepDownS)

/-! ### Stops (R309–R312) -/

/-- R309: the stop predicted to end at 155 °C or more, with `ms10` × 10 ms left. -/
def State.tooHot (s : State) (ms10 : Nat) : Bool := decide (992000 ≤ s.thm.temp * 400 + max 0 s.thm.rho * ms10)

/-- The length of the orderly stop in 10 ms. -/
def State.stopTime (s : State) : Nat := max 1 (s.f F.THM_STOP_TIME_T10MS)

/-- T as an event argument. -/
def State.tArg (s : State) : Nat := twos 16 s.thm.temp

/-- R311, R312: the immediate stop is taken. -/
def State.immediate (s : State) : State :=
  if s.inMode .boot then s.onThm fun t => { t with bootStop := 2 }
  else
    let s1 := ((s.onThm fun t => { t with stop := 2 }).bump F.THM_ISTOP_CNT_COUNT).event 0x0E3 s.tArg
    let gate := fun (s : State) => s.onThm fun t => { t with gated := true }
    match s.sys.mode with
    | .halt => s1
    | .frozen => s1
    | .standby => ((gate s1).leaveStep 5).emergency 5
    | _ => (gate s1).emergency 5

/-- R310, R312, R317: the orderly stop is taken, in the modes that move the web. -/
def State.thermalStop (s : State) : State :=
  match s.sys.mode with
  | .boot => s.onThm fun t => { t with bootStop := max 1 t.bootStop }
  | .idle => s.event 0x0E2 s.tArg
  | .standby => (s.event 0x0E2 s.tArg).leaveStep 5
  | .print | .ready | .service =>
    if 2 ≤ s.stopRank then s
    else
      (((s.onThm fun t => { t with stop := 1, elapsed := 0 }).bump F.THM_STOP_CNT_COUNT).event 0x0E2 s.tArg).orderlyStop .orderly 4
  | _ => s

/-- R309: an orderly stop falls due: the prediction decides which stop it is. -/
def State.judgeStop (s : State) : State :=
  let now := decide (s.riseStop ≤ s.thm.rho) || decide (2400 ≤ s.thm.temp)
  let s1 := s.onThm fun t => { t with due := now }
  if now && !s.thm.due then
    if s.tooHot s.stopTime && decide (s.thm.stop ≠ 2) then s1.immediate else s1.thermalStop
  else s1

/-- R310: the bar engines, VIS and CHL run at step 4 from the last line fired of a thermal orderly stop until `HALT`. -/
def State.slowed (s : State) : Bool := decide (s.thm.stop = 1) && !s.sys.endFiring && !s.inMode .halt

/-- R308: the step the bar engines, VIS and CHL run at. -/
def State.engineStep (s : State) : Nat := if s.slowed then 4 else s.thm.step

/-! ### The diode (R303, R305) -/

/-- R305: the band follows T; its change reaches MEM (R202), and the pulse widths at the next commit. -/
def State.bandTick (s : State) (t : Int) (first : Bool) : State :=
  let o := s.thm.band
  let n := if first then bandOf t else nextBand o t
  if n = o then s
  else
    let s1 := s.onThm fun x => { x with band := n }
    (if first then s1 else s1.event 0x0E0 (n + 16 * o)).memBand

/-- The highest T since the last read. -/
def State.thmPeak (s : State) : State :=
  if s.fi F.THM_PEAK_T < s.thm.temp then s.setF F.THM_PEAK_T (twos 16 s.thm.temp) else s

/-- R303: a faulty diode, reported once. -/
def State.sensorTick (s : State) (raw : Option Int) (bad : Bool) : State :=
  if bad && !s.thm.sensorBad then
    (s.onThm fun t => { t with sensorBad := true }).event 0x0E4 (match raw with | some r => twos 16 r | none => 0x8000)
  else s

/-- DIODE_READING (R303): a reading as the ADC gives it (none: no response), less the stored diode offset. -/
def State.diodeReading (s : State) (adc : Option Int) : State :=
  let raw := adc.map (· - s.cfg.cal.diodeOfs)
  let bad := match raw with | some r => decide (r < -1024) || decide (3200 < r) | none => true
  let s1 := s.sensorTick raw bad
  let v := if s1.thm.sensorBad then 2528 else raw.getD 2528
  let s2 := s1.onThm fun t => { t with
    raw := raw, raws := (v :: t.raws).take 16, hot := if 2528 ≤ v then min 2 (t.hot + 1) else 0 }
  let t := s2.thm.temp
  let s3 := ((s2.thmPeak.bandTick t s.thm.raws.isEmpty).absTick t).stepRise
  if (decide (2 ≤ s3.thm.hot) || s3.thm.sensorBad) && decide (s3.thm.stop ≠ 2) then s3.immediate else s3.judgeStop

def execDiodeReading (raw : Option Int) (s : State) : Host.Outcome State Fault Refusal := .next (s.liveF fun s => s.diodeReading raw)

/-! ### The rate of rise (R306, R307, R309) -/

/-- R306: ρ in 1/64 °C/s: a difference of 1/16 °C over 4 s is 1/64 °C/s. -/
def rhoOf (h : List Int) : Int := match h, h[40]? with | now :: _, some old => now - old | _, _ => 0

/-- R307: S_rate after a sample. -/
def State.rateTick (s : State) : State :=
  let r := s.thm.rho
  if s.thm.hist.length = 41 ∧ s.riseWarn ≤ r then s.onThm fun t => { t with sRate := true, rateDwell := 0 }
  else if 4 * r < 3 * s.riseWarn then
    if 40 ≤ s.thm.rateDwell + 1 then s.onThm fun t => { t with sRate := false, rateDwell := 40 }
    else s.onThm fun t => { t with rateDwell := t.rateDwell + 1 }
  else s.onThm fun t => { t with rateDwell := 0 }

/-- R309: through an orderly stop the prediction is repeated with the time that remains. -/
def State.stopTick (s : State) : State :=
  if s.thm.stop = 1 then
    let s1 := s.onThm fun t => { t with elapsed := t.elapsed + 1 }
    if s1.tooHot (s1.stopTime - 10 * s1.thm.elapsed) then s1.immediate else s1
  else s

/-- RISE_HISTORY_SAMPLE (R306). -/
def State.riseSample (s : State) : State :=
  let h := (s.thm.temp :: s.thm.hist).take 41
  let r := rhoOf h
  let s1 := s.onThm fun t => { t with hist := h, rho := r }
  let s2 := if s1.fi F.THM_RISE_PEAK < r then s1.setF F.THM_RISE_PEAK (twos 16 r) else s1
  ((s2.rateTick.stepRise).judgeStop).stopTick

def execRiseHistorySample (s : State) : Host.Outcome State Fault Refusal := .next (s.liveF State.riseSample)

/-! ### `ALERT_N` (R313) -/

/-- R313: `ALERT_N` is driven low. -/
def State.alertLow (s : State) : Bool :=
  (s.fb F.THM_ALERT_EN_STEP && decide (1 ≤ s.thm.step)) || (s.fb F.THM_ALERT_EN_STEP3 && decide (3 ≤ s.thm.step))
    || (s.fb F.THM_ALERT_EN_WARN && decide (s.riseWarn ≤ s.thm.rho))
    || (s.fb F.THM_ALERT_EN_STOP && (decide (s.thm.stop ≠ 0) || (s.inMode .halt && (decide (s.sys.haltCause = 4) || decide (s.sys.haltCause = 5)))))
    || (s.fb F.THM_ALERT_EN_SENSOR && (s.thm.sensorBad || s.thm.ofsBad)) || (s.fb F.THM_ALERT_EN_BAND4 && decide (s.thm.band = 4))

end Sys2Proof.Machine
end

