-- ==== Sys2Proof/Machine/Boot.lean ====
section
/-! DEFINITION. The four resets (R31–R36, R11, R347), power (R38, R315, R316) and `BOOT` (R26, R37, R41–R46, R194, R304). -/
namespace Sys2Proof.Machine

/-! ### Registers and resets (R11, R35, R36, R358) -/

/-- The bits of a register's fields of some access types. -/
def maskOf (fs : List RegField) (p : Acc → Bool) : Word :=
  fs.foldl (fun w f => if p f.acc then w ||| BitVec.ofNat 32 ((2 ^ f.w - 1) * 2 ^ f.lo) else w) 0

/-- The bits of the register at an address whose access types satisfy `p`. -/
def regMask (a : Nat) (p : Acc → Bool) : Word := match regAt a with | some r => maskOf r.1.fields p | none => 0

/-- Fields that hardware writes, and among them the sticky flags and counters of R36. -/
def isHw : Acc → Bool | .rw => false | .rwg => false | _ => true
def isSticky : Acc → Bool | .rc => true | .w1c => true | _ => false

/-- R41: the image values of the fields of some access types, for the addresses of `q`. -/
def imagePart (img : RegMap) (p : Acc → Bool) (q : Nat → Bool) : RegMap :=
  img.foldl (fun m e => if q e.1 then rset m e.1 (e.2 &&& regMask e.1 p) else m) []

/-- Values of the addresses of `q` replaced by others. -/
def swapIn (q : Nat → Bool) (src m : RegMap) : RegMap := rmerge src (rfilter (fun a => !q a) m)

/-- R11, R35: the registers of `q` return to their image values; shadows and pending sets of theirs are discarded. -/
def Regs.load (r : Regs) (img : RegMap) (q : Nat → Bool) : Regs :=
  let act := imagePart img (· == .rwg) q
  { rw := swapIn q (rmerge (imagePart img (· == .rw) q) (rfilter q resetRw)) r.rw
    shadow := swapIn q act r.shadow
    pend := rfilter (fun a => !q a) r.pend
    act := swapIn q act r.act
    hw := swapIn q (imagePart img isHw q) r.hw
    pending := r.pending.filter (fun g => !q (commitAddr g)) }

/-- R36: the sticky flags and counters of `q` clear. -/
def Regs.unstick (r : Regs) (q : Nat → Bool) : Regs :=
  { r with hw := r.hw.foldl (fun m e => rset m e.1 (if q e.1 then e.2 &&& ~~~(regMask e.1 isSticky) else e.2)) [] }

/-- The registers of an island; `SYS_RESET_CAUSE` counts through every reset but power-on. -/
def ofIsland (i : Island) (a : Nat) : Bool := islandOf a == some i && a != 0x114

/-- R358: the flags and counters of queue q clear with its flush.  The count of records dropped and not yet reported is taken to be one
of them (DESIGN CHOICE, log entry 58: R59 keeps it across a pointer reset, R358 does not name it). -/
def State.qClear (s : State) (q : Fin 64) : State :=
  let fl := F.CVQ_LVL_FLAG_FLAG (q.val / 32)
  let s1 := s.setF fl (insBits (s.f fl) (q.val % 32) 1 0)
  (((s1.setF (F.CVQ_STAT_RESETS q) 0).setF (F.CVQ_DROP_DROP q) 0).setF (F.CVQ_PEAK_PEAK q) 0).onQ q fun x => { x with lost := 0, signals := 0 }

/-- R11, R64: queue q is flushed by an island reset, with what its loss costs. -/
def State.qLost (s : State) (q : Fin 64) : State :=
  let lost := s.cvq[q].all
  ((s.qFlush q).qResetCost q lost).qClear q

/-- The queues of `p` are flushed. -/
def State.qsLost (s : State) (p : Nat → Bool) : State := (List.finRange 64).foldl (fun s q => if p q.val then s.qLost q else s) s

/-! ### Blocks that restart -/

/-- R34, R67: objects that were arriving have lost their decompressor. -/
def Job.cutObjs (j : Job) : Job :=
  { j with objs := j.objs.map (fun o => if o.st = 1 ∨ o.st = 3 then { o with st := 3, dec := { last := true } } else o) }

/-- R67, R69, R35: ING restarts: rings, contexts and arriving objects are lost. -/
def State.ingRestart (s : State) : State :=
  s.flr.onIng fun g => { g with
    bme := false, jobs := g.jobs.map Job.cutObjs, ctx := Vector.replicate 6 {}, rings := g.rings.map (fun x => { owed := x.owed }) }

/-- R35, R121: the corrections of bar b return to the calibration set, in force, committed and as target. -/
def State.calBar (s : State) (b : Fin 8) : State :=
  let c := s.cfg.cal
  let inTon := fun (a : Nat) => inRange (0x84000 + b.val * 0x10000) (0x84044 + b.val * 0x10000) a
  let ton : RegMap := (upto 17).foldl (fun m i => rset m (0x84000 + b.val * 0x10000 + 4 * i) (rget c.tone[b] i)) []
  (s.onRegs fun r => { r with act := swapIn inTon ton r.act, shadow := swapIn inTon ton r.shadow }).onBar b fun x => { x with
    tgt := c.corr[b], inf := c.corr[b], dirty := [], flight := []
    oNow := Vector.ofFn (fun (i : Fin 17) => sgn 12 (rget c.tone[b] i.val).toNat) }

/-- R111: bar b composes again from the line that LTM needs next. -/
def State.barAgain (s : State) (b : Fin 8) : State :=
  let n := s.lineOf b.val + 1
  s.onJobs fun l => l.map (fun j =>
    match j.start with
    | some st => if j.bars.getLsbD b.val then
        { j with done := vset j.done b (match s.linesOf j with | some k => min k (lineSpan st n) | none => lineSpan st n) } else j
    | none => j)

/-- R35: the working state of an engine is lost; its tables and marks stay. -/
def Bar.idle (x : Bar) : Bar :=
  { x with
    flight := [], winQ := [], holdQ := [], knotQ := [], autoQ := [], job := 0, line := 0, waitLine := none, waitObj := none
    slewWait := none, bad := Vector.replicate 13 none, mid := none, side := [], sideWait := none, outQ := [], subOvf := false
    aceRun := 0, lastF := 0, fetchRem := 0, skipRem := 0 }

/-- R130, R111, R35: BARn restarts with the image's tables. -/
def State.barRestart (s : State) (b : Fin 8) : State :=
  let i := s.cfg.image
  ((s.onBar b fun x => { x.idle with tone := i.tone[b], matrix := i.matrix[b] }).calBar b).barAgain b

/-- R163: LTM restarts; G, H and the jobs are kept, and the fire points passed meanwhile become void. -/
def State.ltmRestart (s : State) : State :=
  (s.onLtm fun l => { l with
    fPrev := none, commit := none, gov := none, clamp := false, late := false, defer := false, hist := [], fill := 0, govLane := 0
    heads := Vector.replicate 320 {}, catchUp := l.armed, fresh := l.armed }).fineStart

/-- R167, R192: the lanes of `p` restart at DETECT; in `IDLE/COLD` the Barchan lanes stay down. -/
def State.lanesRestart (s : State) (p : Fin 52 → Bool) : State :=
  (List.finRange 52).foldl (fun s n =>
    if !p n then s
    else
      let s1 := s.onLane n fun x => { inj := {}, st := x.st, sent := x.sent && s.anyBound }
      if s.sys.cold && !isTbl n then s1.laneDown n else (s1.onLane n fun x => { x with st := .disabled }).laneStart n) s

/-- R156: heads have sent no status since a reset of LNK. -/
def State.noStatus (s : State) : State :=
  s.onLtm fun l => { l with heads := l.heads.map (fun x => { x with tv := none, since := 0, stale := false }) }

/-- R262, R140, R276: MOT restarts: axes, encoders and lamps; in `PRINT` the web takes its emergency ramp. -/
def State.motRestart (s : State) : State :=
  let s1 := (List.finRange 5).foldl (fun s i => if s.mot.seqs[i].running then s.seqFail i else s) s
  let s2 := ((s1.onMot fun m => { m with ax := Vector.replicate 16 {} }).encRestart).lampReset
  if s2.inMode .print && decide (s2.mot.w ≠ 0) then s2.webStop .emergency else s2

/-- R328, R334, R36: device time and the schedules restart. -/
def State.timRestart (s : State) : State := s.onTim fun _ => {}

/-- R48, R50, R36: every session loses its role. -/
def State.rolesLost (s : State) : State :=
  (List.finRange 5).foldl (fun s n => ((s.endBurst n).onSes n fun _ => {})) s

/-- R36: calibrations running are abandoned. -/
def State.calsLost (s : State) : State :=
  (s.calAbandon (fun _ => true)).onEnc fun e => { e with ch := e.ch.map (fun x => { x with cal := .none }) }

/-- R348: the latch of `ESTOP_N` is a sticky flag of SUP; a level still low is recognised again. -/
def State.padRestart (s : State) : State :=
  s.onPad fun p => { p with latched := !p.estop, reject := false, camTrig := 0 }

/-- R317, R306: the throttle steps and the rate of rise restart. -/
def State.thmRestart (s : State) : State :=
  let k := s.stepOf s.thm.temp
  s.onThm fun t => { t with
    sAbs := k, step := k, sRate := false, absDwell := 0, rateDwell := 0, hist := [], rho := 0, stop := 0, elapsed := 0, due := false
    gated := false }

/-- R36: the eye-scan positions return to the centre. -/
def State.eyesHome (s : State) : State :=
  s.onRegs fun r => { r with rw := (List.range 40).foldl (fun m n => rset m (0x12009C + n * 0x400) 0) r.rw }

/-- `SYS_RESET_CAUSE` after a reset other than power-on; ISLAND reads 0 after one that names no island (DESIGN CHOICE, log entry
58). -/
def State.resetNote (s : State) (kind island : Nat) : State :=
  (s.onSys fun y => { y with resetKind := kind, resetIsland := island }).bump F.SYS_RESET_CAUSE_COUNT

/-! ### Warm reset (R31, R35, R36) -/

/-- R36: the addresses whose sticky flags and counters a warm reset clears, each island's; SYS_RESET_CAUSE counts on. -/
def warmArea (a : Nat) : Bool := a != 0x114

/-- R31: a warm reset; it ends in `IDLE/WARM`, or with `ESTOP_N` still low in its stop. -/
def State.warm (s : State) : State :=
  let s1 := ((((s.rolesLost).unbindAll).onSys fun y => { y with
    coldPend := false, waking := false, afterWake := [], stops := [], stopping := false, endFiring := false, req := none
    flow := .none, seqStep := .none, svc := none }).ingRestart).onLtm fun l => { l with armed := false }
  let s2 := (((List.finRange 8).foldl (fun s b => s.onBar b Bar.idle) s1).ltmRestart).noStatus
  let s3 := (s2.visReset).onChl fun c => { tlast := c.tlast, due := c.due, trim := c.trim, whiteGoal := c.whiteGoal }
  let s4 := (((s3.motRestart).timRestart).thmRestart).calsLost
  let s5 := ((s4.onLmp fun l => { l with stopped := false }).onMot fun m => { m with stop := none }).onSys fun y => { y with
    flow := .none, seqStep := .none }
  let s6 := (s5.onRegs fun r => { r.unstick warmArea with shadow := r.act, pend := [], pending := [] }).eyesHome
  let s7 := ((List.finRange 64).foldl (fun s q => (s.qFlush q).qClear q) s6).clearBoards false (fun _ => true)
  let s8 := (if s7.sys.cold then s7.coldWarm else s7.lanesRestart (fun n => !isTbl n)).padRestart
  let s9 := (s8.resetNote 3 0).setMode .idle false
  if s9.pad.estop then s9 else s9.emergency 6

/-! ### Island resets (R11, R34, R35) -/

/-- An island's code in `SYS_RESET_CMD`. -/
def islandCode (n : Nat) : Option Island :=
  if n = 0 then some .sup else if n = 1 then some .ing
  else if h : 2 ≤ n ∧ n ≤ 9 then some (.bar ⟨n - 2, by omega⟩)
  else match n with
    | 10 => some .ltm | 11 => some .lnk | 12 => some .tbl | 13 => some .mem | 14 => some .vis | 15 => some .chl | 16 => some .mot
    | 17 => some .thm | _ => none

/-- The seat prints, or shadows a printing holder. -/
def State.printing (s : State) : Bool := s.inMode .print || (s.inMode .standby && s.sys.shadow == .print)

/-- R11, R34: the Caravan queues that an island's reset flushes. -/
def State.flushes (s : State) (i : Island) (q : Nat) : Bool :=
  match i with
  | .sup => decide (60 ≤ q)
  | .ing => decide (40 ≤ q ∧ q < 48) || decide (56 ≤ q ∧ q < 60)
  | .bar b => decide (q / 5 = b.val ∧ q < 40) || decide (q = 56 + b.val / 2)
  | .ltm => decide (q < 40)
  | .lnk => decide (q < 40)
  | .mot => decide (q < 40) && s.printing
  | .vis => decide (48 ≤ q ∧ q < 56)
  | .chl => decide (52 ≤ q ∧ q < 56)
  | _ => false

/-- R321: the scoreboards an island's reset clears, classes and retirements with them. -/
def boardsOf : Island → Nat → Bool
  | .lnk, j => decide (8 ≤ j ∧ j < 48)
  | .tbl, j => decide (48 ≤ j ∧ j < 60)
  | .vis, j => decide (60 ≤ j ∧ j < 64)
  | .mot, j => decide (64 ≤ j)
  | _, _ => false

/-- R11: TBL restarts: on the holder the renewals stop if a seat is in step; a seat in `STANDBY` has lost the group. -/
def State.tblRestart (s : State) : State :=
  let s1 := s.lanesRestart isTbl
  if s1.tbl.holder then s1.onTbl fun t => { t with stopped := t.stopped || s.otherInStep }
  else (s1.onTbl fun t => { t with joining := false, renewed := false, holdAct := false }).leaveStep 3

/-- What an island's reset does beside its registers, queues and scoreboards. -/
def State.islandActs (s : State) (i : Island) : State :=
  match i with
  | .sup => (((s.rolesLost).timRestart).calsLost).padRestart
  | .ing => s.ingRestart
  | .bar b => s.barRestart b
  | .ltm => (List.finRange 8).foldl State.barAgain ((s.onLnk fun t => { t with desc := s.cfg.image.desc }).ltmRestart)
  | .lnk => ((s.onLnk fun t => { t with eq := eqIn s.cfg.cal }).lanesRestart (fun n => !isTbl n)).noStatus
  | .tbl => s.tblRestart
  | .mem => s.capNow
  | .vis => ((s.calAbandon (fun u => u.1 = 2)).visReset).onVis fun v => { v with
      cam := Vector.ofFn (fun (k : Fin 8) => { v.cam[k] with curve := s.cfg.image.curve[k], white := s.cfg.cal.white[k] }) }
  | .chl =>
    let s1 := ((List.finRange 8).foldl State.calBar s).chlReset
    (s1.onLtm fun l => { l with trim := s.cfg.cal.trim }).fineScan
  | .mot => ((s.onMot fun m => { m with seg := s.cfg.image.seg }).motRestart).asShadow fun t => t.seqsSince s
  | .thm => s

/-- R11: the registers of an island return to image values; in SUP a reset leaves the record of resets. -/
def State.islandRegs (s : State) (i : Island) : State :=
  let s1 := s.onRegs fun r => r.load s.cfg.image.regs (ofIsland i)
  match i with
  | .mot => s1.onRegs fun r => { r with rw := rmerge s.cfg.cal.enc r.rw }
  | .mem => s1
  | _ => s1

/-- R11, R31: an island reset; one that names THM is ignored. -/
def State.islandReset (s : State) (i : Island) (code : Nat) : State :=
  if i = .thm then s
  else
    let s1 := (s.clearBoards true (boardsOf i)).when (i == .mem) fun s => s.clearBoards false (fun j => decide (j < 8))
    (((s1.islandRegs i).islandActs i).qsLost (s.flushes i)).resetNote 4 code

/-! ### Hard and power-on reset (R31–R34, R38, R315, R316, R347) -/

/-- What every reset that ends in `BOOT` keeps: NVM, fuses, pin levels and straps; the model's queue and counter of free values. -/
def State.restart (s0 : State) : State :=
  let s := s0.recCut
  { pending := s.pending, free := s.free
    sys := { serial := s.sys.serial, powered := s.sys.powered, phase := 1 }
    cfg := { banks := s.cfg.banks, part := s.cfg.part, copies := s.cfg.copies, nvmMiB := s.cfg.nvmMiB, pool := s.cfg.pool, ring := s.cfg.ring }
    regs := { rw := resetRw }
    pad := { seatId := s.pad.seatId, testEn := s.pad.testEn, estop := s.pad.estop, latched := !s.pad.estop } }

/-- R31: a power-on reset. -/
def State.powerReset (s : State) (low : Bool) : State := s.restart.onSys fun y => { y with powered := true, inReset := low }

/-- R33, R210: what a hard reset leaves of a job: with a channel retired its objects lie under an interleave that is gone. -/
def Job.kept (j : Job) (moved : Bool) : Job :=
  if moved then { j.cutObjs with objs := j.objs.map (fun o => { o with st := 3, dec := { last := true } }) } else j.cutObjs

/-- R31–R34, R278: a hard reset: the layer store, the job records and the always-on domain stay. -/
def State.hardReset (s : State) (kind : Nat) (low : Bool) : State :=
  let p := if s.tbl.holder then s.padsHold else s
  let moved := s.mem.ch.any (fun x => x.st == .retired) || !s.mem.fill.isEmpty
  let r := s.restart
  { r with
    sys := { r.sys with inReset := low, hardBoot := true, resetKind := if s.inMode .frozen then 5 else kind }
    regs := { rw := resetRw, hw := rset [] 0x114 (BitVec.ofNat 32 (satAdd 16 (s.f F.SYS_RESET_CAUSE_COUNT) 1 * 65536)) }
    ing := { jobs := s.ing.jobs.map (fun j => j.kept moved), gens := s.ing.gens, finals := s.ing.finals, trailer := s.ing.trailer }
    mem := { ch := s.mem.ch.map (fun x => if x.st = .active ∨ x.st = .quiesced ∨ x.st = .frozen ∨ x.st = .selfRefresh then { st := .selfRefresh } else {}) }
    mot := { liftDone := s.mot.liftDone, uncapDone := s.mot.uncapDone }
    tbl := { holdOut := s.tbl.holdOut }
    pad := { r.pad with
      gpio := p.pad.gpio, held := p.pad.held, released := p.pad.released, gates := p.pad.gates, dirs := p.pad.dirs
      lampEn := p.pad.lampEn } }

/-- POWER_ON (R31, R315): the supplies ramp up; `RESET_N` stays low until they are valid. -/
def execPowerOn (s : State) : Host.Outcome State Fault Refusal := .next (s.powerReset true)

/-- POWER_LOSS (R38): what was being written to the flash is lost, and with it everything that is not in NVM. -/
def execPowerLoss (s : State) : Host.Outcome State Fault Refusal :=
  .next (s.restart.onSys fun y => { y with powered := false, phase := 0 })

/-- SUPPLY_DIP (R316): a power-on reset, while `RESET_N` is high. -/
def execSupplyDip (s : State) : Host.Outcome State Fault Refusal :=
  .next (s.when (s.sys.powered && !s.sys.inReset) fun s => s.powerReset false)

/-- RESET_N_LOW (R347): 100 ns or more is a hard reset, less than 40 ns none, and anything between may be one (a free choice). -/
def State.resetLow (s : State) (ns : Nat) : State :=
  if !s.sys.powered || s.sys.inReset || decide (ns < 40) then s
  else if 100 ≤ ns then s.hardReset 1 true
  else if s.freeBit then s.drawn.hardReset 1 true else s.drawn

def execResetNLow (ns : Nat) (s : State) : Host.Outcome State Fault Refusal := .next (s.resetLow ns)

/-- RESET_N_RISE (R26, R347): the straps are sampled and `BOOT` starts. -/
def execResetNRise (seatId testEn : Bool) (s : State) : Host.Outcome State Fault Refusal :=
  .next (s.when (s.sys.powered && s.sys.inReset) fun s =>
    (s.onSys fun y => { y with inReset := false }).onPad fun p => { p with seatId := seatId, testEn := testEn })

/-! ### `SYS_RESET_CMD` (R31) -/

/-- R31: the modes in which a warm reset is accepted. -/
def State.warmOk (s : State) : Bool := s.inMode .idle || s.inMode .halt || s.inMode .service

/-- A write of `SYS_RESET_CMD`. -/
def State.resetCmd (s : State) (ses : Fin 5) (w : Word) : State :=
  let code := bits w.toNat 0 8
  let need : Role := if code = 2 then .maker else .installer
  s.sesReach ses need 0x110 w fun s =>
    if bits w.toNat 24 8 ≠ 0xA5 then s
    else
      let t := s.auditWrite ses 0x110 0 w.toNat
      if code = 3 then t.hardReset 2 false
      else if s.inMode .frozen then s
      else if code = 1 then (if s.warmOk then t.warm else s)
      else if code = 2 then
        (match islandCode (bits w.toNat 8 8) with
        | some .thm => s
        | some i => t.islandReset i (bits w.toNat 8 8)
        | none => s)
      else s

/-- WARM_RESET (R31). -/
def execWarmReset (ses : Fin 5) (confirm : Byte) (s : State) : Host.Outcome State Fault Refusal :=
  .next (s.resetCmd ses (confirmWord confirm 1)).settleFaults

/-- ISLAND_RESET (R11). -/
def execIslandReset (ses : Fin 5) (island confirm : Byte) (s : State) : Host.Outcome State Fault Refusal :=
  .next (s.resetCmd ses (confirmWord confirm (2 + island.toNat * 256))).settleFaults

/-- HARD_RESET_COMMAND (R32). -/
def execHardResetCommand (ses : Fin 5) (confirm : Byte) (s : State) : Host.Outcome State Fault Refusal :=
  .next (s.resetCmd ses (confirmWord confirm 3))

/-! ### `BOOT` (R26, R37) -/

/-- R42, R46: the bank the latest bank-selector record names; A without one. -/
def Cfg.selected (c : Cfg) : Fin 2 := match c.latest 1 with | some r => if rget r.body 0 = 0 then 0 else 1 | none => 0

/-- The image of a bank, if it passes header and CRC. -/
def Cfg.goodBank (c : Cfg) (b : Fin 2) : Option Image := match c.banks[b] with | some i => if imageOk i then some i else none | none => none

/-- The other bank. -/
def otherBank (b : Fin 2) : Fin 2 := if b = 0 then 1 else 0

/-- R42: ERR of a bank that does not load: 0x01 header, 0x02 CRC. -/
def Cfg.bankErr (c : Cfg) (b : Fin 2) : Nat := match c.banks[b] with | some i => if imageHdrOk i then 2 else 1 | none => 1

/-- R41: the keys that serve in a refused `BOOT`: those of an image whose header passes. -/
def Cfg.keysFrom (c : Cfg) : Image :=
  let b := c.selected
  match c.banks[b], c.banks[otherBank b] with
  | some i, x => if imageHdrOk i then i else (match x with | some j => if imageHdrOk j then j else {} | none => {})
  | none, some j => if imageHdrOk j then j else {}
  | none, none => {}

/-- R2: the limits. -/
def imageFits (i : Image) : Bool :=
  decide (i.bars ≤ 8) && decide (i.heads ≤ 40) && decide (i.groups ≤ 42) && decide (i.nozzles ≤ 64)

/-- R45: the calibration copy `BOOT` loads: the valid one with the higher sequence number. -/
def Cfg.calCopy (c : Cfg) : Option (Fin 2) :=
  match copyOk c.copies[(0 : Fin 2)], copyOk c.copies[(1 : Fin 2)] with
  | true, true =>
    some (match c.copies[(0 : Fin 2)], c.copies[(1 : Fin 2)] with
      | some x, some y => if newer y.seq x.seq then 1 else 0
      | _, _ => 0)
  | true, false => some 0
  | false, true => some 1
  | false, false => none

/-- R45, R47: every other copy is left erased. -/
def Cfg.calLoad (c : Cfg) : Cfg :=
  match c.calCopy with
  | some i => { c with
      cal := c.copies[i].getD {}
      copies := vset c.copies (if i = 0 then 1 else 0) none
      op := if c.copies[(if i = 0 then 1 else 0 : Fin 2)].isSome then 6 else c.op }
  | none => { c with copies := Vector.replicate 2 none, op := if c.copies.any (·.isSome) then 6 else c.op }

/-- R47: an image bank that is only partly written is erased. -/
def Cfg.bankClean (c : Cfg) : Cfg :=
  { c with
    banks := Vector.ofFn (fun (b : Fin 2) => if c.part[b] then none else c.banks[b])
    part := Vector.replicate 2 false
    op := if c.part.any id then 6 else c.op }

/-- R52: where the audit ring goes on. -/
def Cfg.auditLoad (c : Cfg) : Cfg :=
  match c.ring.getLast? with
  | some r => { c with auditHead := r.seq, auditSeq := (r.seq + 1) % 2 ^ 32 }
  | none => c

/-- R39, R45, R47, R52: what `BOOT` takes from a flash that answers, whatever its images are: its size, the calibration set and the
end of the audit ring; what was only partly written is erased. -/
def State.nvmLoad (s : State) (d : NvmDev) : State :=
  s.onCfg fun c => ({ c with nvmMiB := d.sizeMiB } : Cfg).bankClean.calLoad.auditLoad

/-- R42: the image of bank b is loaded. -/
def State.imageLoad (s : State) (b : Fin 2) (i : Image) (fell : Bool) : State :=
  s.onCfg fun c => { c with
    image := i, bank := b, fallback := fell, fbPend := fell, selPend := false, inactValid := (c.goodBank (otherBank b)).isSome }

/-- R41, R44, R46: every register, table and use count takes its image, calibration or recorded value. -/
def State.valuesLoad (s : State) : State :=
  let i := s.cfg.image
  let c := s.cfg.cal
  let s1 := s.onRegs fun r =>
    let r1 := r.load i.regs (fun a => a != 0x114)
    { r1 with rw := rmerge c.enc r1.rw }
  let s2 := (s1.onLnk fun t => { t with desc := i.desc, eq := eqIn c }).onMot fun m => { m with seg := i.seg }
  let s3 := (List.finRange 8).foldl (fun s b => (s.onBar b fun x => { x with tone := i.tone[b], matrix := i.matrix[b] }).calBar b) s2
  let s4 := s3.onVis fun v => { v with
    cam := Vector.ofFn (fun (k : Fin 8) => { v.cam[k] with curve := i.curve[k], white := c.white[k] }) }
  let s5 := (s4.onChl fun x => { x with trim := c.trim, tlast := c.tlast }).onLtm fun l => { l with trim := c.trim }
  let ls := fun (k j : Nat) =>
    let a := lsGainAddr k j
    bits (if (c.ls.any (fun e => e.1 = a)) then rget c.ls a else rget i.regs a).toNat 0 16
  let s6 := s5.onLmp fun l => { l with
    gain := Vector.ofFn (fun (k : Fin 16) => Vector.ofFn (fun (j : Fin 3) => ls k.val j.val))
    lamp := Vector.ofFn (fun (k : Fin 32) => { l.lamp[k] with
      secs := match s.cfg.latest 3 with | some r => (rget r.body k.val).toNat | none => 0 }) }
  s6.onFlt fun t => { t with noz := match s.cfg.latest 2 with | some r => r.body | none => [] }

/-- R240, R241: a run of item 4 to 7 completes at `BOOT`; these items have one unit. -/
def State.bootCal (s : State) (item : Nat) : State :=
  let s1 := (s.bump (F.CHL_CAL_STAT_COUNT item)).setF (F.CHL_CAL_STAT_TLAST item) (twos 12 (s.thm.temp / 4))
  (s1.setF (F.CHL_CAL_TIME_SEC item) (s.tim.sec % 2 ^ 32)).event 0x0A2 item

/-- R194, R304, R37: G5-DDR and the power-up calibrations. -/
def State.powerUp (s : State) (env : BootEnv) : State :=
  let raw := env.diode - s.cfg.cal.diodeOfs
  let diff := raw - env.bandgap
  let s1 := if s.thm.raws.isEmpty then s.diodeReading (some env.diode) else s
  let s2 := (s1.onThm fun t => { t with ofsBad := decide (48 < diff.natAbs), ofsPend := decide (48 < diff.natAbs), ofsDiff := diff }).onMem
    fun m => { m with
      band := s1.thm.band
      ch := Vector.ofFn (fun (c : Fin 8) =>
        if s.cfg.image.pop.chans.getLsbD c.val then { st := .active, dly := s1.thm.band, lfsr := BitVec.ofNat 32 (c.val + 1) } else {}) }
  let s3 := (((s2.onEnc fun e => { e with adc := env.encAdc }).encRestart).onLmp fun l => { l with dark := env.psDark }).capNow.fineStart
  [4, 5, 6, 7].foldl State.bootCal s3

/-- R194: a rank that the image names comes up: it is fitted, with devices of the density named (a rank of another density is taken not
to return the pattern: DESIGN CHOICE, log entry 61), it returns the pattern and raises no second parity alert. -/
def rankUp (env : BootEnv) (p : Population) (c : Fin 8) (r : Nat) : Bool :=
  env.pop.chans.getLsbD c.val && decide (r < env.pop.ranks[c]) && env.pop.gbit[c] == p.gbit[c] &&
    !env.noPattern.contains (c.val, r) && !env.alerts.contains (c.val, r)

/-- R194: the G5-DDR that the image names comes up. -/
def dramUp (env : BootEnv) (p : Population) : Bool :=
  p.equal && p.list.all (fun c => (upto p.ranks[c]).all (rankUp env p c))

/-- R194: the channels that the image names are still initialising. -/
def State.memFails (s : State) : State :=
  s.onMem fun m => { m with ch := Vector.ofFn (fun (c : Fin 8) => if s.cfg.image.pop.chans.getLsbD c.val then { st := .init } else {}) }

/-- R33: an object as the rebuild finds it: what the layer store reads, usable while its CRC-32C is the one of its end block. -/
def Obj.reread (o : Obj) (tag : Nat) (store : List (Nat × Nat × List Byte)) : Obj :=
  let l := match store.find? (fun e => e.1 = tag ∧ e.2.1 = o.num) with | some e => e.2.2 | none => o.bytes
  { o with bytes := l, st := if o.st = 2 ∧ crc32c l = o.crc then 2 else 3, crcBad := o.crcBad || (o.st == 2 && crc32c l != o.crc) }

/-- R33, R34: a job after a hard reset, under its new handle; `store` holds the objects that no longer read as written. -/
def State.rebuildJob (s : State) (store : List (Nat × Nat × List Byte)) (j0 : Job) : State :=
  let j : Job := { j0 with objs := j0.objs.map (fun o => o.reread j0.tag store) }
  let g := (j.gen + 1) % 16
  let bad := (j.objs.filter (fun o => !o.freed && o.st != 2)).length
  let s1 := (s.modJob j.tag fun _ => { j with gen := g }).onIng fun x => { x with gens := rset x.gens j.tag (BitVec.ofNat 32 g) }
  let s2 := (upto bad).foldl (fun s _ => (s.onSys fun y => { y with dirBad := y.dirBad + 1 }).event 0x012 j.tag) s1
  if j.st = .failed ∨ j.st = .aborted then s2.retireJob j.tag
  else if j.st = .staged ∨ (j.st = .bound ∧ !j.streaming) then
    if bad = 0 then
      let s3 := s2.modJob j.tag fun j => { j with st := .staged, printed := 0, runs := [], archBytes := 0 }
      match s3.jobAt j.tag with | some k => s3.jobEntry k 1 0 0 | none => s3
    else s2.failJob j.tag 5 0
  else s2.failJob j.tag 9 0

/-- R33: the directory is rebuilt after a hard reset. -/
def State.rebuild (s : State) (store : List (Nat × Nat × List Byte)) : State :=
  if s.sys.hardBoot then s.ing.jobs.foldl (fun s j => s.rebuildJob store j) s else s

/-- R26, R312: `BOOT` ends: `IDLE/WARM`, or `HALT` with `ESTOP_N` latched; a thermal stop that fell due takes effect. -/
def State.bootEnds (s : State) : State :=
  let s1 := s.onSys fun y => { y with phase := 15, bootErr := 0, hardBoot := false }
  let s2 := if s1.pad.latched then (s1.onSys fun y => { y with haltCause := 6 }).setMode .halt false
    else (s1.event 0x010 0).setMode .idle false
  if s2.thm.bootStop = 2 then s2.immediate else if s2.thm.bootStop = 1 then s2.thermalStop else s2

/-- R26: the seat stays in `BOOT`. -/
def State.bootFails (s : State) (err phase : Nat) : State := s.onSys fun y => { y with bootErr := err, phase := phase }

/-- R42: no bank loads.  The keys of an image whose header passes serve, and the bank that was selected counts as the one loaded
(DESIGN CHOICE, log entry 58). -/
def State.noImage (s : State) (b : Fin 2) : State := s.onCfg fun c => { c with image := c.keysFrom, bank := b }

/-- R42: the bank that loads, its image, and whether it is a fallback. -/
def Cfg.pick (c : Cfg) : Option (Fin 2 × Image × Bool) :=
  match c.goodBank c.selected, c.goodBank (otherBank c.selected) with
  | some i, _ => some (c.selected, i, false)
  | none, some i => some (otherBank c.selected, i, true)
  | none, none => none

/-- R37: PHASE of a start that has run for `t` ns.  The times of the spec's table are averages at the reference press, scaled by the size
of the image and of the G5-DDR, or by the stored objects after a hard reset (DESIGN CHOICE, log entry 62). -/
def State.phaseAt (s : State) (t : Nat) : Nat :=
  match s.cfg.pick with
  | none => if t < 50000 then 1 else 2
  | some (_, i, _) =>
    let read := 2000000 + i.bytes * 2000 / 133
    let init := read + 5000000
    let store := sumN (s.ing.jobs.map (fun j => sumN (j.objs.map (fun o => o.bytes.length))))
    let fill := if s.sys.hardBoot then store / 80
      else sumN (i.pop.list.map (fun c => i.pop.gbit[c] * i.pop.ranks[c] * 2 ^ 31)) / 300
    if t < 50000 then 1 else if t < read then 2 else if t < init then 3 else if t < init + fill then 4 else 5

/-- R37: PHASE follows the time a start has run, while nothing has failed. -/
def State.bootTick (s : State) : State :=
  if s.inMode .boot && s.sys.bootErr == 0 then s.onSys fun y => { y with phase := s.phaseAt s.nowNs } else s

/-- BOOT_DONE (R26, R37, R39, R42): everything `BOOT` does, with what it finds. -/
def State.boot (s : State) (env : BootEnv) : State :=
  match env.nvm with
  | none => s.bootFails 5 2
  | some d =>
    if !d.fits then s.bootFails 5 2
    else
      let s1 := s.nvmLoad d
      match s1.cfg.pick with
      | none => (s1.noImage s1.cfg.selected).bootFails (s1.cfg.bankErr s1.cfg.selected) 2
      | some (k, i, fell) =>
        let s2 := s1.imageLoad k i fell
        if !imageFits i then s2.bootFails 3 2
        else if !dramUp env i.pop then s2.valuesLoad.memFails.bootFails 4 3
        else (((s2.valuesLoad.powerUp env).rebuild env.store).lanesStart (fun _ => true)).bootEnds

def execBootDone (env : BootEnv) (s : State) : Host.Outcome State Fault Refusal :=
  .next (s.live fun s => s.when (s.inMode .boot) fun s => s.boot env)

end Sys2Proof.Machine
end

