-- ==== Sys2Proof/Machine/Time.lean ====
section
/-! DEFINITION. Device time, the IEEE 1588 client and the time pulses (R328–R334). -/
namespace Sys2Proof.Machine

/-- Device time in nanoseconds since 0 s. -/
def Tim.total (t : Tim) : Nat := t.sec * 1000000000 + t.ns

/-- Device time set to a count of nanoseconds; the seconds wrap at 48 bits. -/
def Tim.setTotal (t : Tim) (n : Nat) : Tim :=
  { t with sec := n / 1000000000 % 2 ^ 48, ns := n % 1000000000 }

/-- R328: device time advances by one SUP clock of 1 ns, corrected by the rate adjustment; a whole nanosecond gained or lost
by the rate is applied when it is complete. -/
def Tim.tick (t : Tim) : Tim :=
  let fr := t.frac + t.rate
  let add : Nat := if 1000000000 ≤ fr then 2 else if fr ≤ -1000000000 then 0 else 1
  let fr' := if 1000000000 ≤ fr then fr - 1000000000 else if fr ≤ -1000000000 then fr + 1000000000 else fr
  { t.setTotal (t.total + add) with frac := fr' }


/-- R328, R334, R36: device time, the client and the schedules return to their defaults. -/
def Tim.reset : Tim := {}

/-- R333: the schedule's START in ns, nanoseconds above 999,999,999 used as 999,999,999. -/
def State.pulseStart (s : State) (k : Nat) : Nat :=
  let ns := min 999999999 (s.f (F.TIM_PULSE_START_NS_VALUE k))
  (s.f (F.TIM_PULSE_START_LO_VALUE k) + 2 ^ 32 * s.f (F.TIM_PULSE_START_HI_VALUE k)) * 1000000000 + ns

/-- PERIOD in ns: 0 single pulse, 1 to 99 used as 100. -/
def State.pulsePeriod (s : State) (k : Nat) : Nat :=
  let p := s.f (F.TIM_PULSE_PERIOD_NS k)
  if p = 0 then 0 else max 100 p

/-- WIDTH in ns; WIDTH ≥ PERIOD is used as PERIOD ÷ 2 (R334). -/
def State.pulseWidth (s : State) (k : Nat) : Nat :=
  let w := s.f (F.TIM_PULSE_WIDTH_NS k)
  let p := s.pulsePeriod k
  if p ≠ 0 ∧ p ≤ w then p / 2 else w

/-- The first due instant of generator k's schedule at or after device time `now`. -/
def State.pulseNext (s : State) (k : Nat) (now : Nat) : Option Nat :=
  let st := s.pulseStart k
  let p := s.pulsePeriod k
  if now ≤ st then some st else if p = 0 then none else some (st + cdiv (now - st) p * p)

/-- R334: generator k armed afresh from its schedule in force; a single pulse already past sets MISSED; WIDTH 0 gives no
pulse. -/
def State.pulseArm (s : State) (k : Fin 4) : State :=
  let nxt := if s.pulseWidth k = 0 then none else s.pulseNext k s.tim.total
  let late := decide (s.pulseWidth k ≠ 0) && nxt.isNone
  s.onTim fun t => { t with gens := vmod t.gens k (fun g => { g with
    due := nxt
    missed := g.missed || late
    again := false
    issued := none }) }

/-- R334: a committed schedule applies at once, or after the pulse that is high. -/
def State.pulseCommit (s : State) (k : Fin 4) : State :=
  if s.tim.gens[k].high then s.onTim fun t => { t with gens := vmod t.gens k (fun g => { g with again := true }) }
  else s.pulseArm k

/-- R334: what a step of device time does to generator k: due instants stepped over are not issued, a single pulse stepped
over sets MISSED, and no single pulse is issued twice. -/
def State.pulseStep (s : State) (k : Fin 4) : State :=
  let g := s.tim.gens[k]
  match g.due, g.issued with
  | none, none => s
  | some d, _ =>
    if s.pulsePeriod k = 0 then
      if s.tim.total ≤ d then s
      else s.onTim fun t => { t with gens := vmod t.gens k (fun g => { g with due := none, missed := true }) }
    else s.onTim fun t => { t with gens := vmod t.gens k (fun g => { g with due := s.pulseNext k s.tim.total }) }
  | none, some _ =>
    if s.pulsePeriod k = 0 then s
    else s.onTim fun t => { t with gens := vmod t.gens k (fun g => { g with due := s.pulseNext k s.tim.total }) }

/-- The step of device time in ms as EVT_TIME_STEP carries it: signed, saturated to ±32,767, 16 bits. -/
def msArg (ns : Int) : Nat := twos 16 (clampI (-32767) 32767 (Int.tdiv ns 1000000))

/-- R330: device time stepped by the offset (the master's time less device time); the record is written after the step. -/
def State.timeStep (s : State) (ofs : Int) : State :=
  let n := ((s.tim.total : Int) + ofs).toNat
  let s1 := (s.onTim fun t => { t.setTotal n with frac := 0 }).bump F.TIM_STEP_CNT_COUNT
  let s2 := (((s1.pulseStep 0).pulseStep 1).pulseStep 2).pulseStep 3
  s2.event 0x100 (msArg ofs)

/-- R331: the servo's rate in ppb, clamped to ±SLEW_MAX (1 to 1,000 ppm). -/
def State.slew (s : State) (ofs : Int) : State :=
  let m : Int := (clampN 1 1000 (s.f F.TIM_SLEW_MAX_VALUE) : Nat) * 1000
  let r := clampI (-m) m (Config.servoRate ofs s.free)
  s.drawn.onTim fun t => { t with rate := r }

/-- TIM_OFFSET: the last offset in ns, signed, saturating at 32 bits. -/
def satOfs (o : Int) : Int := clampI (-2147483648) 2147483647 o

/-- R330: an offset measured from the selected master. -/
def State.offsetMeasured (s0 : State) (ofs : Int) : State :=
  let s := s0.onTim fun t => { t with offset := satOfs ofs, sync := none, reqSent := none }
  let inside : Bool := decide (ofs.natAbs ≤ s.f F.TIM_STEP_MAX_VALUE * 1000)
  let inside := inside && decide (s.f F.TIM_STEP_MAX_VALUE ≠ 0)
  match s.tim.st with
  | 0 => (s.onTim fun t => { t with st := 1, good := 0 }).timeStep ofs
  | 2 =>
    if inside then
      if 4 ≤ s.tim.good + 1 then (s.onTim fun t => { t with st := 1, jumpPend := false, good := 0 }).slew ofs
      else s.onTim fun t => { t with good := t.good + 1 }
    else s.onTim fun t => { t with good := 0 }
  | _ =>
    if s.tim.accept then (s.onTim fun t => { t with st := 1, accept := false, jumpPend := false }).timeStep ofs
    else if inside then (s.onTim fun t => { t with st := 1 }).slew ofs
    else
      ((s.onTim fun t => { t with st := 2, jumpPend := true, good := 0 }).bump F.TIM_REFUSE_CNT_COUNT).event 0x101
        (min 65535 (ofs.natAbs / 1000000))

/-- The client runs and the message is of its domain (R329). -/
def State.ptpOn (s : State) (domain : Nat) : Bool := s.fb F.TIM_CFG_EN && decide (domain = s.f F.TIM_CFG_DOMAIN)

/-- Announced masters kept best first by data set rank (R329: best master clock algorithm). -/
def insertMaster (m rank : Nat) : List (Nat × Nat) → List (Nat × Nat)
  | [] => [(m, rank)]
  | (n, r) :: t => if rank < r then (m, rank) :: (n, r) :: t else (n, r) :: insertMaster m rank t

/-- R330: the best of the announced masters; with none announced the last one stays named. -/
def Tim.best (t : Tim) (l : List (Nat × Nat)) : Option Nat := (l.head?.map (fun e => e.1)).orElse fun _ => t.master

/-- R330: the best of the announced masters is selected. -/
def State.choose (s : State) (l : List (Nat × Nat)) : State :=
  let s1 := s.onTim fun t => { t with masters := l, master := t.best l }
  if s.tim.master.isSome && decide (s.tim.best l ≠ s.tim.master) then
    (s1.onTim fun t => { t with masterChg := true, sync := none, reqSent := none }).event 0x103 0
  else s1

/-- R330: an Announce takes part in master selection. -/
def State.announce (s : State) (m rank : Nat) : State :=
  s.choose (insertMaster m rank (s.tim.masters.filter (fun e => e.1 ≠ m)))

/-- PTP_ANNOUNCE (R329, R330). -/
def execPtpAnnounce (domain : Nat) (master : BitVec 64) (rank : Nat) (s : State) : Host.Outcome State Fault Refusal :=
  .next (s.live fun s => s.when (s.ptpOn domain) fun s => s.announce master.toNat rank)

/-- R329, R330: `m` is the selected master, and still announced. -/
def State.selected (s : State) (m : Nat) : Bool := decide (s.tim.master = some m) && s.tim.masters.any (fun e => e.1 == m)

/-- PTP_SYNC (R329): the Sync of the selected master is timestamped; `t1` is the master's time of sending. -/
def execPtpSync (domain : Nat) (master : BitVec 64) (t1 : Int) (s : State) : Host.Outcome State Fault Refusal :=
  .next (s.live fun s => s.when (s.ptpOn domain && s.selected master.toNat) fun s =>
    s.onTim fun t => { t with sync := some (t1, (t.total : Int)) })

/-- PTP_DELAY_REQ_SEND (R329): transmit completion of Delay_Req is timestamped. -/
def execPtpDelayReqSend (s : State) : Host.Outcome State Fault Refusal :=
  .next (s.live fun s => s.when (s.fb F.TIM_CFG_EN && s.tim.sync.isSome) fun s =>
    s.onTim fun t => { t with reqSent := some (t.total : Int) })

/-- PTP_DELAY_RESP (R329–R331): `t4` is the master's time of receiving Delay_Req; the offset is the mean of the two path
differences, as IEEE 1588-2019's delay request-response mechanism defines it. -/
def execPtpDelayResp (domain : Nat) (master : BitVec 64) (t4 : Int) (s : State) : Host.Outcome State Fault Refusal :=
  .next (s.live fun s => s.when (s.ptpOn domain && s.selected master.toNat) fun s =>
    match s.tim.sync, s.tim.reqSent with
    | some (t1, t2), some t3 => s.offsetMeasured (Int.tdiv ((t1 - t2) + (t4 - t3)) 2)
    | _, _ => s)

/-- ANNOUNCE_TIMEOUT (R330): the selected master is no longer announced. -/
def execAnnounceTimeout (s : State) : Host.Outcome State Fault Refusal :=
  .next (s.live fun s =>
    let s1 := s.onTim fun t => { t with sync := none, reqSent := none }
    let s2 := if s.tim.st = 1 ∨ s.tim.st = 2 then (s1.onTim fun t => { t with st := 3 }).event 0x102 0 else s1
    s2.choose (s.tim.masters.drop 1))

/-- R330: what `TIM_CMD` does under a role: ACCEPT, ignored outside REFUSED, makes the next offset a step; CLR_CHG clears
MASTER_CHG and the MISSED flags.  None: the write is ignored. -/
def State.timFx (s : State) (r : Role) (w : Nat) : Option State :=
  let acc := covers r .installer && decide (bits w 0 1 = 1) && decide (s.tim.st = 2)
  let clr := decide (bits w 1 1 = 1)
  if bits w 24 8 ≠ 0xA5 ∨ !(acc || clr) then none
  else
    let s1 := s.when acc fun s => s.onTim fun t => { t with st := 1, accept := true, jumpPend := false, good := 0 }
    some (s1.when clr fun s => s.onTim fun t =>
      { t with masterChg := false, gens := t.gens.map (fun g => { g with missed := false }) })

/-- A session's write of `TIM_CMD`. -/
def State.timCmd (s : State) (ses : Fin 5) (w : Word) : State :=
  s.sesCmd ses .operator 0x1D000C w fun s =>
    let r := (s.roleOf ses).getD .operator
    (s.timFx r w.toNat).map fun t => t.forward (.write ses.val r 0x1D000C w (s.lineOf 0))

/-- TIME_ACCEPT (R330). -/
def execTimeAccept (ses : Fin 5) (confirm : Byte) (s : State) : Host.Outcome State Fault Refusal :=
  .next (s.timCmd ses (confirmWord confirm 1))

/-- CLR_CHG (R330). -/
def execClrChg (ses : Fin 5) (confirm : Byte) (s : State) : Host.Outcome State Fault Refusal :=
  .next (s.timCmd ses (confirmWord confirm 2))

/-- TIME_MARK (R332): at a whole second of device time, at which TBL's seconds are counted (R300, R301). -/
def execTimeMark (s : State) : Host.Outcome State Fault Refusal :=
  .next (s.live fun s =>
    (s.onTbl fun t => { t with
      qual := t.qual.map (fun n => min 0xFFFF (n + 1))
      idleS := if t.holder then some 0 else t.idleS.map (fun n => min 0xFFFFFFFE (n + 1)) }).event 0x104
      (s.tim.st + (if s.tim.jumpPend then 4 else 0)))

/-- TIME_PULSE_DUE (R333): the armed due instant arrives and the pulse goes high, in every mode except `BOOT` and
`FROZEN`; the next due instant follows. -/
def State.pulseDue (s : State) (k : Fin 4) : State :=
  match s.tim.gens[k].due with
  | none => s
  | some d =>
    let p := s.pulsePeriod k
    let show_ := !(s.inMode .boot) && !(s.inMode .frozen)
    s.onTim fun t => { t with gens := vmod t.gens k (fun g => { g with
      due := if p = 0 then none else some (d + p)
      issued := some d
      high := show_
      ends := d + s.pulseWidth k }) }

def execTimePulseDue (k : Fin 4) (s : State) : Host.Outcome State Fault Refusal :=
  .next (s.live fun s => s.pulseDue k)

/-- TIME_PULSE_END (R333, R334): WIDTH ns after its start the pulse ends, and a schedule committed meanwhile applies. -/
def execTimePulseEnd (k : Fin 4) (s : State) : Host.Outcome State Fault Refusal :=
  .next (s.live fun s =>
    let again := s.tim.gens[k].again
    let s1 := s.onTim fun t => { t with gens := vmod t.gens k (fun g => { g with high := false }) }
    if again then s1.pulseArm k else s1)

/-- TIME_PULSE_WAKE (R30): a committed schedule comes within 5 ms of a due instant in `IDLE/COLD`. -/
def execTimePulseWake (k : Fin 4) (s : State) : Host.Outcome State Fault Refusal :=
  .next (s.live fun s => s.when (s.tim.gens[k].due.isSome) fun s => s.wake)

end Sys2Proof.Machine
end

