-- ==== Sys2Proof/Machine/Groups.lean ====
section
/-! DEFINITION. The commands of the commit groups (R53–R55, R353): GO, DISCARD and taking effect. -/
namespace Sys2Proof.Machine

/-! ### Taking effect (R53) -/

/-- R339: pins whose INV changes read inverted. -/
def State.invFlip (s : State) (old : Nat → Bool) : State :=
  s.onPad fun p => { p with gpio := (upto 32).foldl (fun w i =>
    if old i = s.fb (F.PAD_GPIO_CFG_INV i) then w else w ^^^ BitVec.ofNat 32 (2 ^ i)) p.gpio }

/-- The pending set of a group becomes active, with all that follows from it. -/
def State.applyGroup (s : State) (g : Group) (last line : Nat) : State :=
  let s1 := s.takeEffect g last line
  match g with
  | .tonOfs b => if s1.boundOn b.val then s1 else s1.knotsFree b
  | .ltmTiming => s1.fineScan
  | .timPulse k => s1.pulseCommit k
  | .padCfg => s1.invFlip (fun i => s.fb (F.PAD_GPIO_CFG_INV i))
  | .visSens k => s1.sensCommit k (s.sensNow k.val 0 0)
  | _ => s1

/-- R53: the camera whose port a VIS group waits for. -/
def State.visCamOf (s : State) : Group → Fin 8
  | .visCam k => k
  | .visSens k => k
  | _ => ⟨s.f F.VIS_ACE_CFG_CAM % 8, by omega⟩

/-- R53: the pipeline of camera k's port is between frames: no frame of the port is arriving. -/
def State.portBetween (s : State) (k : Fin 8) : Bool :=
  (List.finRange 8).all (fun j => portOf j != portOf k || !s.camArriving j)

/-- R53: LAST of a group that takes effect now, outside `PRINT` or a bound job; none: it is not due. -/
def State.takeDue (s : State) (g : Group) : Option Nat :=
  match instantOf g with
  | .bar b => if s.boundOn b.val then none else some (s.lineOf b.val)
  | .line => if s.inMode .print then none else some (s.lineOf 0)
  | .vis => let k := s.visCamOf g; if s.portBetween k then some s.vis.cam[k].frame else none
  | .sens => some s.vis.cam[s.visCamOf g].frame
  | .soon => some 0

/-- COMMIT_TAKE_EFFECT (R53, R55): pending sets are held in `FROZEN`, and on a standby until the holder's take effect (R290). -/
def State.takeNow (s : State) (g : Group) : State :=
  if !s.regs.pending.contains g || s.inMode .frozen || s.inMode .boot || (s.inMode .standby && !groupLocal g) then s
  else match s.takeDue g with
    | some last => s.applyGroup g last (s.lineOf 0)
    | none => s

def execCommitTakeEffect (g : Group) (s : State) : Host.Outcome State Fault Refusal := .next (s.live fun s => s.takeNow g)

/-- R53, R230: VIS groups that wait take effect when a frame has closed. -/
def State.visCommits (s : State) : State := (s.regs.pending.filter (fun g => instantOf g = .vis)).foldl State.takeNow s

/-! ### GO and DISCARD (R53, R353) -/

/-- R353: a commit arriving in the condition of its group's last column is ignored. -/
def State.goBlocked (s : State) : Group → Bool
  | .nzmGeom b => s.boundOn b.val
  | .encCfg ch => decide (s.enc.act = ch) && (s.inMode .ready || s.inMode .print)
  | .ltmGeom => s.anyBound
  | .lnkCfg n => s.laneHasHeads n.val && s.boundOn (n.val / 5)
  | .motCfg a => !s.mot.ax[a].still
  | .padCfg => s.inMode .ready || s.inMode .print
  | _ => false

/-- R290, R291: a write to a group's commit register is forwarded unless the group belongs to a seat-local block. -/
def State.fwdGroup (s : State) (ses : Fin 5) (g : Group) (data : Word) : State :=
  if groupLocal g then s else s.fwdWrite ses (commitAddr g) data

/-- The shadow becomes pending; a sensor sequence is queued at its commit (R217). -/
def State.goStage (s : State) (g : Group) : State :=
  let s1 := s.stage g
  if instantOf g = .sens && !s.inMode .standby then s1.takeNow g else s1

/-- COMMIT_GO. -/
def State.commitGo (s : State) (ses : Fin 5) (g : Group) : State :=
  s.sesCmd ses (groupRole g) (commitAddr g) 1 fun s =>
    if s.goBlocked g then none else some ((s.fwdGroup ses g 1).goStage g)

def execCommitGo (ses : Fin 5) (g : Group) (s : State) : Host.Outcome State Fault Refusal := .next (s.commitGo ses g)

/-- COMMIT_DISCARD (R55): ignored while PEND = 1. -/
def State.commitDiscard (s : State) (ses : Fin 5) (g : Group) : State :=
  s.sesCmd ses (groupRole g) (commitAddr g) 2 fun s =>
    if s.regs.pending.contains g then none else some ((s.unstage g).fwdGroup ses g 2)

def execCommitDiscard (ses : Fin 5) (g : Group) (s : State) : Host.Outcome State Fault Refusal := .next (s.commitDiscard ses g)

end Sys2Proof.Machine
end

