-- ==== Sys2Proof/Machine/Camera.lean ====
section
/-! DEFINITION. The commands of cameras and lamp chains that can retire a port or a chain (R212–R220, R264–R274), and the end of
a group in its pipeline with the image archive (R226, R228, R241). -/
namespace Sys2Proof.Machine

/-- FRAME_START (R213, R215, R216): it closes the camera's open frame, and commits that waited for that take effect (R230). -/
def execFrameStart (p vc : Fin 4) (hdrOk first : Bool) (s : State) : Host.Outcome State Fault Refusal :=
  .next (s.liveF fun s => (if hdrOk then (s.frameEndIn p vc true).visCommits else s).frameStartIn p vc hdrOk first)

/-- LINE_PACKET (R212, R213). -/
def execLinePacket (p vc : Fin 4) (dt : Fin 64) (hdrOk crcOk : Bool) (pix : List (BitVec 14)) (s : State) :
    Host.Outcome State Fault Refusal :=
  .next (s.liveF fun s => s.linePacketIn p vc dt hdrOk crcOk pix)

/-- FRAME_END (R213). -/
def execFrameEnd (p vc : Fin 4) (hdrOk : Bool) (s : State) : Host.Outcome State Fault Refusal :=
  .next (s.liveF fun s => (s.frameEndIn p vc hdrOk).visCommits)

/-- FRAME_TIMEOUT (R213). -/
def execFrameTimeout (k : Fin 8) (s : State) : Host.Outcome State Fault Refusal :=
  .next (s.liveF fun s => (s.frameTimeout k).visCommits)

/-- TRIGGER_TIMEOUT (R215). -/
def execTriggerTimeout (k : Fin 8) (s : State) : Host.Outcome State Fault Refusal := .next (s.liveF fun s => s.triggerTimeout k)

/-- SENSOR_SEQUENCE_SEND (R217). -/
def execSensorSequenceSend (k : Fin 8) (ack : Bool) (s : State) : Host.Outcome State Fault Refusal :=
  .next (s.liveF fun s => s.sensSend k ack)

/-! ### The image archive (R228) -/

/-- Four or fewer pixels of `b` bits: their high bytes, then the low bits packed from bit 0 up, as CSI-2 packs RAW10 and RAW14
(log entry 40). -/
def packFour (b : Nat) (l : List Nat) : List Byte :=
  let low := ((l.zipIdx).map (fun p => p.1 % 2 ^ (b - 8) * 2 ^ ((b - 8) * p.2))).foldl (· + ·) 0
  (l.map (fun p => BitVec.ofNat 8 (p / 2 ^ (b - 8)))) ++ leBytes (cdiv (l.length * (b - 8)) 8) low

/-- A line of pixels in groups of `n`. -/
def packRow (b n : Nat) : Nat → List Nat → List Byte
  | 0, _ => []
  | k + 1, l => if l.isEmpty then [] else packFour b (l.take n) ++ packRow b n k (l.drop n)

/-- A line packed to ⌈WIDTH × bits ÷ 8⌉ bytes; RAW12 packs pixels in pairs. -/
def packLine (b : Nat) (l : List Nat) : List Byte := fit (cdiv (l.length * b) 8) (packRow b (if b = 12 then 2 else 4) (l.length + 1) l)

/-- R228: the raw frames of a group, padded or cut to S_c. -/
def Grp.raw (g : Grp) (k : Nat) : List Byte :=
  let one := fun (e : Nat) =>
    fit (camLines g.cfg k * cdiv (camWidth g.cfg k * camBits g.cfg k) 8)
      (((g.data.filter (fun x => x.exp = e)).flatMap (·.rows)).flatMap (packLine (camBits g.cfg k)))
  (upto (camExps g.cfg k)).flatMap one

/-- Bytes in segments of 16 KiB. -/
def segments : Nat → List Byte → List (List Byte)
  | 0, _ => []
  | n + 1, l => if l.isEmpty then [] else l.take 16384 :: segments n (l.drop 16384)

/-- R228: a group of an archived camera goes to context 4 + i. -/
def State.imageArch (s : State) (i : Fin 2) (k : Fin 8) (g : Grp) : State :=
  match s.job? g.handle with
  | some j =>
    if bits j.arch 1 1 = 1 ∧ fldIn g.cfg (F.VIS_CAM_CFG_ARCH k.val) = 1 ∧ camMode g.cfg k.val ≠ 0 ∧ s.archLive j.tag then
      let l := g.raw k.val
      (segments (cdiv l.length 16384) l).foldl (fun s b => s.ctxTake (⟨4 + i.val, by omega⟩ : Fin 6) j.tag b false) s
    else s
  | none => s

/-! ### The end of a group (R219, R226, R241) -/

/-- PIPELINE_GROUP_DONE: the group's records leave, its flags are counted, its data archived; a white reference run takes it. -/
def State.groupDone (s : State) (i : Fin 2) : State :=
  if !s.visOn then s
  else
    let s0 := (List.finRange 4).foldl State.visTake s
    match s0.pipeGroup i with
    | none => s0
    | some (k, g) =>
      let s1 := (s0.statOut (portOf k) (s0.groupRecs k g)).countFlags k (g.flags k.val)
      let s2 := (s1.drawn).onCam k fun c => { c with grps := c.grps.filter (fun x => x.frame ≠ g.frame) }
      ((s2.whiteMove k).whiteTake k g (s0.viewOf k g)).imageArch i k g

def execPipelineGroupDone (i : Fin 2) (s : State) : Host.Outcome State Fault Refusal := .next (s.live fun s => s.groupDone i)

/-! ### Lamp chains (R264–R274) -/

/-- LAMP_FRAME (R264, R265): a seat in `STANDBY` acts on forwarded frames only (R290). -/
def execLampFrame (c : Fin 4) (i : LampIn) (s : State) : Host.Outcome State Fault Refusal :=
  .next (s.liveF fun s => s.when (!s.inMode .standby) fun s => s.lampFrameIn c i)

end Sys2Proof.Machine
end

