-- ==== Sys2Proof/Machine/Grid.lean ====
section
/-! DEFINITION. The commands that move the grid (R133, R141, R148, R152, R160): encoder samples, their arrival in line timing,
triggers and the governor, with everything that happens at a line boundary. -/
namespace Sys2Proof.Machine

/-- R76: a job has become ENDING. -/
def State.newlyEnding (s s0 : State) : Bool :=
  s.ing.jobs.any (fun j => j.st == .ending && s0.ing.jobs.any (fun i => i.tag == j.tag && i.st != .ending))

/-- What follows a line boundary: a calibration snapshot (R45), the stop of a failed lamp (R274), that of a web source a commit
found lost (R26, R143), requests and the end of firing (R27), a freeze or a yield (R20, R286, R300), corrections of registration
(R236, R237), camera triggers (R214), digests (R293).  `s0`: the state before. -/
def State.afterLine (s0 s : State) : State :=
  let lost := s.enc.lost && !s0.enc.lost && s.inMode .print
  let s1 := ((s.calSnap.when (s.newlyEnding s0) State.lampStops).when lost fun s => s.orderlyStop .haltRamp 8).boundaryActs
  let s2 := (((s1.healthTry true).yieldTry true).revertTry).checkpointTry true
  (s2.trimsOn.settleReg.camTriggers).digestsOut

/-- LINE_TRIGGER (R149, R152): the trigger of the committed line is issued. -/
def execLineTrigger (s : State) : Host.Outcome State Fault Refusal :=
  .next (s.liveF fun s => s.when (s.ltm.commit.isSome && !s.inMode .standby) fun s => State.afterLine s s.trigger)

/-- LTM_SAMPLE_ARRIVAL (R132, R148, R292): line timing of a standby runs on the holder's line events. -/
def execLtmSampleArrival (s : State) : Host.Outcome State Fault Refusal :=
  .next (s.liveF fun s => if s.inMode .standby then s.standbySample else s.sampleArrives State.afterLine)

/-- R19, R292: a standby governs its unseen web axis by its own fill; below STOP while the holder prints it leaves step. -/
def State.standbyGov (s : State) : State := s.govern s.lowFill fun s => if s.tbl.inStep then s.leaveStep 5 else s

/-- GOVERNOR_SAMPLE (R160, R292). -/
def execGovernorSample (s : State) : Host.Outcome State Fault Refusal :=
  .next (s.liveF fun s =>
    if s.inMode .print then s.governor
    else s.when (s.inMode .standby && decide (s.sys.shadow = .print)) State.standbyGov)

/-- R141: P_max follows the web source upward while a print runs. -/
def State.peakWeb (s : State) : State :=
  if s.inMode .print || (s.inMode .standby && decide (s.sys.shadow = .print)) then
    s.onEnc fun e => { e with pmax := max e.pmax e.pweb }
  else s

/-- R141: a reversal beyond the limit. -/
def State.reversal (s : State) : State :=
  if s.inMode .print && !s.enc.rev && s.reversed then
    let ch := s.enc.act.val
    (((s.onEnc fun e => { e with rev := true }).setF (F.ENC_FLAGS_REVERSAL ch) 1).event 0x052 ch).orderlyStop .haltRamp 3
  else s

/-- R133: the channel samples: it is enabled, and MOT is clocked. -/
def State.encRuns (s : State) (ch : Fin 4) : Bool :=
  !s.inMode .boot && !s.sys.cold && !(s.inMode .standby && s.sys.shadowCold) && s.fb (F.ENC_CFG_EN ch.val)

/-- ENCODER_SAMPLE (R132, R133). -/
def execEncoderSample (ch : Fin 4) (sin cos idx : BitVec 14) (s : State) : Host.Outcome State Fault Refusal :=
  .next (s.liveF fun s => s.when (s.encRuns ch) fun s => ((s.encSample ch sin cos idx).peakWeb).reversal)

end Sys2Proof.Machine
end

