-- ==== Sys2Proof/Machine/Read.lean ====
section
/-! DEFINITION. What a register reads as (R6–R8, R54): the stored word together with the fields that report the seat's state,
block by block. -/
namespace Sys2Proof.Machine


/-- The bits `f` gives for the numbers below `n`. -/
def bitsOf (n : Nat) (f : Nat → Bool) : Nat := ((upto n).map (fun i => bitAt i (f i))).foldl (· + ·) 0

/-- R354: the two words of a 48-bit count. -/
def lo32 (n : Nat) : Nat := n % 2 ^ 32
def hi16 (n : Nat) : Nat := n / 2 ^ 32 % 2 ^ 16

/-- R76: the codes of the job states. -/
def JobState.code : JobState → Nat
  | .free => 0 | .opened => 1 | .staged => 2 | .bound => 3 | .printing => 4 | .ending => 5 | .failed => 6 | .aborted => 7

/-! ### SYS and CFG -/

/-- R25: `SYS_MODE`. -/
def State.sysMode (s : State) : Nat :=
  let y := s.sys
  y.mode.code + bitAt 4 (if y.mode = .standby then y.shadowCold else y.cold) + bitAt 5 y.stopping + bitAt 6 y.req.isSome
    + (if y.mode = .standby then y.shadow.code * 256 else 0) + y.haltCause * 4096
    + (if y.mode = .frozen then y.frozenCh.toNat * 65536 else 0)

/-- The fields of SYS that the seat's state gives. -/
def State.sysWord (s : State) (a : Nat) : Nat :=
  if a = 0x0 then 0x4C010820
  else if a = 0x4 then 2
  else if a = 0xC then s.sys.serial.toNat % 2 ^ 32
  else if a = 0x10 then s.sys.serial.toNat / 2 ^ 32
  else if a = 0x14 then 0x04223288
  else if a = 0x100 then s.sysMode
  else if a = 0x114 then s.sys.resetKind + s.sys.resetIsland * 256
  else if a = 0x118 then s.sys.phase + s.sys.bootErr * 256 + min 0xFFFF s.sys.dirBad * 65536
  else if a = 0x11C then bitAt 0 s.cfg.busy
  else 0

/-- R51: an audit record as its 32 bytes. -/
def AuditRec.bytes (r : AuditRec) : List Byte :=
  let l := leBytes 4 r.seq ++ leBytes 4 r.sec ++ leBytes 4 r.nsec ++ leBytes 1 r.kind ++ leBytes 1 r.who ++ leBytes 2 0
    ++ leBytes 4 (r.addr % 2 ^ 24) ++ leBytes 4 r.a ++ leBytes 4 r.b
  l ++ leBytes 4 (crc32c l)

/-- `CFG_AUDIT_DATA[i]`: a word of the selected record, zero if it is not in the ring. -/
def State.auditWord (s : State) (i : Nat) : Nat :=
  match s.cfg.ring.find? (fun r => r.seq = s.f F.CFG_AUDIT_IDX_SEQ) with
  | some r => leAt r.bytes (4 * i) 4
  | none => 0

/-- The fields of CFG that the seat's state gives, to session `ses`. -/
def State.cfgWord (s : State) (ses : Fin 5) (a i : Nat) : Nat :=
  if a = 0x10000 then (match s.roleOf ses with | some r => rankOf r + ses.val * 4 | none => 0)
  else if a = 0x10014 then s.cfg.op + s.cfg.result * 16 + s.cfg.cal.seq.toNat % 65536 * 65536
  else if a = 0x10018 then s.cfg.bank.val + bitAt 1 s.cfg.fallback + bitAt 2 s.cfg.inactValid + bitAt 3 s.cfg.selPend
    + s.cfg.image.seq.toNat % 65536 * 65536
  else if a = 0x10044 then s.auditWord i
  else if a = 0x10064 then s.cfg.auditHead
  else 0

/-! ### Queues, ingest -/

/-- The entries of an engine's line that wait for room in queue q. -/
def waitsFor (q : Nat) (l : List (Nat × Entry)) : Bool := l.any (fun e => e.1 == q)

/-- R59: the producer of queue q is stalled: it holds an entry, or has entries to write and finds no room. -/
def State.qStalled (s : State) (q : Fin 64) : Bool :=
  s.cvq[q].held.isSome || (!s.tailRoom q && (s.bars.toList.any (fun x => waitsFor q.val x.outQ)
    || s.vis.outQ.any (fun e => e.1 == q.val)
    || (if h : 40 ≤ q.val ∧ q.val < 48 then !(s.ing.rings[(⟨q.val - 40, by omega⟩ : Fin 8)].pull.isEmpty) else false)))

/-- The fields of CVQ. -/
def State.cvqWord (s : State) (a i : Nat) : Nat :=
  if h : i < 64 then
    let q : Fin 64 := ⟨i, h⟩
    if a = 0x20100 then s.cvq[q].fill % 2 ^ 28 + bitAt 30 (s.qFull q) + bitAt 31 (!s.cvq[q].dune.isEmpty)
    else if a = 0x20110 then bitAt 0 s.cvq[q].ringBad + bitAt 1 (s.qStalled q)
    else 0
  else 0

/-! ### BAR2 (R79) -/

/-- R79: the 256 bytes of a tag's job record; of a free tag the handle and the final status. -/
def State.jobRecord (s : State) (tag : Nat) : List Byte :=
  match s.jobAt tag with
  | some j =>
    leBytes 2 j.handle.toNat ++ leBytes 1 j.st.code ++ leBytes 1 (bitAt 0 j.streaming + j.arch % 4 * 2) ++ leBytes 1 j.status ++ leBytes 1 0
      ++ leBytes 2 j.nUsable ++ leBytes 8 j.used ++ leBytes 8 j.printed ++ leBytes 8 j.archBytes ++ List.replicate 224 0
  | none =>
    leBytes 2 (mkHandle tag (rget s.ing.gens tag).toNat).toNat ++ leBytes 2 0 ++ leBytes 1 (rget s.ing.finals tag).toNat
      ++ List.replicate 251 0

/-- R79: the 32 bytes of an object's entry. -/
def objRecord : Option Obj → List Byte
  | some o =>
    if o.freed then List.replicate 32 0
    else leBytes 1 o.st ++ leBytes 1 o.err ++ leBytes 2 o.cls ++ leBytes 4 o.crc ++ leBytes 8 o.bytes.length ++ leBytes 8 o.ofs
      ++ List.replicate 8 0
  | none => List.replicate 32 0

/-- R79: the byte the host reads at an offset of BAR2. -/
def State.bar2 (s : State) (a : Nat) : Byte :=
  let tag := a / 65536 % 4096
  let ofs := a % 65536
  if tag = 0 then 0
  else if ofs < 256 then (s.jobRecord tag).getD ofs 0
  else (objRecord ((s.jobAt tag).bind (fun j => j.entry ((ofs - 256) / 32)))).getD (ofs % 32) 0

/-- `ING_JOB_STAT` of the selected tag. -/
def State.jobStat (s : State) : Nat :=
  let tag := s.f F.ING_JOB_SEL_TAG
  if tag = 0 then 0
  else match s.jobAt tag with
    | some j => j.handle.toNat + j.st.code * 65536 + bitAt 19 j.streaming + j.status % 16 * 2 ^ 20
    | none => (mkHandle tag (rget s.ing.gens tag).toNat).toNat + (rget s.ing.finals tag).toNat % 16 * 2 ^ 20

/-- The fields of ING. -/
def State.ingWord (s : State) (a i : Nat) : Nat :=
  if a = 0x30000 then s.ing.gen + s.ing.width * 8 + s.ing.mps * 128
  else if a = 0x30018 then s.lsFree
  else if a = 0x30024 then s.jobStat
  else if a = 0x30100 then
    let r := vgetD s.ing.rings i {}
    bitAt 0 (r.en && !r.err && decide (bits (s.f F.ING_CTL_RING_EN) i 1 = 1)) + bitAt 1 r.err + r.code * 16 + r.out.length * 65536
  else 0

/-! ### Bars -/

/-- R53: PEND of a group. -/
def State.pendBit (s : State) (g : Group) : Nat := bitAt 8 (s.regs.pending.contains g)

/-- The in-force entry of column c of bar b (R117); zero past the last column. -/
def State.peekCol (s : State) (b : Fin 8) : Nat :=
  let c := s.f (F.NZM_PEEK_COL_COL b.val)
  if c < s.cols b.val then (rget s.bars[b].inf c).toNat else 0

/-- The fields of the bar engines. -/
def State.barWord (s : State) (a : Nat) (b : Fin 8) (i : Nat) : Nat :=
  if a = 0x84080 then twos 12 (vgetD s.bars[b].oNow i 0)
  else if a = 0x88008 then bitAt 0 (s.htnBad b.val)
  else if a = 0x8C0A4 then s.cols b.val + bitAt 31 (!s.geomOk b.val)
  else if a = 0x8C1B4 then s.peekCol b
  else if a = 0x8C1B8 then min 0xFFF (s.outCount b) + bitAt 12 s.bars[b].subOvf + bitAt 13 (!s.bars[b].dirty.isEmpty)
    + bitAt 14 (s.tgtBad b.val)
  else 0

/-! ### Encoders -/

/-- `ENC_STAT` of a channel. -/
def State.encStat (s : State) (ch : Fin 4) : Nat :=
  let x := s.enc.ch[ch]
  bitAt 0 x.ref + bitAt 1 x.armed + bitAt 2 x.back + bitAt 3 (x.spdValid (s.f (F.ENC_CFG_AVG_LOG2 ch.val))) + bitAt 4 x.ampFault
    + bitAt 5 x.errSince + bitAt 6 (s.retired (64 + ch.val)) + bitAt 7 (x.cal != .none) + x.amp % 16384 * 65536

/-- The fields of ENC. -/
def State.encWord (s : State) (a : Nat) (ch : Fin 4) : Nat :=
  let x := s.enc.ch[ch]
  if a = 0x10000C then s.enc.act.val + bitAt 2 s.enc.onAlt + bitAt 3 s.enc.lost
  else if a = 0x100120 then lo32 (twos 48 x.pos)
  else if a = 0x100124 then hi16 (twos 48 x.pos)
  else if a = 0x100128 then s.encStat ch
  else if a = 0x100134 then twos 32 (s.encSpeed ch)
  else if a = 0x100138 then x.period
  else 0

/-! ### Line timing -/

/-- `LTM_STAT`. -/
def State.ltmStat (s : State) : Nat :=
  bitAt 0 s.pitchBad + bitAt 1 ((upto 8).any s.depthBadOn) + bitAt 2 s.ltm.clamp + bitAt 3 s.ltm.gov.isSome
    + bitAt 4 (s.allHeads.any (fun p => (s.lhead (headIdx p.1.val p.2.h)).clamped)) + bitAt 5 (s.ltm.armed && s.ltm.defer)
    + bitAt 6 s.ltm.late

/-- The head the peek registers show. -/
def State.peekHead (s : State) : Option LHead :=
  let i := s.f F.LTM_PEEK_SEL_HEAD
  if i < 320 then some (s.lhead i) else none

/-- The fields of LTM. -/
def State.ltmWord (s : State) (a i : Nat) : Nat :=
  if a = 0x110140 then s.ltmStat
  else if a = 0x110144 then lo32 s.ltm.g.toNat
  else if a = 0x110148 then hi16 s.ltm.g.toNat
  else if a = 0x110150 then lo32 (s.lineOf i)
  else if a = 0x110154 then hi16 (s.lineOf i)
  else if a = 0x110190 then (match s.ltm.gov with | some v => min 0xFFFF (v / 1000000) | none => 0xFFFF) + s.ltm.govLane * 65536
  else if a = 0x110194 then s.ltm.fill % 2 ^ 28
  else if a = 0x1101A0 then twos 7 (vgetD s.ltm.trim i 0)
  else match s.peekHead with
    | none => 0
    | some x =>
      if a = 0x1101E0 then s.eNow (⟨s.f F.LTM_PEEK_SEL_HEAD / 40 % 8, by omega⟩ : Fin 8) (s.f F.LTM_PEEK_SEL_HEAD % 40) * 65536
      else if a = 0x1101E4 then (match x.tv with | some (t, v) => twos 16 t + v % 65536 * 65536 | none => 0)
      else if a = 0x1101E8 then vgetD x.w i 0
      else 0

/-! ### Lanes -/

/-- `LNK_STATE` of lane n. -/
def State.laneState (s : State) (n : Fin 40) : Nat :=
  let x := s.lnk.lanes[barLane n]
  x.st.code + bitAt 4 x.present + bitAt 5 x.capBad + x.capErr * 64 + bitAt 9 (s.preShort n) + bitAt 10 x.dealAhead
    + bitAt 11 x.modActive

/-- R191: the eye registers of a lane. -/
def Lane.eyeWord (x : Lane) : Nat := (if x.eyeValid then x.eyeW else 0) % 128 + bitAt 7 x.eyeValid + bitAt 8 x.eyeBusy

/-- The fields of LNK. -/
def State.lnkWord (s : State) (a i : Nat) : Nat :=
  let lanes := fun (w : Nat) (p : Lane → Bool) => bitsOf 32 (fun k => decide (32 * w + k < 40) && p (vgetD s.lnk.lanes (32 * w + k) {}))
  if a = 0x130000 then lanes i (fun x => x.st == .active)
  else if a = 0x130008 then bitsOf 32 (fun k => decide (32 * i + k < 40) && s.retired (8 + 32 * i + k))
  else if a = 0x130010 then bitsOf 4 (fun t => decide ((s.htype t).id ≠ 0)) + 16 * bitsOf 4 (fun t => decide ((s.htype t).id ≠ 0) && (s.htype t).invalid)
  else if h : i < 40 then
    let x := s.lnk.lanes[barLane ⟨i, h⟩]
    if a = 0x120008 then s.laneState ⟨i, h⟩
    else if a = 0x12006C then bitAt 0 (x.st == .test) + bitAt 1 x.patSync
    else if a = 0x120084 then x.inj.left
    else if a = 0x120094 then x.eyeWord
    else if a = 0x120098 then (if x.eyeValid then x.eyeH else 0)
    else 0
  else 0

/-! ### G5-DDR -/

/-- R201: the words of a delay set that channel c has in force. -/
def State.dlyWord (s : State) (c : Fin 8) (ofs : Nat) : Nat :=
  (rget s.cfg.image.delay ((s.mem.ch[c].dly * 8 + c.val) * 0x2000 + ofs)).toNat

/-- `MEM_CH_STAT` of channel c. -/
def State.memStat (s : State) (c : Fin 8) : Nat :=
  let x := s.mem.ch[c]
  x.st.code + x.dly * 16 + x.ref * 128 + x.mr4 * 512 + bitAt 11 (s.board c.val).pend + bitAt 12 x.hot

/-- The fields of MEM: channel c, with the further indexes of its array. -/
def State.memWord (s : State) (a : Nat) (c : Fin 8) (i j : Nat) : Nat :=
  if a = 0x140000 then s.memStat c
  else if a = 0x14001C then s.mem.ch[c].scrub / 8192 + s.mem.ch[c].passes * 2 ^ 20
  else if a = 0x141000 then s.dlyWord c (0x1000 + (i * 20 + j) * 4)
  else if a = 0x141100 then s.dlyWord c (0x1100 + i * 4)
  else if a = 0x150004 then bitsOf 8 (fun k => (vgetD s.mem.ch k {}).listed) + 256 * bitsOf 8 (fun k => s.retired k)
    + 65536 * bitsOf 8 (fun k => (s.board k).pend) + s.mem.band * 2 ^ 24
  else 0

/-! ### Vision and colour hold -/

/-- The fields of VIS: camera or port i. -/
def State.visWord (s : State) (a i : Nat) : Nat :=
  let c := vgetD s.vis.cam i {}
  if a = 0x160104 then
    bitAt 0 ((List.finRange 8).any (fun k => (portOf k).val == i && s.camArriving k)) + bitAt 1 (s.retired (60 + i))
  else if a = 0x161094 then c.setId % 65536 + bitAt 16 c.pend
  else if a = 0x1610A0 then c.frame % 2 ^ 32
  else 0

/-- R222: the table entry `VIS_TBL_SEL` selects; a table has 1,025 knots, or an entry per column and channel. -/
def State.visTbl (s : State) : Option Nat :=
  let c := vgetD s.vis.cam (s.f F.VIS_TBL_SEL_CAM) {}
  let i := s.f F.VIS_TBL_SEL_INDEX
  if s.fb F.VIS_TBL_SEL_TBL then (if i < 3 * camWidth (s.camRegs (s.f F.VIS_TBL_SEL_CAM)) (s.f F.VIS_TBL_SEL_CAM) then some (rget c.white i).toNat else none)
  else if i ≤ 1024 then some (rget c.curve i).toNat else none

/-- The fields of CHL. -/
def State.chlWord (s : State) (a i : Nat) : Nat :=
  if a = 0x170020 then s.chl.blind.toNat + bitAt 8 s.acting
  else if a = 0x170080 then
    (min 0xFFFF (((vgetD s.chl.knot i (Vector.replicate 17 (0, 0))).toList.map (fun k => k.1.natAbs / 16)).foldl max 0)) * 65536
  else if a = 0x170A40 then bitAt 16 (s.chl.due.any (fun u => u.1 == i)) + bitAt 17 (s.chl.running.any (fun u => u.1 == i))
  else 0

/-! ### Motion and lamps -/

/-- `MOT_STAT` of an axis. -/
def State.axisStat (s : State) (a : Fin 16) : Nat :=
  let x := s.mot.ax[a]
  let n := match x.run with | .seg n _ _ _ => n | .sync n => n | _ => 0
  bitAt 0 (!x.still) + bitAt 1 x.atTarget + bitAt 2 x.seq.isSome + bitAt 3 (match x.run with | .sync _ => true | _ => false)
    + bitAt 4 (x.parked && decide (a.val < 12)) + bitAt 5 (s.retired (axisBoard a.val)) + n * 65536

/-- `MOT_SEQ_STAT`, less SEQ_REJ. -/
def State.seqStat (s : State) : Nat :=
  let q := fun (p : Seq → Bool) => bitsOf 5 (fun i => p (vgetD s.mot.seqs i {}))
  q (·.running) + 256 * q (·.done) + 65536 * q (·.fail)

/-- The fields of MOT: axis x. -/
def State.motWord (s : State) (a : Nat) (x : Fin 16) : Nat :=
  let ax := s.mot.ax[x]
  if a = 0x180020 then lo32 (twos 48 (ax.pos / posUnit))
  else if a = 0x180024 then hi16 (twos 48 (ax.pos / posUnit))
  else if a = 0x180028 then twos 32 (Int.tdiv ax.vel velUnit)
  else if a = 0x18002C then s.axisStat x
  else if a = 0x180048 then
    let d := s.dacs x.val ax
    d.1 % 256 + d.2 % 256 * 256 + ax.theta (s.f (F.MOT_CFG_MSTEP_LOG2 x.val)) * 65536 + ax.cur % 256 * 2 ^ 24
  else if a = 0x182020 then min 0xFFFF (s.mot.w / 1000000) + s.mot.src * 65536
    + (match s.mot.stop with | none => 0 | some k => k.rank) * 2 ^ 18 + bitAt 20 s.mot.rest
  else if a = 0x182064 then s.seqStat
  else 0

/-- `LMP_LAMP_STAT` of lamp l. -/
def State.lampStat (s : State) (l : Fin 32) : Nat :=
  let x := s.lmp.lamp[l]
  x.d % 4096 + bitAt 12 (s.lampOn l.val) + bitAt 13 (s.lampFailed l) + bitAt 14 x.hot + bitAt 15 (s.lampUnver l.val)
    + bitAt 16 (s.lampOverlap l.val) + bitAt 17 x.openLoop

/-- The fields of LMP: chain or lamp i, with the further index of its array. -/
def State.lmpWord (s : State) (a i j : Nat) : Nat :=
  if a = 0x190004 then bitAt 0 (s.retired (chainBoard i)) + bitAt 1 (vgetD s.lmp.chain i {}).dark
  else if a = 0x190140 then vgetD s.lmp.dark i 0 % 4096
  else if a = 0x190200 then vgetD (vgetD s.lmp.gain i (Vector.replicate 3 0)) j 0 % 65536
  else if a = 0x190800 then
    if s.f (F.LMP_CHAIN_CFG_DEVICES i) + 1 ≤ j then 0
    else ((upto 16).map (fun k => (vgetD s.lmp.chain i {}).code (16 * j + k) * 4 ^ k)).foldl (· + ·) 0
  else if h : i < 32 then
    if a = 0x191020 then s.lampStat ⟨i, h⟩
    else if a = 0x191024 then twos 16 (vgetD s.lmp.lamp i {}).e + twos 16 (vgetD s.lmp.lamp i {}).t * 65536
    else 0
  else 0

/-! ### Twin, temperature, faults, time, pads -/

/-- `TBL_STAT`. -/
def State.tblStat (s : State) : Nat :=
  let t := s.tbl
  bitAt 0 s.pad.seatId + bitAt 1 t.holder + bitAt 2 t.inStep + bitAt 3 s.groupUp + bitAt 4 t.holdAct + bitAt 5 t.joining
    + t.left * 256 + t.take * 4096

/-- The fields of TBL: Table lane i. -/
def State.tblWord (s : State) (a i : Nat) : Nat :=
  let x := vgetD s.lnk.lanes (40 + i) {}
  if a = 0x1A0024 then s.tblStat
  else if a = 0x1A0028 then s.tbl.deal.toNat
  else if a = 0x1A002C then (match s.tbl.idleS with | some n => n | none => 0xFFFFFFFF)
  else if a = 0x1A0030 then (match s.tbl.qual with | some n => s.f F.TBL_QUAL_S - n | none => 0xFFFF)
  else if a = 0x1A0034 then cdiv s.tbl.replayBytes 1024
  else if a = 0x1A0050 then s.tbl.resync % 2 ^ 32
  else if a = 0x1A0054 then s.tbl.lat % 4096
  else if a = 0x1A0100 then x.st.code + bitAt 4 x.inGroup + bitAt 5 (s.retired (48 + i)) + x.capErr * 64
  else if a = 0x1A0114 then x.eyeWord
  else if a = 0x1A0118 then (if x.eyeValid then x.eyeH else 0)
  else 0

/-- The fields of THM. -/
def State.thmWord (s : State) (a : Nat) : Nat :=
  let t := s.thm
  if a = 0x1B0000 then twos 16 t.temp + (match t.raw with | some r => twos 16 r | none => 0x8000) * 65536
  else if a = 0x1B0004 then twos 16 t.rho
  else if a = 0x1B0008 then t.band + t.step * 8 + t.sAbs * 64 + bitAt 9 t.sRate + t.stop * 1024 + bitAt 12 t.sensorBad
    + bitAt 13 t.ofsBad
  else 0

/-- Key of the nozzle group `FLT_NOZ_SEL` selects. -/
def State.nozSel (s : State) : Option Nat :=
  let h := s.f F.FLT_NOZ_SEL_HEAD
  let g := s.f F.FLT_NOZ_SEL_GROUP
  if h < 320 ∧ g < 42 then some (h * 42 + g) else none

/-- The fields of FLT: scoreboard or word i. -/
def State.fltWord (s : State) (a i : Nat) : Nat :=
  if a = 0x1C0054 then (match s.nozSel with | some k => (rget s.flt.noz k).toNat | none => 0)
  else if a = 0x1C0058 then (match s.nozSel with | some k => (rget s.flt.frac k).toNat | none => 0)
  else if a = 0x1C0060 then bitsOf 32 (fun k => decide (32 * i + k < 84) && s.retired (32 * i + k))
  else if a = 0x1C0100 then
    let x := s.board i
    x.count + bitAt 16 x.perm + bitAt 17 x.retired + bitAt 18 x.pend
  else 0

/-- The fields of TIM: generator i. -/
def State.timWord (s : State) (a i : Nat) : Nat :=
  let t := s.tim
  if a = 0x1D0010 then t.st + bitAt 2 t.jumpPend + bitAt 3 t.masterChg
  else if a = 0x1D0014 then t.ns
  else if a = 0x1D0018 then lo32 t.sec
  else if a = 0x1D001C then hi16 t.sec
  else if a = 0x1D0020 then twos 32 t.offset
  else if a = 0x1D0024 then twos 32 t.rate
  else if a = 0x1D0028 then t.master.getD 0 % 2 ^ 32
  else if a = 0x1D002C then t.master.getD 0 / 2 ^ 32 % 2 ^ 32
  else if a = 0x1D0118 then bitAt 0 (vgetD t.gens i {}).due.isSome + bitAt 1 (vgetD t.gens i {}).missed
  else 0

/-- The fields of PAD. -/
def State.padWord (s : State) (a : Nat) : Nat :=
  let p := s.pad
  if a = 0x1E0088 then s.gpioIn.toNat
  else if a = 0x1E008C then bitAt 0 p.seatId + bitAt 1 p.testEn
  else if a = 0x1E0090 then bitAt 0 p.estop + bitAt 1 p.latched
  else if a = 0x1E0094 then bitAt 0 p.held + bitAt 1 p.released
  else 0

/-! ### Every register -/

/-- The fields of the register with base `a` and indexes `ix` that the seat's state gives. -/
def State.liveWord (s : State) (ses : Fin 5) (a : Nat) (ix : List Nat) : Nat :=
  let i := ix.headD 0
  let j := ix.getD 1 0
  let k := ix.getD 2 0
  if a < 0x10000 then s.sysWord a
  else if a < 0x20000 then s.cfgWord ses a i
  else if a < 0x30000 then s.cvqWord a i
  else if a < 0x80000 then s.ingWord a i
  else if a < 0x100000 then (if h : i < 8 then s.barWord a ⟨i, h⟩ j else 0)
  else if a < 0x110000 then (if h : i < 4 then s.encWord a ⟨i, h⟩ else 0)
  else if a < 0x120000 then s.ltmWord a i
  else if a < 0x140000 then s.lnkWord a i
  else if a < 0x160000 then (if h : i < 8 then s.memWord a ⟨i, h⟩ j k else 0)
  else if a < 0x170000 then s.visWord a i
  else if a < 0x180000 then s.chlWord a i
  else if a < 0x190000 then (if h : i < 16 then s.motWord a ⟨i, h⟩ else 0)
  else if a < 0x1A0000 then s.lmpWord a i j
  else if a < 0x1B0000 then s.tblWord a i
  else if a < 0x1C0000 then s.thmWord a
  else if a < 0x1D0000 then s.fltWord a i
  else if a < 0x1E0000 then s.timWord a i
  else s.padWord a

/-- The group whose commit register has the address `a`, as far as its PEND. -/
def State.pendAt (s : State) (a : Nat) : Nat := match groupAt a with | some g => s.pendBit g | none => 0

/-- What a field holds: RW as written, RWG its shadow, WO zero, the rest as hardware left it. -/
def State.fieldWord (s : State) (a : Nat) (f : RegField) : Word :=
  match f.acc with
  | .rw => rget s.regs.rw a
  | .rwg => rget s.regs.shadow a
  | .wo => 0
  | _ => rget s.regs.hw a

/-- The stored part of a register. -/
def State.storedWord (s : State) (a : Nat) (l : List RegField) : Nat :=
  l.foldl (fun w f => w ||| (bits (s.fieldWord a f).toNat f.lo f.w * 2 ^ f.lo)) 0

/-- R7: the register at address `a` as session `ses` reads it. -/
def State.regWord (s : State) (ses : Fin 5) (a : Nat) (r : RegRow) (ix : List Nat) : Nat :=
  (s.storedWord a r.fields ||| s.liveWord ses r.base ix) ||| s.pendAt a

/-- R54: the active value of an RWG register. -/
def State.activeWord (s : State) (a : Nat) (l : List RegField) : Nat :=
  (l.filter (fun f => f.acc = .rwg)).foldl (fun w f => w ||| (bits (rget s.regs.act a).toNat f.lo f.w * 2 ^ f.lo)) 0

end Sys2Proof.Machine
end

