-- ==== Sys2Proof/Machine/Windows.lean ====
section
/-! DEFINITION. The table windows (R114, R119, R128, R171, R249, R351, R352): what a word of each holds, who may write it, and
when a write is ignored. -/
namespace Sys2Proof.Machine

/-- The bar `NZM_TBL_BAR` selects. -/
def State.tblBar (s : State) : Fin 8 := ⟨s.f F.NZM_TBL_BAR_BAR % 8, by omega⟩

/-- R128: the bits a matrix word holds. -/
def matMask (fmt1 : Bool) (i : Nat) : Word := if fmt1 || i % 2 == 0 then 0x0FFF0FFF#32 else 0xFFF#32

/-- R171: the bits a word of a descriptor holds; none for a word that is not listed. -/
def descMask (i : Nat) : Word :=
  if i = 0 then 0x0FFFFFFF#32 else if i = 1 then 0x0001FFFF#32 else if i = 4 then 0x000FFFFF#32 else if i = 8 then 0x0FFF0FFF#32
  else if i < 8 then 0xFFFFFFFF#32 else if 16 ≤ i ∧ i < 31 then 0xFFF#32 else 0#32

/-- R249: the bits a segment word holds. -/
def segMask (i : Nat) : Word := match i % 4 with | 0 => 0x03FFFFFF#32 | 3 => 0#32 | _ => 0xFFFFFFFF#32

/-- R352: the write role of a window, under which it is read too (R8). -/
def winRole (a : Nat) : Role := if winOf a = 4 then .maker else .installer

/-- The word of the correction, matrix and tone windows, of a descriptor and of a segment table, by its address. -/
def corrIdx (a : Nat) : Nat := (a - 0x400000) / 4
def matIdx (a : Nat) : Nat := (a - 0x480000) / 4
def toneIdx (a : Nat) : Nat := (a - 0x4C0000) / 4
def descIdx (a : Nat) : Nat := (a - 0x4E0000) / 4
def segIdx (a : Nat) : Nat := (a - 0x500000) % 0x4000 / 4
def segAxis (a : Nat) : Fin 16 := ⟨(a - 0x500000) / 0x4000 % 16, by omega⟩

/-- A word put into a window, for bar b where the window is a bar's. -/
def State.winPut (s : State) (b : Fin 8) (a : Nat) (data : Word) : State :=
  match winOf a with
  | 1 => (s.onBar b fun x => x.winPut (corrIdx a) data).columnWritten b (corrIdx a)
  | 2 => s.onBar b fun x => { x with matrix := rset x.matrix (matIdx a) (data &&& matMask (s.fb (F.HTN_CFG_FMT b.val)) (matIdx a)) }
  | 3 => s.onBar b fun x => { x with tone := rset x.tone (toneIdx a) (data &&& 0xFFF#32) }
  | 4 => s.onLnk fun x => { x with desc := rset x.desc (descIdx a) (data &&& descMask (descIdx a % 64)) }
  | _ => s.onMot fun m => { m with seg := vmod m.seg (segAxis a) fun t => rset t (segIdx a) (data &&& segMask (segIdx a)) }

/-- The address is a word of a window; R3: a bar that the configuration does not contain has no entries. -/
def State.winHas (s : State) (b : Fin 8) (a : Nat) : Bool :=
  match winOf a with
  | 1 => s.hasHeads b.val && decide (corrIdx a < s.cols b.val)
  | 2 => s.hasHeads b.val
  | 3 => s.hasHeads b.val && decide (toneIdx a % 2048 < 1025)
  | 4 => decide (a < 0x4E0400) && decide (descMask (descIdx a % 64) ≠ 0)
  | 5 => decide (0x500000 ≤ a) && decide (a < 0x540000)
  | _ => false

/-- R352: what shuts a window's write out. -/
def State.winShut (s : State) (b : Fin 8) (a : Nat) : Bool :=
  match winOf a with
  | 1 => s.tgtBad b.val
  | 4 => s.anyBound
  | 5 => !s.mot.ax[segAxis a].still
  | _ => s.boundOn b.val

/-- The windows of a bar. -/
def barWin (a : Nat) : Bool := decide (winOf a = 1) || decide (winOf a = 2) || decide (winOf a = 3)

/-- A write to a window: none where it is ignored.  A write to the correction window of a bar with a job bound waits for the
next line the bar begins, and is forwarded there (R119). -/
def State.winFx (s : State) (w : Writer) (a : Nat) (data : Word) : Option State :=
  let b := s.tblBar
  if !s.winHas b a || s.winShut b a then none
  else if winOf a = 1 ∧ s.boundOn b.val then
    some (s.onBar b fun x => { x with winQ := x.winQ ++ [(corrIdx a, data, w.ses, w.role)] })
  else some ((s.winPut b a data).fwdBy w (if barWin a then winAddr b a else a) data (s.lineOf (if barWin a then b.val else 0)))

/-- A session's write to a window. -/
def State.winCmd (s : State) (ses : Fin 5) (a : Nat) (data : Word) : State :=
  s.winWrite ses (winRole a) a data fun t => t.winFx (t.writer ses) a data

/-- What a word of a window reads as. -/
def State.winWord (s : State) (a : Nat) : Word :=
  let b := s.tblBar
  if !s.winHas b a then 0
  else match winOf a with
    | 1 => rget s.bars[b].tgt (corrIdx a) &&& 0x0FFFFFFF#32
    | 2 => rget s.bars[b].matrix (matIdx a) &&& matMask (s.fb (F.HTN_CFG_FMT b.val)) (matIdx a)
    | 3 => rget s.bars[b].tone (toneIdx a) &&& 0xFFF#32
    | 4 => rget s.lnk.desc (descIdx a) &&& descMask (descIdx a % 64)
    | _ => rget s.mot.seg[segAxis a] (segIdx a) &&& segMask (segIdx a)

/-- A window's row is asked for with an address in that window: another address makes the write one of the register or window
that lies there, which its own row names. -/
def State.winRow (s : State) (ses : Fin 5) (n : Nat) (addr : BitVec 24) (data : Word) : State :=
  let a := addr.toNat / 4 * 4
  if winOf a = n then s.winCmd ses a data else s

/-- CORRECTION_WINDOW_WRITE (R119). -/
def execCorrectionWindowWrite (ses : Fin 5) (addr : BitVec 24) (data : Word) (s : State) :
    Host.Outcome State Fault Refusal := .next (s.winRow ses 1 addr data)

/-- MATRIX_WINDOW_WRITE (R128). -/
def execMatrixWindowWrite (ses : Fin 5) (addr : BitVec 24) (data : Word) (s : State) :
    Host.Outcome State Fault Refusal := .next (s.winRow ses 2 addr data)

/-- TONE_CURVE_WINDOW_WRITE (R114). -/
def execToneCurveWindowWrite (ses : Fin 5) (addr : BitVec 24) (data : Word) (s : State) :
    Host.Outcome State Fault Refusal := .next (s.winRow ses 3 addr data)

/-- DESCRIPTOR_WINDOW_WRITE (R171): validity is a function of the descriptors in force, so a write judges it again. -/
def execDescriptorWindowWrite (ses : Fin 5) (addr : BitVec 24) (data : Word) (s : State) :
    Host.Outcome State Fault Refusal := .next (s.winRow ses 4 addr data)

/-- SEGMENT_TABLE_WRITE (R249, R352). -/
def execSegmentTableWrite (ses : Fin 5) (addr : BitVec 24) (data : Word) (s : State) :
    Host.Outcome State Fault Refusal := .next (s.winRow ses 5 addr data)

end Sys2Proof.Machine
end

