-- ==== Sys2Proof/Machine/Mgmt.lean ====
section
/-! DEFINITION. Register accesses of sessions and of the host (R6–R8, R48, R54, R69, R354, R355): reads with their effects, writes
of registers without a command of their own, and the dispatch of every other write to its command; the accesses that a wake
or a full staging area put off (R30, R52). -/
namespace Sys2Proof.Machine

/-! ### Reads (R7, R8, R48) -/

/-- R48: the audit-ring registers, which name the installer role. -/
def auditReg (base : Nat) : Bool := inRange 0x10040 0x10068 base

/-- R8: the session may read a field. -/
def State.readable (s : State) (ses : Fin 5) (base : Nat) (f : RegField) : Bool :=
  match f.role with
  | some r => s.may ses r
  | none => s.may ses (if auditReg base then .installer else .operator)

/-- A word of the fields that satisfy `p`. -/
def maskFields (l : List RegField) (w : Nat) : Nat := l.foldl (fun v f => v ||| (bits w f.lo f.w * 2 ^ f.lo)) 0

/-- R198, R200: counters of what the memory system does between commands: the part that requests the model does not hold singly add is a
free value (log entry 61). -/
def freeCount (base : Nat) : Bool := base == 0x140014 || base == 0x140018 || base == 0x140020 || base == 0x140024

/-- R354: the HI words that a read of a LO word latches. -/
def latchesOf (base a : Nat) : List Nat :=
  if base = 0x1D0014 then [a + 4, a + 8]
  else if base = 0x100120 ∨ base = 0x110144 ∨ base = 0x110150 ∨ base = 0x180020 then [a + 4]
  else []

/-- What a field that a read clears holds afterwards: 0, or the present value that some fields load. -/
def State.rcLoad (s : State) (base : Nat) (ix : List Nat) : Nat :=
  let i := ix.headD 0
  if base = 0x1B003C then twos 16 s.thm.temp
  else if base = 0x80088 then min 0xFFFFFF (vgetD s.bars i {}).lastF
  else if base = 0x20118 then min 0xFFFFFFF (vgetD s.cvq i {}).fill
  else 0

/-- R7: the RC fields a read has returned are cleared. -/
def State.rcClear (s : State) (ses : Fin 5) (a : Nat) (r : RegRow) (ix : List Nat) : State :=
  (r.fields.filter (fun f => f.acc = .rc && s.readable ses r.base f)).foldl (fun t f =>
    t.onRegs fun g => { g with hw := rset g.hw a (BitVec.ofNat 32 (insBits (rget g.hw a).toNat f.lo f.w (s.rcLoad r.base ix))) }) s

/-- The word at `a` as it stands. -/
def State.nowWord (s : State) (ses : Fin 5) (a : Nat) : Nat :=
  match regAt a with | some (r, ix) => s.regWord ses a r ix | none => 0

/-- R354: a read of a LO word latches its HI words for the session. -/
def State.latchHi (s : State) (ses : Fin 5) (l : List Nat) : State :=
  l.foldl (fun t h => t.onSes ses fun x => { x with
    latch := rset x.latch h (BitVec.ofNat 32 (s.nowWord ses h))
    latched := if x.latched.contains h then x.latched else h :: x.latched }) s

/-- R222: an access of `VIS_TBL_DATA` moves the index on. -/
def State.tblNext (s : State) : State := s.setF F.VIS_TBL_SEL_INDEX ((s.f F.VIS_TBL_SEL_INDEX + 1) % 65536)

/-- A register read by a session that holds a role. -/
def State.regRead (s : State) (ses : Fin 5) (a : Nat) (r : RegRow) (ix : List Nat) : State × Word :=
  let fs := r.fields.filter (fun f => s.readable ses r.base f)
  if r.base = 0x160024 then
    if s.may ses .installer then (s.tblNext, BitVec.ofNat 32 (s.visTbl.getD 0 % 65536)) else (s, 0)
  else if freeCount r.base then
    ((s.rcClear ses a r ix).drawn, BitVec.ofNat 32 (min 0xFFFFFFFF (s.regWord ses a r ix + s.freeNat)))
  else
    let w := if s.cfg.sess[ses].latched.contains a then (rget s.cfg.sess[ses].latch a).toNat else s.regWord ses a r ix
    ((s.rcClear ses a r ix).latchHi ses (latchesOf r.base a), BitVec.ofNat 32 (maskFields fs w))

/-- R54: the active value of an RWG register, under the roles of its fields. -/
def State.viewRead (s : State) (ses : Fin 5) (a : Nat) : Word :=
  match regAt a with
  | some (r, _) => BitVec.ofNat 32 (s.activeWord a (r.fields.filter (fun f => s.readable ses r.base f)))
  | none => 0

/-- A read of configuration space at word address `a`. -/
def State.readAt (s : State) (ses : Fin 5) (a : Nat) : State × Word :=
  if !s.may ses .operator then (s, 0)
  else if s.inMode .frozen && !frozenDiag (a % 0x200000 + if 0x400000 ≤ a then 0x400000 else 0) then (s, 0)
  else if winOf a ≠ 0 then (s, if s.may ses (winRole a) then s.winWord a else 0)
  else if 0x200000 ≤ a then (s, s.viewRead ses (a - 0x200000))
  else match regAt a with
    | some (r, ix) => s.regRead ses a r ix
    | none => (s, 0)

/-- A session's read: its word is the answer.  A read of a gated island completes after the wake it starts (R30). -/
def State.sesRead (s : State) (ses : Fin 5) (addr : Nat) : State :=
  s.live fun s =>
    let a := addr / 4 * 4
    if s.may ses .operator && s.inMode .idle && s.sys.cold && coldGated a then
      s.wake.onSys fun y => { y with afterWake := y.afterWake ++ [(ses, a, none)] }
    else
      let r := s.readAt ses a
      r.1.onSys fun y => { y with resp := r.2 }

/-- READ_CLEAR (R7): a session reads a register; RC fields it may read are cleared. -/
def execReadClear (ses : Fin 5) (addr : BitVec 24) (s : State) : Host.Outcome State Fault Refusal := .next (s.sesRead ses addr.toNat)

/-- LO_READ_LATCH (R354): a session reads the LO word of a pair. -/
def execLoReadLatch (ses : Fin 5) (addr : BitVec 24) (s : State) : Host.Outcome State Fault Refusal :=
  .next (s.sesRead ses addr.toNat)

/-! ### Writes of registers (R6–R8) -/

/-- The seat has the holder's mode in force: `IDLE/WARM` or `HALT`. -/
def State.restful (s : State) : Bool := s.idleWarm || s.inMode .halt

/-- R8, R291: the fields a writer reaches: of `ENC_CFG` a standby's own session reaches TERM and a forwarded write the rest;
`TBL_CFG`.TWIN is open in `IDLE/WARM` and `HALT`. -/
def State.reach (s : State) (w : Writer) (fwd : Bool) (base : Nat) (f : RegField) : Bool :=
  decide (f.acc = .rw ∨ f.acc = .rwg ∨ f.acc = .w1c) && (match f.role with | some r => covers w.role r | none => false)
    && !(base == 0x100100 && (if fwd then f.lo == 4 else s.inMode .standby && f.lo != 4))
    && !(base == 0x1A0000 && f.lo == 0 && !s.restful)

/-- Registers that take no write as things stand. -/
def State.regShut (s : State) (base i : Nat) : Bool :=
  if base = 0x30010 ∨ base = 0x30014 then !(s.restful && s.ing.jobs.isEmpty)
  else if base = 0x88004 then s.boundOn i
  else if base = 0x8C1AC ∨ base = 0x160000 ∨ base = 0x160100 then !s.restful
  else false

/-- R127: FMT takes no write while a job is bound on the bar. -/
def State.fldShut (s : State) (base i : Nat) (f : RegField) : Bool := base == 0x88000 && f.lo == 0 && s.boundOn i

/-- R49: the fields whose value is clamped to a limit as it is written. -/
def State.clampWrite (s : State) (base : Nat) (ix : List Nat) (f : RegField) (word v : Nat) : Nat :=
  let i := ix.headD 0
  let k := ix.getD 1 0
  if base = 0x170100 then
    let lo := s.f (F.CHL_DLIM_LO i k)
    clampN lo (max lo (s.f (F.CHL_DLIM_HI i k))) v
  else if base = 0x15000C then clampN 256 8192 v
  else if base = 0x182000 then min v (s.f F.MOT_WEB_VMAX_MMS)
  else if base = 0x191008 ∧ f.lo = 0 then min v (bits word 16 16)
  else v

/-- The fields `fs` written into a stored word. -/
def putFields (fs : List RegField) (val : RegField → Nat) (old : Word) : Word :=
  BitVec.ofNat 32 (fs.foldl (fun w f => insBits w f.lo f.w (val f)) old.toNat)

/-- The fields of a register written: RW as stored, RWG in the shadow, W1C flags cleared. -/
def State.putReg (s : State) (a : Nat) (ix : List Nat) (base : Nat) (fs : List RegField) (data : Word) : State :=
  let d := data.toNat
  let merged := (putFields (fs.filter (fun f => f.acc = .rw)) (fun f => bits d f.lo f.w) (rget s.regs.rw a)).toNat
  let one := fun (f : RegField) => s.clampWrite base ix f merged (bits d f.lo f.w)
  s.onRegs fun r => { r with
    rw := rset r.rw a (putFields (fs.filter (fun f => f.acc = .rw)) one (rget r.rw a))
    shadow := rset r.shadow a (putFields (fs.filter (fun f => f.acc = .rwg)) one (rget r.shadow a))
    hw := rset r.hw a (putFields (fs.filter (fun f => f.acc = .w1c))
      (fun f => bits (rget r.hw a).toNat f.lo f.w - (bits (rget r.hw a).toNat f.lo f.w &&& bits d f.lo f.w)) (rget r.hw a)) }

/-- What follows from a register's write: a target outside its limits clears its knot's accumulator (R244); the layer store is
tested again (R66); Table lanes follow `TBL_CFG`. -/
def State.regAfter (s : State) (s0 : State) (base : Nat) (ix : List Nat) (data : Word) : State :=
  let i := ix.headD 0
  let k := ix.getD 1 0
  if base = 0x170100 then
    if s.f (F.CHL_DTGT_D i k) = bits data.toNat 0 12 then s else (if h : i < 8 then s.knotCleared ⟨i, h⟩ k else s)
  else if base = 0x30010 ∨ base = 0x30014 then
    s.onIng fun g => { g with lsBad := decide (s.f F.MEM_CAP_MIB < s.f F.ING_LS_BASE_BASE + s.f F.ING_LS_SIZE_SIZE) }
  else if base = 0x1A0000 then
    if s.f F.TBL_CFG_RATE ≠ s0.f F.TBL_CFG_RATE then s.lanesStart isTbl
    else (List.finRange 52).foldl (fun s n => if isTbl n then s.laneReview n else s) s
  else s

/-- R222: the table entry `VIS_TBL_SEL` selects, written; none: the index lies beyond the table, or the camera is in use. -/
def State.visPut (s : State) (fwd : Bool) (data : Word) : Option State :=
  let k : Fin 8 := ⟨s.f F.VIS_TBL_SEL_CAM % 8, by omega⟩
  let i := s.f F.VIS_TBL_SEL_INDEX
  let v := data &&& 0xFFFF#32
  if s.visTbl.isNone || (!fwd && s.inMode .print && s.camOn k) then none
  else
    let white := s.fb F.VIS_TBL_SEL_TBL
    some (s.onVis fun x => { x with cam := vmod x.cam k fun c =>
      if white then { c with white := rset c.white i v } else { c with curve := rset c.curve i v } })

/-- R248: a write of `MOT_TARGET_LO` while the axis moves. -/
def State.loShut (s : State) (base : Nat) (ix : List Nat) : Bool :=
  decide (base = 0x180014) && !(vgetD s.mot.ax (ix.headD 0) {}).still

/-- A register written by `w`: none where the write is ignored.  `fwd`: the holder has accepted it. -/
def State.regFx (s : State) (w : Writer) (fwd : Bool) (a : Nat) (r : RegRow) (ix : List Nat) (data : Word) : Option State :=
  let fs := r.fields.filter (fun f => s.reach w fwd r.base f && (fwd || !s.fldShut r.base (ix.headD 0) f))
  if fs.isEmpty || (!fwd && s.regShut r.base (ix.headD 0)) then none
  else if r.base = 0x160024 then (s.visPut fwd data).map State.tblNext
  else if s.loShut r.base ix then some (s.setF (F.MOT_FLAGS_TGT_REJ (ix.headD 0)) 1)
  else some ((s.putReg a ix r.base fs data).regAfter s r.base ix data)

/-- The stored value of a register, as the audit ring records it. -/
def State.auditVal (s : State) (a : Nat) (r : RegRow) : Nat :=
  if r.base = 0x160024 then s.visTbl.getD 0 else s.storedWord a r.fields

/-- The new value of a register, as the audit ring records it. -/
def State.auditNew (s : State) (a : Nat) (r : RegRow) (data : Word) : Nat :=
  if r.base = 0x160024 then data.toNat % 65536 else s.storedWord a r.fields

/-- R291: the registers whose writes on the holder are not forwarded: those a standby takes from its own sessions. -/
def localReg (a : Nat) : Bool := seatLocal a && !(inRange 0x100100 0x100500 a && a % 0x100 == 0)

/-- The first print line bar b begins from now on. -/
def State.nextBegin (s : State) (b : Fin 8) : Nat :=
  match s.bars[b].mid, s.nextPrint b with
  | some m, _ => pl (m.line + 1)
  | none, some n => n
  | none, none => s.lineOf b.val

/-- R290: the line index a register's write carries: of a bar's own block, the line from which the bar uses it; else of bar 0. -/
def State.writeLine (s : State) (a : Nat) : Nat :=
  if h : 0x80000 ≤ a ∧ a < 0x100000 then s.nextBegin ⟨(a - 0x80000) / 0x10000, by omega⟩ else s.lineOf 0

/-- A session's write of a register that no other row names. -/
def State.regCmd (s : State) (ses : Fin 5) (a : Nat) (data : Word) : State :=
  s.sesWriteBy ses .operator a data fun s =>
    match regAt a with
    | none => none
    | some (r, ix) =>
      let w := s.writer ses
      match s.regFx w false a r ix data with
      | none => if r.base = 0x160024 ∧ covers w.role .installer then some s.tblNext else none
      | some t =>
        let t1 := if s.loShut r.base ix then t else t.auditWrite ses a (s.auditVal a r) (t.auditNew a r data)
        some (if localReg a then t1 else t1.fwdBy w a data (s.writeLine a))

/-! ### Every write by its address -/

/-- The element of an array of `n` registers that has the address `a`. -/
def elem? (base stride n a : Nat) : Option (Fin n) :=
  if h : base ≤ a ∧ (a - base) % stride = 0 ∧ (a - base) / stride < n then some ⟨(a - base) / stride, h.2.2⟩ else none

/-- R248: what a word of `MOT_CMD` does under a role: GO, then STOP. -/
def State.motFx (s : State) (r : Role) (a : Fin 16) (w : Word) : Option State :=
  let go := if w.getLsbD 0 && covers r .installer then s.motGo a else none
  if w.getLsbD 1 then (match (go.getD s).motStop a with | some t => some t | none => go) else go

/-- A session's write of `MOT_CMD`. -/
def State.motCmd (s : State) (ses : Fin 5) (a : Fin 16) (w : Word) : State :=
  s.sesCmd ses .operator (motCmdAddr a) w fun s =>
    (s.motFx (s.writer ses).role a w).map fun t => t.fwdWrite ses (motCmdAddr a) w

/-- R53: a write of a commit register: GO and DISCARD together are ignored. -/
def State.commitCmd (s : State) (ses : Fin 5) (g : Group) (w : Nat) : State :=
  match bits w 0 2 with
  | 1 => s.commitGo ses g
  | 2 => s.commitDiscard ses g
  | _ => s

/-- A write of `TBL_CMD`: codes 1 and 2. -/
def State.tblWrite (s : State) (ses : Fin 5) (w : Nat) : State :=
  if bits w 0 2 = 1 ∨ bits w 0 2 = 2 then s.tblCmd ses (BitVec.ofNat 8 (bits w 24 8)) (bits w 0 2) else s

/-- R207: a diagnosis read; what the devices return is a free value. -/
def State.diagCmd (s : State) (ses : Fin 5) (w : Word) : State :=
  if w.getLsbD 0 then
    s.sesCmd ses .maker 0x150028 w fun s =>
      (s.diagBeat (BitVec.ofNat 64 s.freeNat) (BitVec.ofNat 16 (s.freeNat / 2 ^ 64))).map State.drawn
  else s

/-- The command register at `a`, as a command of its own with the word written. -/
def State.cmdAt (s : State) (ses : Fin 5) (a : Nat) (w : Word) : Option State :=
  if a = 0x104 then some (s.modeReq ses (reqOf w.toNat))
  else if a = 0x110 then some (s.resetCmd ses w)
  else if a = 0x10010 then some (s.nvmCmd ses w)
  else if a = 0x150028 then some (s.diagCmd ses w)
  else if a = 0x170A04 then some (s.calCmd ses (BitVec.ofNat 4 w.toNat))
  else if a = 0x182060 then some (s.seqCommand ses (bits w.toNat 0 3))
  else if a = 0x1A0020 then some (s.tblWrite ses w.toNat)
  else if a = 0x1D000C then some (s.timCmd ses w)
  else match elem? 0x20108 32 64 a, elem? 0x2010C 32 64 a, elem? 0x10011C 0x100 4 a, elem? 0x18001C 0x200 16 a, elem? 0x180018 0x200 16 a with
    | some q, _, _, _, _ => some (s.duneWrite ses q false w)
    | _, some q, _, _, _ => some (s.duneWrite ses q true w)
    | _, _, some c, _, _ => some (s.encCmd ses c w)
    | _, _, _, some x, _ => some (s.motCmd ses x w)
    | _, _, _, _, some x => some (s.cmdTarget ses x w.toNat)
    | _, _, _, _, _ => none

/-- The command registers of the lanes. -/
def State.laneCmdAt (s : State) (ses : Fin 5) (a : Nat) (w : Word) : Option State :=
  match elem? 0x120068 0x400 40 a, elem? 0x120080 0x400 40 a, elem? 0x120090 0x400 40 a, elem? 0x1A0110 0x40 12 a with
  | some n, _, _, _ => some (if w.getLsbD 0 then s.patGo ses n else s)
  | _, some n, _, _ => some (s.injCmd ses n w)
  | _, _, some n, _ => some (s.eyeCmd ses ⟨n.val, by omega⟩ w)
  | _, _, _, some k => some (s.eyeCmd ses ⟨40 + k.val, by omega⟩ w)
  | _, _, _, _ => none

/-- A session's write at word address `a`; a burst of the session that it does not continue ends with it (R50). -/
def State.writeAt (s0 : State) (ses : Fin 5) (a : Nat) (w : Word) : State :=
  let s := s0.live fun s => s.burstCut ses a
  if winOf a ≠ 0 then s.winCmd ses a w
  else if 0x200000 ≤ a then s
  else match groupAt a with
    | some g => s.commitCmd ses g w.toNat
    | none => match s.cmdAt ses a w with
      | some t => t
      | none => match s.laneCmdAt ses a w with
        | some t => t
        | none => s.regCmd ses a w

/-! ### The host's ring registers (R69) -/

/-- The 64-bit address `v` with one word replaced; bits [11:0] are ignored. -/
def putHalf (v : BitVec 64) (hi : Bool) (w : Word) : BitVec 64 :=
  let lo := if hi then v.toNat % 2 ^ 32 else w.toNat / 4096 * 4096
  let up := if hi then w.toNat else v.toNat / 2 ^ 32
  BitVec.ofNat 64 (up * 2 ^ 32 + lo)

/-- R69: the registers that accept writes only while EN is 0. -/
def Ring.setup (x : Ring) (ofs : Nat) (w : Word) : Ring :=
  if x.en then x
  else if ofs = 0 then { x with base := putHalf x.base false w }
  else if ofs = 4 then { x with base := putHalf x.base true w }
  else if ofs = 8 then { x with log2 := clampN 4 16 w.toNat }
  else if ofs = 0xC then { x with cplBase := putHalf x.cplBase false w }
  else if ofs = 0x10 then { x with cplBase := putHalf x.cplBase true w }
  else if ofs = 0x14 then { x with vector := w.toNat % 32 }
  else x

/-- The host writes word `a` of BAR0. -/
def State.hostWrite (s : State) (a : Nat) (w : Word) : State :=
  if h : a < 0x8000 then
    let r : Fin 8 := ⟨a / 0x1000, by omega⟩
    let ofs := a % 0x1000
    let lo : BitVec 16 := BitVec.ofNat 16 w.toNat
    if ofs = 0x18 then s.live fun s => s.doorbell r lo
    else s.hostLive fun s =>
      if ofs = 0x20 then s.cplAck r lo
      else if ofs = 0x24 then
        (s.when (w.getLsbD 1) fun s => s.ringReset r).onRing r fun x => { x with en := w.getLsbD 0 }
      else s.onRing r fun x => x.setup ofs w
  else s

/-- REGISTER_WRITE (R6): a session writes configuration space, or the host BAR0. -/
def execRegisterWrite (by_ : Port) (addr : BitVec 24) (data : Word) (s : State) : Host.Outcome State Fault Refusal :=
  let a := addr.toNat / 4 * 4
  match by_ with
  | .session n => .next (s.writeAt n a data).settleFaults
  | .host => .next (s.hostWrite a data)

/-! ### Accesses put off (R30, R52) -/

/-- The writes a full staging area held are made, in their order. -/
def State.heldReplay (s : State) : State :=
  let l := s.cfg.heldWrites
  l.foldl (fun t e => t.writeAt e.1 e.2.1 e.2.2) (s.onCfg fun c => { c with heldWrites := [] })

/-- AUDIT_PAGE_PROGRAM (R52). -/
def execAuditPageProgram (s : State) : Host.Outcome State Fault Refusal :=
  .next (s.live fun s => s.auditPage.heldReplay.settleFaults)

/-- R30: the accesses that woke the seat complete. -/
def State.wakeReplay (s : State) : State :=
  let l := s.sys.afterWake
  l.foldl (fun t e => match e.2.2 with | some w => t.writeAt e.1 e.2.1 w | none => t.sesRead e.1 e.2.1)
    (s.onSys fun y => { y with afterWake := [] })

/-- COLD_WAKE_COMPLETE (R30). -/
def State.wakeDone (s : State) : State :=
  if s.sys.waking && s.inMode .idle && s.sys.cold then
    (((s.onSys fun y => { y with waking := false }).coldWarm).setMode .idle false).wakeReplay
  else s

def execColdWakeComplete (s : State) : Host.Outcome State Fault Refusal := .next (s.live fun s => s.wakeDone.settleFaults)

/-! ### Forwarded writes (R290, R50) -/

/-- R50: a forwarded window write joins the burst it continues, or starts one. -/
def State.fwdBurstWrite (s : State) (w : Writer) (a : Nat) (data : Word) : State :=
  if !covers w.role .installer then s
  else
    let on := match s.cfg.fwdBurst with | some (n, b) => decide (n = w.ses) && b.goesOn a | none => false
    let s1 := if on then s else s.endFwdBurst
    let b : Burst := match s1.cfg.fwdBurst with
      | some (_, b) => b
      | none => { first := a, next := a, count := 0, role := w.role }
    s1.onCfg fun c => { c with fwdBurst := some (w.ses,
      { b with next := a + 4, count := b.count + 1, crc := crc32cReg b.crc (leBytes 4 data.toNat) }) }

/-- A forwarded write of a command register; none: `a` is none. -/
def State.fwdCmdAt (s : State) (w : Writer) (a : Nat) (data : Word) : Option State :=
  if a = 0x182060 then some (s.asShadow fun t => (t.seqFx (bits data.toNat 0 3)).getD t)
  else if a = 0x1D000C then some ((s.timFx w.role data.toNat).getD s)
  else match elem? 0x20108 32 64 a, elem? 0x2010C 32 64 a, elem? 0x10011C 0x100 4 a, elem? 0x18001C 0x200 16 a, elem? 0x180018 0x200 16 a with
    | some q, _, _, _, _ => some (s.duneFx q false data)
    | _, some q, _, _, _ => some (s.duneFx q true data)
    | _, _, some c, _, _ => some (s.encFx c data)
    | _, _, _, some x, _ => some ((s.motFx w.role x data).getD s)
    | _, _, _, _, some x => some (s.targetFx x (data.toNat % 65536))
    | _, _, _, _, _ => none

/-- R290, R50: a forwarded write is made and recorded with the forwarded flag set. -/
def State.fwdApply (s : State) (w : Writer) (addr : Nat) (data : Word) : State :=
  let a := addr % 2 ^ 24
  if winOf a ≠ 0 then (s.winPut ⟨addr / 2 ^ 24 % 8, by omega⟩ a data).fwdBurstWrite w a data
  else
    let s0 := match s.cfg.fwdBurst with | some (n, _) => if n = w.ses then s.endFwdBurst else s | none => s
    let note := fun (t : State) (old new : Nat) => t.auditBy 0x81 w.role w.ses a old new
    match groupAt a with
    | some g => note (if data = 1 then s0.goStage g else s0.unstage g) 0 data.toNat
    | none => match s0.fwdCmdAt w a data with
      | some t => note t 0 data.toNat
      | none => match regAt a with
        | none => s0
        | some (r, ix) => match s0.regFx w true a r ix data with
          | some t => note t (s0.auditVal a r) (t.auditNew a r data)
          | none => s0

end Sys2Proof.Machine
end

