-- ==== Sys2Proof/Machine/Standby.lean ====
section
/-! DEFINITION. What a seat in `STANDBY` does with the holder's records and line events (R26, R68, R227, R237, R243, R282, R290,
R292), the bar engines on either seat, and the join (R299). -/
namespace Sys2Proof.Machine

/-! ### When an item applies (R290) -/

/-- A register whose fields are all RWG: a write changes its shadow only. -/
def shadowReg (a : Nat) : Bool := match regAt a with | some (r, _) => r.fields.all (fun f => f.acc != .rw && f.acc != .w1c) | none => false

/-- The instant at which an item applies. -/
inductive ItemAt
  | now
  | bar (b : Fin 8) (line : Nat)
  | line (n : Nat)
  | grid (g : Nat)
  | frame (k : Fin 8) (n : Nat)
  /-- After the requests before it. -/
  | mode
deriving DecidableEq, Repr

/-- R290: a forwarded write: of a bar's window or register at the line its bar begins, of a shadow at once, else at the line
index carried. -/
def writeAtOf (addr line : Nat) : ItemAt :=
  let a := addr % 2 ^ 24
  if barWin a then .bar ⟨addr / 2 ^ 24 % 8, by omega⟩ line
  else if (groupAt a).isSome || shadowReg a then .now
  else if h : 0x80000 ≤ a ∧ a < 0x100000 then .bar ⟨(a - 0x80000) / 0x10000, by omega⟩ line
  else .line line

/-- R290: the point at which an item is applied. -/
def itemAt : FwdItem → ItemAt
  | .write _ _ addr _ line => writeAtOf addr line
  | .request _ g => .grid g
  | .commit g line => match instantOf g with | .bar b => .bar b line | _ => .line line
  | .hold (.gain b _ _) line => .bar ⟨b % 8, by omega⟩ line
  | .hold (.knot b _ _) line => .bar ⟨b % 8, by omega⟩ line
  | .hold (.out b _) line => .bar ⟨b % 8, by omega⟩ line
  | .hold (.trim _ _) g => .grid g
  | .white cam _ frame => .frame ⟨cam % 8, by omega⟩ frame
  | .gpio _ _ g => .grid g
  | .mode _ _ => .mode
  | _ => .now

/-- The next line bar b begins is line `n` or later, and the holder's front has passed it. -/
def State.barReached (s : State) (b : Fin 8) (n : Nat) : Bool :=
  !s.boundOn b.val || (s.bars[b].mid.isNone && (match s.nextPrint b with | some m => !lineBefore m n && s.frontOk b m | none => true))

/-- The item's point has come; `before`: the items ahead of it that still wait. -/
def State.itemDue (s : State) (before : List FwdItem) (i : FwdItem) : Bool :=
  match itemAt i with
  | .now => true
  | .bar b n => s.barReached b n
  | .line n => !lineBefore (s.lineOf 0) n
  | .grid g => !lineBefore s.ltm.g.toNat g &&
      (match i with | .request _ _ => before.all (fun x => itemAt x != .mode) | _ => true)
  | .frame k n => decide (n ≤ s.vis.cam[k].frame)
  | .mode => before.all (fun x => match x with | .request _ _ => false | .mode _ _ => false | _ => true)

/-! ### What an item does -/

/-- R68: a forwarded descriptor. -/
def State.descItem (s : State) (r : Fin 8) (d : Desc) (p : List Byte) : State :=
  match d.op.toNat with
  | 1 => s.openJob r d p
  | 2 => s.dataDesc r d p
  | 3 => s.closeJob r d p
  | 4 => s.asShadow fun t => t.abortDesc r d
  | _ => s

/-- R68, R75, R76: a job event: 1 staged, 2 retired, 3 failed, 4 an object unusable; one whose handle is stale is counted. -/
def State.jobItem (s : State) (h : BitVec 16) (kind status obj : Nat) : State :=
  let tag := tagOf h
  match s.job? h with
  | none => s.stale
  | some j =>
    match kind with
    | 1 => s.settleClose j 0
    | 2 => s.asShadow fun t => t.leaveJob tag status
    | 4 => s.objLost tag obj
    | _ =>
      if s.sys.jobs.any (fun b => tagOf b.handle == tag) then
        s.asShadow fun t => ((t.ctxDrop tag).failJob tag status 0).dropJobs (fun b => tagOf b.handle ≠ tag)
      else s.settleClose j status

/-- R26, R290: a request of the holder, at the grid line it carries.  What codes 0x1 and 0x2 do in `IDLE` comes with the mode;
code 0x8 is never the holder's.  A session's request is recorded with the forwarded flag set (R50). -/
def State.requestItem (s0 : State) (r : ModeReq) : State :=
  let s := match r.who with | some w => s0.auditBy 0x81 w.2 w.1 0x104 0 (reqWord r).toNat | none => s0
  s.asShadow fun t =>
    let t1 := match r.code with
      | 1 => if t.inMode .ready then t.reqDo r false else t
      | 2 => t
      | 8 => t
      | 3 => t.bindPrep.reqDo r false
      | _ => t.reqDo r false
    if t1.sys.endFiring then t1.firingEnds else t1

/-- R237: an act of the holder's colour hold unit. -/
def State.holdItem (s : State) : HoldAct → State
  | .gain b col entry =>
    let b : Fin 8 := ⟨b % 8, by omega⟩
    (s.onBar b fun x => x.holdPut col entry).onChl fun x => { x with
      blkWait := vmod x.blkWait b (fun l => if l.contains (col / 1024) then l else l ++ [col / 1024]) }
  | .knot b i v =>
    let b : Fin 8 := ⟨b % 8, by omega⟩
    let s1 := s.setF (F.TON_OFS_OFS b.val i) (twos 12 v)
    (if s1.boundOn b.val then s1 else s1.knotsFree b).onChl fun x => { x with toneWait := vset x.toneWait b true }
  | .trim b v =>
    let b : Fin 8 := ⟨b % 8, by omega⟩
    (s.onLtm fun l => { l with trim := vset l.trim b v }).onChl fun x => { x with
      trim := vset x.trim b v, regWait := vset x.regWait b true }
  | .out b col => s.onBar ⟨b % 8, by omega⟩ fun x => x.autoPut col

/-- R227: a statistics record, and the frame number that goes with it. -/
def State.statsItem (s : State) (r : StatRec) : State :=
  let k : Fin 8 := ⟨r.cam % 8, by omega⟩
  (s.onVis fun v => { v with
    cam := vmod v.cam k (fun c => { c with frame := r.frame })
    outQ := v.outQ ++ [(52 + (portOf k).val, r)] }).visPump

/-- R26: `HALT` of the holder: its web is at rest and its firing has ended. -/
def State.shadowHalts (s : State) : State :=
  if s.inMode .halt then s
  else
    let s1 := ((s.onLtm fun l => { l with armed := false, commit := none }).cutOff).onSys fun y => { y with
      stops := [], stopping := false, endFiring := false, svc := none, req := none
      flow := if y.flow = .halt then .halt else .none, seqStep := if y.flow = .halt then y.seqStep else .none }
    s1.onMot fun m => { m with w := 0, rest := true, zeroUs := 10000, stop := none }

/-- R25, R29, R290: the holder's mode. -/
def State.modeItem (s : State) (m : Mode) (cold : Bool) : State :=
  s.asShadow fun t =>
    let t1 := if m = .halt then t.shadowHalts else t
    let t2 := if cold && !t1.sys.cold then t1.coldRest else if !cold && t1.sys.cold then t1.coldWarm else t1
    t2.setMode m cold

/-- R53, R290: a commit of the holder takes effect. -/
def State.commitItem (s : State) (g : Group) (line : Nat) : State :=
  if s.regs.pending.contains g then
    s.applyGroup g (match instantOf g with
      | .soon => 0
      | .vis => s.vis.cam[s.visCamOf g].frame
      | .sens => s.vis.cam[s.visCamOf g].frame
      | _ => line) line
  else s

/-- An item applied. -/
def State.applyItem (s : State) : FwdItem → State
  | .desc r d p => s.descItem r d p
  | .job h kind status obj => s.jobItem h kind status obj
  | .write by_ role addr data _ => s.fwdApply { ses := by_, role := role } addr data
  | .request r _ => s.requestItem r
  | .commit g line => s.commitItem g line
  | .hold a _ => s.holdItem a
  | .stats r => s.statsItem r
  | .white cam vals _ =>
    let k : Fin 8 := ⟨cam % 8, by omega⟩
    s.onChl fun c => { c with whiteGoal := vset c.whiteGoal k (some (s.vis.cam[k].white, vals)) }
  | .lamp c i => s.asShadow fun t => t.lampFrame c i
  | .gpio pin level _ => s.onPad fun p => { p with gpio := if level then p.gpio ||| (1#32 <<< pin) else p.gpio &&& ~~~(1#32 <<< pin) }
  | .front l => s.onTbl fun t => { t with fronts := Vector.ofFn (fun (b : Fin 8) => l.getD b.val t.fronts[b]) }
  | .mode m cold => s.modeItem (Mode.ofCode m) cold

/-- Items in their order: those whose point has come are applied, the others kept. -/
def State.itemsPass (s : State) (kept : List FwdItem) : List FwdItem → State
  | [] => if s.inMode .standby then s.onTbl fun t => { t with later := kept } else s
  | i :: t =>
    if !s.inMode .standby then s
    else if s.itemDue kept i then (s.applyItem i).itemsPass kept t
    else s.itemsPass (kept ++ [i]) t

/-- Every waiting item whose point has come; one applied may bring the point of another. -/
def State.settleLater (s : State) : State :=
  if s.inMode .standby then (s.itemsPass [] s.tbl.later) else s

/-- R292: the line events whose records are all in, in their order. -/
def State.runEvts (s : State) : Nat → State
  | 0 => s
  | k + 1 =>
    match s.tbl.evts with
    | [] => s
    | e :: t =>
      if !s.inMode .standby || newer e.fseq s.tbl.rxSeq then s
      else (((s.onTbl fun x => { x with evts := t }).lineEvt e).settleLater).runEvts k

/-- Waiting items, then line events. -/
def State.standbyOn (s : State) : State := s.settleLater.runEvts s.tbl.evts.length

/-! ### The stream and the line events -/

/-- FORWARD_RECORD (R282): a record in order is accepted; one that fails its CRC, or a gap, is asked for again; one received
before is passed over.  Before the checkpoint a joining seat has its content from the copy (R299). -/
def State.recordIn (s : State) (r : FwdRec) (crcOk : Bool) : State :=
  if !(s.inMode .standby) then s
  else if !crcOk then s.askReplay
  else if r.fseq = s.tbl.rxSeq then
    (s.onTbl fun t => { t with rxSeq := t.rxSeq + 1, later := t.later ++ [r.item] }).standbyOn
  else if newer r.fseq s.tbl.rxSeq then s.askReplay
  else s

def execForwardRecord (r : FwdRec) (crcOk : Bool) (s : State) : Host.Outcome State Fault Refusal :=
  .next (s.liveF fun s => s.recordIn r crcOk)

/-- LINE_EVENT (R281, R292): acted on once every earlier record is in. -/
def execLineEvent (g : BitVec 48) (f : Nat) (void : Bool) (deal fseq : BitVec 32) (s : State) : Host.Outcome State Fault Refusal :=
  .next (s.liveF fun s => s.when (s.inMode .standby) fun s =>
    (s.onTbl fun t => { t with
      otherDeal := deal, deal := deal
      evts := t.evts ++ [{ g := g.toNat, f := f % 2 ^ 32, void := void, deal := deal, fseq := fseq }] }).standbyOn)

/-! ### The bar engines (R87, R120, R121, R290) -/

/-- R292: a record a lane waited for is taken when it arrives. -/
def State.lateTakes (s : State) (b : Fin 8) : State :=
  if s.inMode .standby then
    (List.finRange 40).foldl (fun s n =>
      if n.val / 5 = b.val ∧ s.laneHasHeads n.val then s.standbyTake n s.cvq[(⟨n.val, by omega⟩ : Fin 64)].fill else s) s
  else s

/-- BAR_COMPOSE_LINE (R87, R112, R290). -/
def State.barWorks (s : State) (b : Fin 8) : State :=
  if s.engineOn then (((s.settleLater.composeLine b).settleBar b).lateTakes b).when (s.inMode .standby) State.digestsOut else s

def execBarComposeLine (b : Fin 8) (s : State) : Host.Outcome State Fault Refusal := .next (s.liveF fun s => s.barWorks b)

/-- SLEWER_WRITEBACK (R120). -/
def execSlewerWriteback (b : Fin 8) (s : State) : Host.Outcome State Fault Refusal :=
  .next (s.live fun s => (s.slewerWriteback b).settleBar b)

/-- IDLE_TABLE_UPDATE (R121). -/
def execIdleTableUpdate (b : Fin 8) (block : Nat) (s : State) : Host.Outcome State Fault Refusal :=
  .next (s.live fun s => s.when (!s.boundOn b.val) fun s => (s.onBar b fun x => x.takeTarget (s.cols b.val) block).settleBar b)

/-! ### The join (R299) -/

/-- MiB of the layer store in use. -/
def usedMiB (l : List Job) : Nat := (l.map Job.used).foldl (· + ·) 0 / 1048576

/-- R291: the registers a seat keeps as its own. -/
def ownReg (a : Nat) : Bool := localReg a || decide (a < 0x20000 ∧ a ≠ 0x108 ∧ a ≠ 0x10004)

/-- The registers of the checkpoint beside the seat's own. -/
def Regs.adopt (r : Regs) (c : Checkpoint) : Regs :=
  let take := fun (src dst : RegMap) => rcopy (fun a => !ownReg a) src dst
  let own := r.pending.filter groupLocal
  { r with
    rw := take c.rw r.rw
    shadow := take c.shadow r.shadow
    pend := take c.pend r.pend
    act := take c.act r.act
    pending := own ++ c.pending.filter (fun g => !groupLocal g) }

/-- R299, step 3: the joining seat takes over the holder's state and enters `STANDBY`. -/
def State.adopt (s : State) (c : Checkpoint) : State :=
  let s1 := s.onRegs fun r => r.adopt c
  let s2 := { s1 with
    bars := c.bars
    ltm := { c.ltm with hist := s.ltm.hist, now := s.ltm.now, fPrev := none, commit := none, fresh := false, catchUp := false }
    chl := { c.chl with tlast := s.chl.tlast, due := s.chl.due, running := s.chl.running }
    mot := c.mot
    lmp := { c.lmp with chain := s.lmp.chain } }
  let s3 := (s2.onIng fun g => { g with jobs := c.jobs, gens := c.gens }).onLnk fun x => { x with desc := c.desc }
  let s4 := s3.onVis fun v => { v with cam := Vector.ofFn (fun (k : Fin 8) => { v.cam[k] with frame := c.frames[k] }) }
  let s5 := s4.onTbl fun t => { t with
    rxSeq := c.fseq, resync := usedMiB c.jobs, left := 0, gridSet := false, evts := [], cmps := [], digs := [], later := []
    posRun := 0, fronts := Vector.replicate 8 0 }
  let s6 := s5.onSys fun y => { y with
    shadow := c.mode, shadowCold := c.cold, jobs := c.bound, stops := c.stops, stopping := c.stopping, endFiring := c.endFiring
    flow := c.flow, seqStep := c.seqStep, svc := c.svc }
  let q := (List.finRange 64).foldl (fun s q => (if q.val < 40 then s.qFlush q else s).ringTest q) s6
  (if c.cold then q.coldRest else q).setMode .standby false

/-- RESYNC_COPY_DONE (R299): on the holder the copy has ended and the checkpoint is due; on the joining seat it arrives. -/
def State.copyDone (s : State) (cp : Option Checkpoint) : State :=
  match cp with
  | none =>
    if s.tbl.holder && !s.tbl.inStep && s.groupUp then
      (s.onTbl fun t => { t with
        joining := true, resync := usedMiB s.ing.jobs, replay := [], replayBytes := 0, cpDue := true }).checkpointTry false
    else s
  | some c => if s.tbl.joining && !s.tbl.holder && s.idleWarm && s.groupUp then s.adopt c else s

def execResyncCopyDone (cp : Option Checkpoint) (s : State) : Host.Outcome State Fault Refusal := .next (s.live fun s => s.copyDone cp)

/-- AUTO_JOIN (R299): after `BOOT`, once, the seat joins by itself. -/
def State.autoJoin (s : State) : State :=
  if s.fb F.TBL_CFG_AUTO_JOIN && s.joinOk && s.inMode .idle && !s.tbl.joining && decide (s.tbl.left = 0) && s.tbl.idleS.isNone
      && s.sys.req.isNone && !s.sys.stopping then
    s.reqDo { code := 8 } false
  else s

def execAutoJoin (s : State) : Host.Outcome State Fault Refusal := .next (s.live State.autoJoin)

/-! ### One SUP clock -/

/-- R290: the bars' composition fronts. -/
def State.fronts (s : State) : List Nat := (List.finRange 8).map s.composing

/-- One SUP clock with no command waiting: the blocks put on the Table link have left, device time advances while the device
operates, every G5-DDR channel serves one request, and every 4 µs the holder forwards its bars' fronts (log entry 4). -/
def State.idleTick (s : State) : State :=
  s.live fun s0 =>
    let s := s0.onCfg fun c => { c with recOpen := [] }
    let s1 := ((s.onTbl fun t => { t with tx := [] }).onTim Tim.tick).memTick.bootTick
    if s.tim.total / 4000 = s1.tim.total / 4000 then s1 else s1.forward (.front s1.fronts)

end Sys2Proof.Machine
end

