-- ==== Sys2Proof/Machine/Signals.lean ====
section
/-! DEFINITION. What a queue's consumer and producer do on their own (R58, R59), the chopper comparators (R256, R258), telemetry
(R327) and the input pins (R339, R348). -/
namespace Sys2Proof.Machine

/-! ### Queue ends (R58, R59) -/

/-- R58: the consumer of queue q reads the oldest crest entry and frees it: a standby's lane drain, the decompressor, a camera
pipeline, the measurement unit, a compressor, the sessions.  A holder's lane record is read at its line boundary (R187). -/
def State.consume (s : State) (q : Fin 64) : State :=
  if h : q.val < 40 then
    let n : Fin 40 := ⟨q.val, h⟩
    s.when (s.inMode .standby) fun s => s.standbyTake n s.cvq[q].fill
  else if h : q.val < 48 then s.takeChunk ⟨q.val - 40, by omega⟩
  else if h : q.val < 52 then s.visTake ⟨q.val - 48, by omega⟩
  else if h : q.val < 56 then s.statsRead ⟨q.val - 52, by omega⟩
  else if q.val < 60 then
    let s0 := s.settle q
    match s0.qHead q with
    | some (.arch p) => ((s0.archTake q p).qFree q).settle q
    | _ => s0
  else ((s.settle q).qFree q).settle q

/-- QUEUE_ENTRY_CONSUME (R58). -/
def execQueueEntryConsume (q : Fin 64) (s : State) : Host.Outcome State Fault Refusal := .next (s.live fun s => s.consume q)

/-- The bars that write queue q: a lane's own (R57), the two of an archive context (R86). -/
def queueBars (q : Fin 64) : List (Fin 8) :=
  if h : q.val < 40 then [⟨q.val / 5, by omega⟩]
  else (List.finRange 8).filter (fun b => q.val = 56 + b.val / 2)

/-- PRODUCER_RESUME (R59): a slot is free, and the stalled producer writes what it holds. -/
def State.producers (s : State) (q : Fin 64) : State :=
  let s1 := s.resume q
  if 52 ≤ q.val ∧ q.val < 56 then s1.visPump else (queueBars q).foldl State.pump s1

def execProducerResume (q : Fin 64) (s : State) : Host.Outcome State Fault Refusal := .next (s.live fun s => s.producers q)

/-! ### The chopper (R256–R258) -/


/-- R256, R258: the comparator trips after the mask time; the eighth consecutive trip at its very end is a short. -/
def State.trip (s : State) (a : Fin 16) (phaseB atMaskEnd : Bool) : State :=
  let p := s.mot.ax[a].phase phaseB
  if !p.on || !s.gatesOn a then s
  else
    let early := atMaskEnd && decide (16 ≤ s.threshold a phaseB)
    if early && decide (7 ≤ p.shortRun) then
      ((s.onPhase a phaseB fun p => { p.rest with openRun := 0, shortRun := 0, heldOff := true }).setF
        (F.MOT_FLAGS_SHORT a.val) 1).upset (axisBoard a.val)
    else s.onPhase a phaseB fun p => { p.decay s.nowNs with openRun := 0, shortRun := if early then p.shortRun + 1 else 0 }

/-- CHOPPER_TRIP. -/
def execChopperTrip (a : Fin 12) (phaseB atMaskEnd : Bool) (s : State) : Host.Outcome State Fault Refusal :=
  .next (s.liveF fun s => s.trip ⟨a.val, by omega⟩ phaseB atMaskEnd)

/-- R256, R258: ON_MAX passes without a trip; the 64th time in a row is an open phase. -/
def State.onMax (s : State) (a : Fin 16) (phaseB : Bool) : State :=
  let p := s.mot.ax[a].phase phaseB
  if !p.on || !s.gatesOn a then s
  else
    let counts := decide (16 ≤ s.threshold a phaseB)
    if counts && decide (63 ≤ p.openRun) then
      ((s.onPhase a phaseB fun p => { p.decay s.nowNs with shortRun := 0, openRun := 0 }).setF (F.MOT_FLAGS_OPEN a.val) 1).upset
        (axisBoard a.val)
    else s.onPhase a phaseB fun p => { p.decay s.nowNs with shortRun := 0, openRun := if counts then p.openRun + 1 else 0 }

/-- CHOPPER_ON_MAX. -/
def execChopperOnMax (a : Fin 12) (phaseB : Bool) (s : State) : Host.Outcome State Fault Refusal :=
  .next (s.liveF fun s => s.onMax ⟨a.val, by omega⟩ phaseB)

/-! ### Telemetry (R327) -/

/-- The lowest fill of a bar's lane queues that carry heads, in 16 lines; 0xFFFF with none. -/
def State.telFill (s : State) (b : Fin 8) : Nat :=
  ((List.finRange 40).filter (fun n => n.val / 5 = b.val ∧ s.laneHasHeads n.val)).foldl
    (fun v n => min v (s.cvq[(⟨n.val, by omega⟩ : Fin 64)].fill / 16)) 0xFFFF

/-- The telemetry interval in ms. -/
def State.telMs (s : State) : Nat := max 10 (s.f F.FLT_TEL_CFG_IVL)

/-- Item i of the telemetry MASK, as pairs of bar field and argument. -/
def State.telItem (s : State) (i : Nat) : List (Nat × Nat) :=
  match i with
  | 0 => [(15, min 0xFFFF (s.mot.w / 1000000))]
  | 1 => [(15, match s.ltm.gov with | some v => min 0xFFFF (v / 1000000) | none => 0xFFFF)]
  | 2 => (List.finRange 8).map (fun b => (b.val, s.telFill b))
  | 3 => [(15, twos 16 s.thm.temp)]
  | 4 => [(15, twos 16 s.thm.rho)]
  | 5 => [(15, s.thm.step + 16 * s.thm.band)]
  | 6 => (List.finRange 8).map (fun b => (b.val, min 0xFFFF (s.flt.telFetch[b] * 1000 / (1048576 * s.telMs))))
  | _ => [(15, min 0xFFFF s.flt.telUpsets)]

/-- One telemetry interval. -/
def State.telemetry (s : State) : State :=
  if s.f F.FLT_TEL_CFG_IVL = 0 ∨ s.inMode .boot ∨ s.inMode .frozen ∨ s.sys.cold then s
  else
    let on := fun i => decide (bits (s.f F.FLT_TEL_CFG_MASK) i 1 = 1)
    let s1 := ((upto 8).filter on).foldl (fun s i => (s.telItem i).foldl (fun s x => s.raise (0x110 + i) x.1 x.2) s) s
    s1.onFlt fun t => { t with
      telFetch := if on 6 then Vector.replicate 8 0 else t.telFetch
      telUpsets := if on 7 then 0 else t.telUpsets }

/-- TELEMETRY_INTERVAL. -/
def execTelemetryInterval (s : State) : Host.Outcome State Fault Refusal := .next (s.live State.telemetry)

/-! ### `ESTOP_N` (R261, R296, R348) -/

/-- R296, R348: a recognised low of `ESTOP_N` latches, and stops every seat but a standby. -/
def State.estopLow (s : State) : State :=
  let s1 := (s.bump F.PAD_ESTOP_COUNT).onPad fun p => { p with estop := false, latched := true }
  if s1.inMode .boot || s1.inMode .standby || s1.inMode .frozen then s1 else s1.emergency 6

/-- ESTOP (R348): under 50 ns nothing, from 200 ns a stop, and anything between may be one (a free choice). -/
def State.estopPulse (s : State) (ns : Nat) : State :=
  if ns < 50 ∨ !s.pad.estop then s
  else if 200 ≤ ns then s.estopLow
  else if s.freeBit then s.drawn.estopLow else s.drawn

def execEstop (ns : Nat) (s : State) : Host.Outcome State Fault Refusal := .next (s.liveF fun s => s.estopPulse ns)

/-- ESTOP_RELEASE (R261): `ESTOP_N` is high again; what waits for it may start. -/
def execEstopRelease (s : State) : Host.Outcome State Fault Refusal :=
  .next (s.live fun s => (s.onPad fun p => { p with estop := true }).when (!s.inMode .boot && !s.inMode .frozen) fun s =>
    s.asShadow State.flowResume)

/-! ### General-purpose inputs (R339) -/

/-- R339: the lowest-numbered pin of an input function. -/
def State.pinActs (s : State) (pin : Fin 32) (fn : Nat) : Bool :=
  decide (s.pinFunc pin.val = fn) && (upto pin.val).all (fun i => s.pinFunc i != fn)

/-- R26, R339: a rising edge on a request pin of the seat that holds the Trump acts as a mode request. -/
def State.pinRequest (s : State) (pin : Fin 32) (fn code : Nat) : State :=
  let s1 := s.onPad fun p => { p with gpio := p.gpio ||| (1#32 <<< pin.val) }
  if s.pinActs pin fn && s.tbl.holder && !s.inMode .boot && !s.inMode .frozen then (s1.request { code := code }).1 else s1

/-- RUN_REQ. -/
def execRunReq (pin : Fin 32) (s : State) : Host.Outcome State Fault Refusal := .next (s.liveF fun s => s.pinRequest pin 3 4)

/-- STOP_REQ. -/
def execStopReq (pin : Fin 32) (s : State) : Host.Outcome State Fault Refusal := .next (s.liveF fun s => s.pinRequest pin 4 6)

/-- GP_IN (R290, R339): the filtered level of an input pin changes; the holder forwards that of a GP_IN pin, and a standby takes
it from there alone. -/
def State.gpInput (s : State) (pin : Fin 32) (level : Bool) : State :=
  let gp := decide (s.pinFunc pin.val = 1)
  if s.inMode .standby && gp then s
  else
    let s1 := s.onPad fun p => { p with gpio := if level then p.gpio ||| (1#32 <<< pin.val) else p.gpio &&& ~~~(1#32 <<< pin.val) }
    if gp then s1.forward (.gpio pin.val level s.ltm.g.toNat) else s1

def execGpIn (pin : Fin 32) (level : Bool) (s : State) : Host.Outcome State Fault Refusal :=
  .next (s.live fun s => s.gpInput pin level)

end Sys2Proof.Machine
end

