-- ==== Sys2Proof/Machine/Dispatch.lean ====
section
/-! DEFINITION. One arm per command of spec/opcode_table.json. -/
namespace Sys2Proof.Machine

def exec (i : Instr) (s : State) : Host.Outcome State Fault Refusal :=
  match i with
  | .registerWrite by_ addr data => Sys2Proof.Machine.execRegisterWrite by_ addr data s
  | .readClear ses addr => Sys2Proof.Machine.execReadClear ses addr s
  | .loReadLatch ses addr => Sys2Proof.Machine.execLoReadLatch ses addr s
  | .powerOn => Sys2Proof.Machine.execPowerOn s
  | .powerLoss => Sys2Proof.Machine.execPowerLoss s
  | .supplyDip => Sys2Proof.Machine.execSupplyDip s
  | .resetNLow ns => Sys2Proof.Machine.execResetNLow ns s
  | .resetNRise seatId testEn => Sys2Proof.Machine.execResetNRise seatId testEn s
  | .bootDone env => Sys2Proof.Machine.execBootDone env s
  | .postResetCompletions r => Sys2Proof.Machine.execPostResetCompletions r s
  | .reqIdleWarm ses => Sys2Proof.Machine.execReqIdleWarm ses s
  | .reqIdleCold ses => Sys2Proof.Machine.execReqIdleCold ses s
  | .reqBindJob ses handle => Sys2Proof.Machine.execReqBindJob ses handle s
  | .reqRun ses => Sys2Proof.Machine.execReqRun ses s
  | .reqEnterService ses fn => Sys2Proof.Machine.execReqEnterService ses fn s
  | .reqStop ses => Sys2Proof.Machine.execReqStop ses s
  | .reqClearHalt ses => Sys2Proof.Machine.execReqClearHalt ses s
  | .reqJoinStandby ses => Sys2Proof.Machine.execReqJoinStandby ses s
  | .reqLeaveService ses => Sys2Proof.Machine.execReqLeaveService ses s
  | .requestTimeout => Sys2Proof.Machine.execRequestTimeout s
  | .pendingRequestApply => Sys2Proof.Machine.execPendingRequestApply s
  | .idleTimerExpiry => Sys2Proof.Machine.execIdleTimerExpiry s
  | .idleColdEntry => Sys2Proof.Machine.execIdleColdEntry s
  | .coldWakeComplete => Sys2Proof.Machine.execColdWakeComplete s
  | .warmReset ses confirm => Sys2Proof.Machine.execWarmReset ses confirm s
  | .islandReset ses island confirm => Sys2Proof.Machine.execIslandReset ses island confirm s
  | .hardResetCommand ses confirm => Sys2Proof.Machine.execHardResetCommand ses confirm s
  | .stopComplete => Sys2Proof.Machine.execStopComplete s
  | .calCommit ses confirm => Sys2Proof.Machine.execCalCommit ses confirm s
  | .activateImageBank ses confirm => Sys2Proof.Machine.execActivateImageBank ses confirm s
  | .commitStagedCalSet ses confirm staged => Sys2Proof.Machine.execCommitStagedCalSet ses confirm staged s
  | .calAutoCommit => Sys2Proof.Machine.execCalAutoCommit s
  | .calCopyVerified ok => Sys2Proof.Machine.execCalCopyVerified ok s
  | .calOldCopyErased => Sys2Proof.Machine.execCalOldCopyErased s
  | .imageTransfer ses img => Sys2Proof.Machine.execImageTransfer ses img s
  | .imageTransferDequeue => Sys2Proof.Machine.execImageTransferDequeue s
  | .imageBankVerify => Sys2Proof.Machine.execImageBankVerify s
  | .nozzleUseRecord => Sys2Proof.Machine.execNozzleUseRecord s
  | .freeBlockErase block => Sys2Proof.Machine.execFreeBlockErase block s
  | .login ses role key => Sys2Proof.Machine.execLogin ses role key s
  | .loginLockoutExpiry ses => Sys2Proof.Machine.execLoginLockoutExpiry ses s
  | .logout ses => Sys2Proof.Machine.execLogout ses s
  | .sessionTimeout ses => Sys2Proof.Machine.execSessionTimeout ses s
  | .auditBurstEnd ses => Sys2Proof.Machine.execAuditBurstEnd ses s
  | .auditPageProgram => Sys2Proof.Machine.execAuditPageProgram s
  | .commitGo ses g => Sys2Proof.Machine.execCommitGo ses g s
  | .commitDiscard ses g => Sys2Proof.Machine.execCommitDiscard ses g s
  | .commitTakeEffect g => Sys2Proof.Machine.execCommitTakeEffect g s
  | .queueEntryWrite q e => Sys2Proof.Machine.execQueueEntryWrite q e s
  | .moverTransfer q => Sys2Proof.Machine.execMoverTransfer q s
  | .queueEntryConsume q => Sys2Proof.Machine.execQueueEntryConsume q s
  | .producerResume q => Sys2Proof.Machine.execProducerResume q s
  | .evqLostInsert q => Sys2Proof.Machine.execEvqLostInsert q s
  | .queuePointerMismatch q => Sys2Proof.Machine.execQueuePointerMismatch q s
  | .duneRingWrite ses q size data => Sys2Proof.Machine.execDuneRingWrite ses q size data s
  | .ringDoorbell r prod => Sys2Proof.Machine.execRingDoorbell r prod s
  | .ringEnable r en => Sys2Proof.Machine.execRingEnable r en s
  | .ringReset r => Sys2Proof.Machine.execRingReset r s
  | .cplAckWrite r ack => Sys2Proof.Machine.execCplAckWrite r ack s
  | .functionLevelReset => Sys2Proof.Machine.execFunctionLevelReset s
  | .busMasterDisable => Sys2Proof.Machine.execBusMasterDisable s
  | .pcieReadError r => Sys2Proof.Machine.execPcieReadError r s
  | .open_ r d payload => Sys2Proof.Machine.execOpen r d payload s
  | .data r d payload => Sys2Proof.Machine.execData r d payload s
  | .close r d payload => Sys2Proof.Machine.execClose r d payload s
  | .abort r d => Sys2Proof.Machine.execAbort r d s
  | .duneBlockDecode r => Sys2Proof.Machine.execDuneBlockDecode r s
  | .objectEndVerify r => Sys2Proof.Machine.execObjectEndVerify r s
  | .dataDescriptorComplete r => Sys2Proof.Machine.execDataDescriptorComplete r s
  | .decompressResume r => Sys2Proof.Machine.execDecompressResume r s
  | .jobEndingComplete tag => Sys2Proof.Machine.execJobEndingComplete tag s
  | .jobDrained tag => Sys2Proof.Machine.execJobDrained tag s
  | .archiveExhausted tag => Sys2Proof.Machine.execArchiveExhausted tag s
  | .compressFlushTimeout c => Sys2Proof.Machine.execCompressFlushTimeout c s
  | .barComposeLine b => Sys2Proof.Machine.execBarComposeLine b s
  | .slewerWriteback b => Sys2Proof.Machine.execSlewerWriteback b s
  | .idleTableUpdate b block => Sys2Proof.Machine.execIdleTableUpdate b block s
  | .correctionWindowWrite ses addr data => Sys2Proof.Machine.execCorrectionWindowWrite ses addr data s
  | .toneCurveWindowWrite ses addr data => Sys2Proof.Machine.execToneCurveWindowWrite ses addr data s
  | .matrixWindowWrite ses addr data => Sys2Proof.Machine.execMatrixWindowWrite ses addr data s
  | .descriptorWindowWrite ses addr data => Sys2Proof.Machine.execDescriptorWindowWrite ses addr data s
  | .segmentTableWrite ses addr data => Sys2Proof.Machine.execSegmentTableWrite ses addr data s
  | .aceVerdict handle rep verdict => Sys2Proof.Machine.execAceVerdict handle rep verdict s
  | .aceRejectPulseEnd => Sys2Proof.Machine.execAceRejectPulseEnd s
  | .encoderSample ch sin cos idx => Sys2Proof.Machine.execEncoderSample ch sin cos idx s
  | .encArm ses ch => Sys2Proof.Machine.execEncArm ses ch s
  | .encPosSet ses ch => Sys2Proof.Machine.execEncPosSet ses ch s
  | .encCal ses ch => Sys2Proof.Machine.execEncCal ses ch s
  | .encCalComplete ch => Sys2Proof.Machine.execEncCalComplete ch s
  | .encCalTimeout ch => Sys2Proof.Machine.execEncCalTimeout ch s
  | .encStillTimeout ch => Sys2Proof.Machine.execEncStillTimeout ch s
  | .ltmSampleArrival => Sys2Proof.Machine.execLtmSampleArrival s
  | .lineTrigger => Sys2Proof.Machine.execLineTrigger s
  | .governorSample => Sys2Proof.Machine.execGovernorSample s
  | .laneReceiverDetect n => Sys2Proof.Machine.execLaneReceiverDetect n s
  | .laneDetectTimeout n => Sys2Proof.Machine.execLaneDetectTimeout n s
  | .laneDetectRetry n => Sys2Proof.Machine.execLaneDetectRetry n s
  | .laneClockRecovered n => Sys2Proof.Machine.execLaneClockRecovered n s
  | .laneCommaAligned n => Sys2Proof.Machine.execLaneCommaAligned n s
  | .laneBlockLock n => Sys2Proof.Machine.execLaneBlockLock n s
  | .laneTrainingDone n => Sys2Proof.Machine.execLaneTrainingDone n s
  | .capPageSend n => Sys2Proof.Machine.execCapPageSend n s
  | .laneCapPagesReceived n p => Sys2Proof.Machine.execLaneCapPagesReceived n p s
  | .laneCapTimeout n => Sys2Proof.Machine.execLaneCapTimeout n s
  | .laneTrainingTimeout n => Sys2Proof.Machine.execLaneTrainingTimeout n s
  | .laneLockLost n => Sys2Proof.Machine.execLaneLockLost n s
  | .blockReceive n h codeErrs crcOk => Sys2Proof.Machine.execBlockReceive n h codeErrs crcOk s
  | .moduleStatusBlock n b => Sys2Proof.Machine.execModuleStatusBlock n b s
  | .moduleReport n r => Sys2Proof.Machine.execModuleReport n r s
  | .patternTestGo ses n => Sys2Proof.Machine.execPatternTestGo ses n s
  | .laneTestEnd n lead body times => Sys2Proof.Machine.execLaneTestEnd n lead body times s
  | .errorInject ses n kind blk pos bit count confirm => Sys2Proof.Machine.execErrorInject ses n kind blk pos bit count confirm s
  | .eyeScanGo ses n dwell => Sys2Proof.Machine.execEyeScanGo ses n dwell s
  | .eyeScanStop ses n => Sys2Proof.Machine.execEyeScanStop ses n s
  | .eyeScanComplete n phases volts => Sys2Proof.Machine.execEyeScanComplete n phases volts s
  | .refreshDue c busy => Sys2Proof.Machine.execRefreshDue c busy s
  | .mr4Poll c rate => Sys2Proof.Machine.execMr4Poll c rate s
  | .delaySetLoadDone => Sys2Proof.Machine.execDelaySetLoadDone s
  | .correctedError c e => Sys2Proof.Machine.execCorrectedError c e s
  | .uncorrectableError c e => Sys2Proof.Machine.execUncorrectableError c e s
  | .diagRead ses data check => Sys2Proof.Machine.execDiagRead ses data check s
  | .scrubRead c => Sys2Proof.Machine.execScrubRead c s
  | .channelRetirement => Sys2Proof.Machine.execChannelRetirement s
  | .retirementFillDone => Sys2Proof.Machine.execRetirementFillDone s
  | .frameStart p vc hdrOk first => Sys2Proof.Machine.execFrameStart p vc hdrOk first s
  | .linePacket p vc dt hdrOk crcOk pix => Sys2Proof.Machine.execLinePacket p vc dt hdrOk crcOk pix s
  | .frameEnd p vc hdrOk => Sys2Proof.Machine.execFrameEnd p vc hdrOk s
  | .frameTimeout k => Sys2Proof.Machine.execFrameTimeout k s
  | .triggerTimeout k => Sys2Proof.Machine.execTriggerTimeout k s
  | .cameraTriggerEnd k => Sys2Proof.Machine.execCameraTriggerEnd k s
  | .sensorSequenceSend k ack => Sys2Proof.Machine.execSensorSequenceSend k ack s
  | .pipelineGroupStart j => Sys2Proof.Machine.execPipelineGroupStart j s
  | .pipelineGroupDone j => Sys2Proof.Machine.execPipelineGroupDone j s
  | .statsRecord p => Sys2Proof.Machine.execStatsRecord p s
  | .blindTimeout k => Sys2Proof.Machine.execBlindTimeout k s
  | .calTempCheck => Sys2Proof.Machine.execCalTempCheck s
  | .chlCalCmd ses items => Sys2Proof.Machine.execChlCalCmd ses items s
  | .calRunStart => Sys2Proof.Machine.execCalRunStart s
  | .calRunComplete item found => Sys2Proof.Machine.execCalRunComplete item found s
  | .generatorTick => Sys2Proof.Machine.execGeneratorTick s
  | .webAtRest => Sys2Proof.Machine.execWebAtRest s
  | .parkSelect a => Sys2Proof.Machine.execParkSelect a s
  | .motGo ses a => Sys2Proof.Machine.execMotGo ses a s
  | .motStop ses a => Sys2Proof.Machine.execMotStop ses a s
  | .targetWrite ses a hi => Sys2Proof.Machine.execTargetWrite ses a hi s
  | .chopperTrip a phaseB atMaskEnd => Sys2Proof.Machine.execChopperTrip a phaseB atMaskEnd s
  | .chopperOnMax a phaseB => Sys2Proof.Machine.execChopperOnMax a phaseB s
  | .chopperOffEnd a phaseB => Sys2Proof.Machine.execChopperOffEnd a phaseB s
  | .shortHoldEnd a phaseB => Sys2Proof.Machine.execShortHoldEnd a phaseB s
  | .seqCommand ses seq => Sys2Proof.Machine.execSeqCommand ses seq s
  | .sequenceDone j => Sys2Proof.Machine.execSequenceDone j s
  | .sequenceTimeout j => Sys2Proof.Machine.execSequenceTimeout j s
  | .lampFrame c j => Sys2Proof.Machine.execLampFrame c j s
  | .trumpRenew => Sys2Proof.Machine.execTrumpRenew s
  | .renewalReceived hold deal mode => Sys2Proof.Machine.execRenewalReceived hold deal mode s
  | .leaseExpiry => Sys2Proof.Machine.execLeaseExpiry s
  | .startupTrumpTake => Sys2Proof.Machine.execStartupTrumpTake s
  | .yield_ deal g => Sys2Proof.Machine.execYield deal g s
  | .handover ses confirm => Sys2Proof.Machine.execHandover ses confirm s
  | .testTakeover ses confirm => Sys2Proof.Machine.execTestTakeover ses confirm s
  | .testHoldExpiry => Sys2Proof.Machine.execTestHoldExpiry s
  | .revertQualified => Sys2Proof.Machine.execRevertQualified s
  | .revert deal => Sys2Proof.Machine.execRevert deal s
  | .padHoldExpiry => Sys2Proof.Machine.execPadHoldExpiry s
  | .forwardRecord r crcOk => Sys2Proof.Machine.execForwardRecord r crcOk s
  | .replay fseq => Sys2Proof.Machine.execReplay fseq s
  | .ack fseq => Sys2Proof.Machine.execAck fseq s
  | .ackSend => Sys2Proof.Machine.execAckSend s
  | .lineEvent g f void deal fseq => Sys2Proof.Machine.execLineEvent g f void deal fseq s
  | .digest lane line vals => Sys2Proof.Machine.execDigest lane line vals s
  | .fill lines latched => Sys2Proof.Machine.execFill lines latched s
  | .fillSend => Sys2Proof.Machine.execFillSend s
  | .suspect cause => Sys2Proof.Machine.execSuspect cause s
  | .left cause => Sys2Proof.Machine.execLeft cause s
  | .timeExchange lat ofs => Sys2Proof.Machine.execTimeExchange lat ofs s
  | .standbySilence => Sys2Proof.Machine.execStandbySilence s
  | .resyncCopyDone cp => Sys2Proof.Machine.execResyncCopyDone cp s
  | .autoJoin => Sys2Proof.Machine.execAutoJoin s
  | .diodeReading raw => Sys2Proof.Machine.execDiodeReading raw s
  | .riseHistorySample => Sys2Proof.Machine.execRiseHistorySample s
  | .throttleStepDown => Sys2Proof.Machine.execThrottleStepDown s
  | .scoreboardBucket kind => Sys2Proof.Machine.execScoreboardBucket kind s
  | .telemetryInterval => Sys2Proof.Machine.execTelemetryInterval s
  | .ptpAnnounce domain master rank => Sys2Proof.Machine.execPtpAnnounce domain master rank s
  | .ptpSync domain master t1 => Sys2Proof.Machine.execPtpSync domain master t1 s
  | .ptpDelayResp domain master t4 => Sys2Proof.Machine.execPtpDelayResp domain master t4 s
  | .ptpDelayReqSend => Sys2Proof.Machine.execPtpDelayReqSend s
  | .announceTimeout => Sys2Proof.Machine.execAnnounceTimeout s
  | .timeAccept ses confirm => Sys2Proof.Machine.execTimeAccept ses confirm s
  | .clrChg ses confirm => Sys2Proof.Machine.execClrChg ses confirm s
  | .timeMark => Sys2Proof.Machine.execTimeMark s
  | .timePulseDue k => Sys2Proof.Machine.execTimePulseDue k s
  | .timePulseEnd k => Sys2Proof.Machine.execTimePulseEnd k s
  | .estop ns => Sys2Proof.Machine.execEstop ns s
  | .runReq pin => Sys2Proof.Machine.execRunReq pin s
  | .stopReq pin => Sys2Proof.Machine.execStopReq pin s
  | .gpIn pin level => Sys2Proof.Machine.execGpIn pin level s
  | .estopRelease => Sys2Proof.Machine.execEstopRelease s
  | .timePulseWake k => Sys2Proof.Machine.execTimePulseWake k s
  | .busMasterEnable => Sys2Proof.Machine.execBusMasterEnable s

end Sys2Proof.Machine
end

