-- ==== Sys2Proof/WellFormed.lean ====
section
/-! DEFINITION. The commands that can exist: an entry is of its queue's class (R56), a descriptor's LEN has 32 bits and its object
number 16, and its payload is no longer than LEN (R71).  A command that is not one of these is given an effect all the same: such
an entry is none, and a descriptor is read as its 32 bytes give it (log entry 50). -/
namespace Sys2Proof

/-- R56: the entry is of queue q's class. -/
def Entry.ofQueue (q : Fin 64) : Entry → Bool
  | .lane _ => decide (q.val < 40)
  | .chunk _ => decide (40 ≤ q.val ∧ q.val < 48)
  | .frame _ => decide (48 ≤ q.val ∧ q.val < 52)
  | .stats _ => decide (52 ≤ q.val ∧ q.val < 56)
  | .arch _ => decide (56 ≤ q.val ∧ q.val < 60)
  | .evt _ => decide (60 ≤ q.val)

/-- R71: a descriptor with its payload. -/
def Desc.fits (d : Desc) (p : List Byte) : Bool := decide (d.len < 2 ^ 32) && decide (d.obj < 2 ^ 16) && decide (p.length ≤ d.len)

/-- A well-formed command.  Every operand but these is bounded by its type. -/
def Instr.wf (i : Instr) : Bool :=
  match i with
  | .registerWrite _ _ _ => true
  | .readClear _ _ => true
  | .loReadLatch _ _ => true
  | .powerOn => true
  | .powerLoss => true
  | .supplyDip => true
  | .resetNLow _ => true
  | .resetNRise _ _ => true
  | .bootDone _ => true
  | .postResetCompletions _ => true
  | .reqIdleWarm _ => true
  | .reqIdleCold _ => true
  | .reqBindJob _ _ => true
  | .reqRun _ => true
  | .reqEnterService _ _ => true
  | .reqStop _ => true
  | .reqClearHalt _ => true
  | .reqJoinStandby _ => true
  | .reqLeaveService _ => true
  | .requestTimeout => true
  | .pendingRequestApply => true
  | .idleTimerExpiry => true
  | .idleColdEntry => true
  | .coldWakeComplete => true
  | .warmReset _ _ => true
  | .islandReset _ _ _ => true
  | .hardResetCommand _ _ => true
  | .stopComplete => true
  | .calCommit _ _ => true
  | .activateImageBank _ _ => true
  | .commitStagedCalSet _ _ _ => true
  | .calAutoCommit => true
  | .calCopyVerified _ => true
  | .calOldCopyErased => true
  | .imageTransfer _ _ => true
  | .imageTransferDequeue => true
  | .imageBankVerify => true
  | .nozzleUseRecord => true
  | .freeBlockErase _ => true
  | .login _ _ _ => true
  | .loginLockoutExpiry _ => true
  | .logout _ => true
  | .sessionTimeout _ => true
  | .auditBurstEnd _ => true
  | .auditPageProgram => true
  | .commitGo _ _ => true
  | .commitDiscard _ _ => true
  | .commitTakeEffect _ => true
  | .queueEntryWrite q e => e.ofQueue q
  | .moverTransfer _ => true
  | .queueEntryConsume _ => true
  | .producerResume _ => true
  | .evqLostInsert _ => true
  | .queuePointerMismatch _ => true
  | .duneRingWrite _ _ _ _ => true
  | .ringDoorbell _ _ => true
  | .ringEnable _ _ => true
  | .ringReset _ => true
  | .cplAckWrite _ _ => true
  | .functionLevelReset => true
  | .busMasterDisable => true
  | .pcieReadError _ => true
  | .open_ _ d p => d.fits p
  | .data _ d p => d.fits p
  | .close _ d p => d.fits p
  | .abort _ _ => true
  | .duneBlockDecode _ => true
  | .objectEndVerify _ => true
  | .dataDescriptorComplete _ => true
  | .decompressResume _ => true
  | .jobEndingComplete _ => true
  | .jobDrained _ => true
  | .archiveExhausted _ => true
  | .compressFlushTimeout _ => true
  | .barComposeLine _ => true
  | .slewerWriteback _ => true
  | .idleTableUpdate _ _ => true
  | .correctionWindowWrite _ _ _ => true
  | .toneCurveWindowWrite _ _ _ => true
  | .matrixWindowWrite _ _ _ => true
  | .descriptorWindowWrite _ _ _ => true
  | .segmentTableWrite _ _ _ => true
  | .aceVerdict _ _ _ => true
  | .aceRejectPulseEnd => true
  | .encoderSample _ _ _ _ => true
  | .encArm _ _ => true
  | .encPosSet _ _ => true
  | .encCal _ _ => true
  | .encCalComplete _ => true
  | .encCalTimeout _ => true
  | .encStillTimeout _ => true
  | .ltmSampleArrival => true
  | .lineTrigger => true
  | .governorSample => true
  | .laneReceiverDetect _ => true
  | .laneDetectTimeout _ => true
  | .laneDetectRetry _ => true
  | .laneClockRecovered _ => true
  | .laneCommaAligned _ => true
  | .laneBlockLock _ => true
  | .laneTrainingDone _ => true
  | .capPageSend _ => true
  | .laneCapPagesReceived _ _ => true
  | .laneCapTimeout _ => true
  | .laneTrainingTimeout _ => true
  | .laneLockLost _ => true
  | .blockReceive _ _ _ _ => true
  | .moduleStatusBlock _ _ => true
  | .moduleReport _ _ => true
  | .patternTestGo _ _ => true
  | .laneTestEnd _ _ _ _ => true
  | .errorInject _ _ _ _ _ _ _ _ => true
  | .eyeScanGo _ _ _ => true
  | .eyeScanStop _ _ => true
  | .eyeScanComplete _ _ _ => true
  | .refreshDue _ _ => true
  | .mr4Poll _ _ => true
  | .delaySetLoadDone => true
  | .correctedError _ _ => true
  | .uncorrectableError _ _ => true
  | .diagRead _ _ _ => true
  | .scrubRead _ => true
  | .channelRetirement => true
  | .retirementFillDone => true
  | .frameStart _ _ _ _ => true
  | .linePacket _ _ _ _ _ _ => true
  | .frameEnd _ _ _ => true
  | .frameTimeout _ => true
  | .triggerTimeout _ => true
  | .cameraTriggerEnd _ => true
  | .sensorSequenceSend _ _ => true
  | .pipelineGroupStart _ => true
  | .pipelineGroupDone _ => true
  | .statsRecord _ => true
  | .blindTimeout _ => true
  | .calTempCheck => true
  | .chlCalCmd _ _ => true
  | .calRunStart => true
  | .calRunComplete _ _ => true
  | .generatorTick => true
  | .webAtRest => true
  | .parkSelect _ => true
  | .motGo _ _ => true
  | .motStop _ _ => true
  | .targetWrite _ _ _ => true
  | .chopperTrip _ _ _ => true
  | .chopperOnMax _ _ => true
  | .chopperOffEnd _ _ => true
  | .shortHoldEnd _ _ => true
  | .seqCommand _ _ => true
  | .sequenceDone _ => true
  | .sequenceTimeout _ => true
  | .lampFrame _ _ => true
  | .trumpRenew => true
  | .renewalReceived _ _ _ => true
  | .leaseExpiry => true
  | .startupTrumpTake => true
  | .yield_ _ _ => true
  | .handover _ _ => true
  | .testTakeover _ _ => true
  | .testHoldExpiry => true
  | .revertQualified => true
  | .revert _ => true
  | .padHoldExpiry => true
  | .forwardRecord _ _ => true
  | .replay _ => true
  | .ack _ => true
  | .ackSend => true
  | .lineEvent _ _ _ _ _ => true
  | .digest _ _ _ => true
  | .fill _ _ => true
  | .fillSend => true
  | .suspect _ => true
  | .left _ => true
  | .timeExchange _ _ => true
  | .standbySilence => true
  | .resyncCopyDone _ => true
  | .autoJoin => true
  | .diodeReading _ => true
  | .riseHistorySample => true
  | .throttleStepDown => true
  | .scoreboardBucket _ => true
  | .telemetryInterval => true
  | .ptpAnnounce _ _ _ => true
  | .ptpSync _ _ _ => true
  | .ptpDelayResp _ _ _ => true
  | .ptpDelayReqSend => true
  | .announceTimeout => true
  | .timeAccept _ _ => true
  | .clrChg _ _ => true
  | .timeMark => true
  | .timePulseDue _ => true
  | .timePulseEnd _ => true
  | .estop _ => true
  | .runReq _ => true
  | .stopReq _ => true
  | .gpIn _ _ => true
  | .estopRelease => true
  | .timePulseWake _ => true
  | .busMasterEnable => true

end Sys2Proof
end

