-- ==== Sys2Proof/Safety.lean ====
section
/-! DEFINITION. What a safe run is: the queue holds commands that can exist, the register maps keep their one form, and no step
stops. -/
namespace Sys2Proof

/-- The session a command's rule names as the one that makes it, where the command is a write of configuration space. -/
def Instr.writer : Instr → Option (Fin 5)
  | .registerWrite (.session n) _ _ => some n
  | .reqIdleWarm n | .reqIdleCold n | .reqBindJob n _ | .reqRun n | .reqEnterService n _ | .reqStop n | .reqClearHalt n
  | .reqJoinStandby n | .reqLeaveService n | .warmReset n _ | .islandReset n _ _ | .hardResetCommand n _ | .calCommit n _
  | .activateImageBank n _ | .commitStagedCalSet n _ _ | .imageTransfer n _ | .commitGo n _ | .commitDiscard n _
  | .duneRingWrite n _ _ _ | .correctionWindowWrite n _ _ | .toneCurveWindowWrite n _ _ | .matrixWindowWrite n _ _
  | .descriptorWindowWrite n _ _ | .segmentTableWrite n _ _ | .encArm n _ | .encPosSet n _ | .encCal n _ | .patternTestGo n _
  | .errorInject n _ _ _ _ _ _ _ | .eyeScanGo n _ _ | .eyeScanStop n _ | .diagRead n _ _ | .chlCalCmd n _ | .motGo n _
  | .motStop n _ | .targetWrite n _ _ | .seqCommand n _ | .handover n _ | .testTakeover n _ | .timeAccept n _ | .clrChg n _ =>
      some n
  | _ => none

/-- The commands that act on a device that does not operate: its supplies, `RESET_N`, and the pad hold of the always-on domain. -/
def Instr.power : Instr → Bool
  | .powerOn | .powerLoss | .supplyDip | .resetNLow _ | .resetNRise _ _ | .padHoldExpiry => true
  | _ => false

end Sys2Proof

namespace Sys2Proof.Machine

/-- The register maps of a state are in canonical form: addresses strictly rising, no entry that is zero. -/
def Regs.wf (r : Regs) : Bool :=
  RegMap.wf r.rw && RegMap.wf r.shadow && RegMap.wf r.pend && RegMap.wf r.act && RegMap.wf r.hw

/-- Every command that waits is well formed. -/
def State.queueWf (s : State) : Prop := ∀ c ∈ s.pending, c.wf = true

/-- The machine goes on: a step answers a next state. -/
def State.goesOn (s : State) : Prop := ∃ t, step s = .next t

/-- What every step keeps: the commands waiting are well formed, and the register maps are in their one form. -/
def State.inv (s : State) : Prop := s.queueWf ∧ s.regs.wf = true

/-! ### The parts of a seat -/

/-- The parts of a seat that a frame names: every field of `State` but the queue, and five that rules single out. -/
inductive Part
  | sys | cfg | regs | cvq | ing | bars | enc | ltm | lnk | mem | vis | chl | lmp | mot | tbl | thm | flt | tim | pad | free
  /-- `SYS_MODE`.MODE. -/
  | mode
  /-- The roles the sessions hold. -/
  | roles
  /-- G, the count of grid lines. -/
  | grid
  /-- Whether the seat holds the Trump. -/
  | trump
  /-- The retirements that have fallen due. -/
  | due
deriving DecidableEq, Repr

/-- The place of a part in a mask. -/
def Part.bit : Part → Nat
  | .sys => 0
  | .cfg => 1
  | .regs => 2
  | .cvq => 3
  | .ing => 4
  | .bars => 5
  | .enc => 6
  | .ltm => 7
  | .lnk => 8
  | .mem => 9
  | .vis => 10
  | .chl => 11
  | .lmp => 12
  | .mot => 13
  | .tbl => 14
  | .thm => 15
  | .flt => 16
  | .tim => 17
  | .pad => 18
  | .free => 19
  | .mode => 20
  | .roles => 21
  | .grid => 22
  | .trump => 23
  | .due => 24

/-- The mask of a list of parts. -/
def partMask : List Part → Nat
  | [] => 0
  | p :: t => (2 ^ p.bit) ||| partMask t

/-- A part is the same in two states. -/
def Part.same : Part → State → State → Prop
  | .sys, s, t => t.sys = s.sys
  | .cfg, s, t => t.cfg = s.cfg
  | .regs, s, t => t.regs = s.regs
  | .cvq, s, t => t.cvq = s.cvq
  | .ing, s, t => t.ing = s.ing
  | .bars, s, t => t.bars = s.bars
  | .enc, s, t => t.enc = s.enc
  | .ltm, s, t => t.ltm = s.ltm
  | .lnk, s, t => t.lnk = s.lnk
  | .mem, s, t => t.mem = s.mem
  | .vis, s, t => t.vis = s.vis
  | .chl, s, t => t.chl = s.chl
  | .lmp, s, t => t.lmp = s.lmp
  | .mot, s, t => t.mot = s.mot
  | .tbl, s, t => t.tbl = s.tbl
  | .thm, s, t => t.thm = s.thm
  | .flt, s, t => t.flt = s.flt
  | .tim, s, t => t.tim = s.tim
  | .pad, s, t => t.pad = s.pad
  | .free, s, t => t.free = s.free
  | .mode, s, t => t.sys.mode = s.sys.mode
  | .roles, s, t => ∀ n : Fin 5, t.cfg.sess[n].role = s.cfg.sess[n].role
  | .grid, s, t => t.ltm.g = s.ltm.g
  | .trump, s, t => t.tbl.holder = s.tbl.holder
  | .due, s, t => t.flt.due = s.flt.due

/-! ### What a command may change -/

/-- The parts a command may change, as its rules name them: the blocks it acts on, and those that the stops, retirements, mode
changes, records and forwarded items it can bring about act on. -/
def touched : Instr → List Part
  | .registerWrite _ _ _ | .powerOn | .powerLoss | .supplyDip | .resetNLow _ | .coldWakeComplete | .warmReset _ _ |
    .islandReset _ _ _ | .hardResetCommand _ _ | .auditPageProgram =>
            [.sys, .cfg, .regs, .cvq, .ing, .bars, .enc, .ltm, .lnk, .mem, .vis, .chl, .lmp, .mot, .tbl, .thm, .flt, .tim,
       .pad, .free, .mode, .roles, .grid, .trump, .due]
  | .readClear _ _ | .loReadLatch _ _ =>
      [.sys, .cfg, .regs, .free]
  | .resetNRise _ _ =>
      [.sys, .pad]
  | .bootDone _ =>
      [.sys, .cfg, .regs, .cvq, .ing, .bars, .enc, .ltm, .lnk, .mem, .vis, .chl, .lmp, .mot, .tbl, .thm, .flt, .free, .mode]
  | .postResetCompletions _ | .ringEnable _ _ | .cplAckWrite _ _ | .busMasterDisable | .decompressResume _ |
    .busMasterEnable =>
      [.ing]
  | .reqIdleWarm _ | .reqIdleCold _ | .reqBindJob _ _ | .reqRun _ | .reqEnterService _ _ | .reqStop _ | .reqClearHalt _ |
    .reqJoinStandby _ | .reqLeaveService _ | .encoderSample _ _ _ _ | .governorSample | .laneDetectTimeout _ |
    .laneDetectRetry _ | .laneClockRecovered _ | .laneCommaAligned _ | .laneTrainingDone _ | .capPageSend _ |
    .laneCapPagesReceived _ _ | .laneCapTimeout _ | .laneTrainingTimeout _ | .laneLockLost _ | .moduleStatusBlock _ _ |
    .moduleReport _ _ | .laneTestEnd _ _ _ _ | .eyeScanComplete _ _ _ | .correctedError _ _ | .uncorrectableError _ _ |
    .channelRetirement | .linePacket _ _ _ _ _ _ | .triggerTimeout _ | .sensorSequenceSend _ _ | .chopperTrip _ _ _ |
    .chopperOnMax _ _ | .runReq _ | .stopReq _ =>
            [.sys, .cfg, .regs, .cvq, .ing, .bars, .enc, .ltm, .lnk, .mem, .vis, .chl, .lmp, .mot, .tbl, .thm, .flt, .pad,
       .mode, .trump, .due]
  | .requestTimeout | .laneReceiverDetect _ | .laneBlockLock _ | .blockReceive _ _ _ _ | .lampFrame _ _ | .diodeReading _ |
    .riseHistorySample | .estop _ =>
            [.sys, .cfg, .regs, .cvq, .ing, .bars, .enc, .ltm, .lnk, .mem, .vis, .chl, .lmp, .mot, .tbl, .thm, .flt, .pad,
       .free, .mode, .trump, .due]
  | .pendingRequestApply | .autoJoin =>
      [.sys, .cfg, .regs, .cvq, .ing, .bars, .enc, .ltm, .lnk, .mem, .lmp, .mot, .tbl, .thm, .pad, .mode]
  | .idleTimerExpiry | .idleColdEntry | .digest _ _ _ | .suspect _ =>
      [.sys, .cfg, .regs, .cvq, .ing, .bars, .ltm, .lnk, .mem, .tbl, .thm, .mode]
  | .stopComplete | .abort _ _ | .generatorTick | .webAtRest | .seqCommand _ _ | .sequenceDone _ | .sequenceTimeout _ =>
      [.sys, .cfg, .regs, .cvq, .ing, .bars, .ltm, .lnk, .mem, .mot, .tbl, .thm, .mode]
  | .calCommit _ _ | .activateImageBank _ _ | .commitStagedCalSet _ _ _ | .diagRead _ _ _ =>
      [.sys, .cfg, .regs]
  | .calAutoCommit | .calOldCopyErased | .imageTransfer _ _ | .imageTransferDequeue | .imageBankVerify | .nozzleUseRecord |
    .freeBlockErase _ | .loginLockoutExpiry _ | .auditBurstEnd _ =>
      [.cfg]
  | .calCopyVerified _ =>
      [.sys, .cfg, .regs, .cvq, .ing, .bars, .lnk, .mem]
  | .login _ _ _ | .logout _ | .sessionTimeout _ =>
      [.cfg, .roles]
  | .commitGo _ _ =>
      [.sys, .cfg, .regs, .cvq, .bars, .enc, .ltm, .lnk, .vis, .chl, .lmp, .tbl, .tim, .pad]
  | .commitDiscard _ _ =>
      [.sys, .cfg, .regs, .tbl]
  | .commitTakeEffect _ =>
      [.regs, .cvq, .bars, .enc, .ltm, .lnk, .vis, .chl, .lmp, .tbl, .tim, .pad]
  | .queueEntryWrite _ _ =>
      [.regs, .cvq, .vis, .tbl, .flt, .due]
  | .moverTransfer _ =>
      [.cvq]
  | .queueEntryConsume _ =>
      [.sys, .cfg, .regs, .cvq, .ing, .bars, .ltm, .lnk, .mem, .vis, .chl, .mot, .tbl, .thm, .flt, .pad, .free, .mode]
  | .producerResume _ =>
      [.regs, .cvq, .ing, .bars, .vis]
  | .evqLostInsert _ =>
      [.regs, .cvq]
  | .queuePointerMismatch _ =>
      [.regs, .cvq, .ing, .vis, .chl, .tbl, .flt, .due]
  | .duneRingWrite _ _ _ _ =>
      [.sys, .cfg, .regs, .cvq, .tbl]
  | .ringDoorbell _ _ =>
      [.sys, .regs, .cvq, .ing]
  | .ringReset _ | .functionLevelReset | .pcieReadError _ =>
      [.regs, .cvq, .ing, .tbl]
  | .open_ _ _ _ | .close _ _ _ =>
      [.regs, .cvq, .ing, .tbl, .free]
  | .data _ _ _ =>
      [.sys, .regs, .cvq, .ing, .tbl, .free]
  | .duneBlockDecode _ | .compressFlushTimeout _ =>
      [.regs, .cvq, .ing, .free]
  | .objectEndVerify _ | .dataDescriptorComplete _ =>
      [.regs, .cvq, .ing]
  | .jobEndingComplete _ =>
      [.sys, .cfg, .regs, .cvq, .ing, .bars, .lnk, .tbl, .free]
  | .jobDrained _ =>
      [.sys, .cfg, .regs, .cvq, .ing, .bars, .lnk, .tbl]
  | .archiveExhausted _ =>
      [.sys, .regs, .cvq, .ing, .bars, .lnk, .mot, .tbl]
  | .barComposeLine _ =>
            [.sys, .cfg, .regs, .cvq, .ing, .bars, .enc, .ltm, .lnk, .mem, .vis, .chl, .lmp, .mot, .tbl, .thm, .flt, .tim,
       .pad, .free, .mode, .trump, .due]
  | .slewerWriteback _ | .idleTableUpdate _ _ =>
      [.bars, .chl]
  | .correctionWindowWrite _ _ _ | .toneCurveWindowWrite _ _ _ | .matrixWindowWrite _ _ _ | .descriptorWindowWrite _ _ _ |
    .segmentTableWrite _ _ _ =>
      [.sys, .cfg, .regs, .bars, .lnk, .chl, .mot, .tbl]
  | .aceVerdict _ _ _ | .estopRelease =>
      [.sys, .cfg, .regs, .cvq, .ing, .bars, .ltm, .lnk, .mem, .mot, .tbl, .thm, .pad, .mode]
  | .aceRejectPulseEnd | .cameraTriggerEnd _ | .padHoldExpiry =>
      [.pad]
  | .encArm _ _ | .encPosSet _ _ | .encCal _ _ =>
      [.sys, .cfg, .regs, .enc, .tbl]
  | .encCalComplete _ =>
      [.regs, .enc, .free]
  | .encCalTimeout _ | .calRunStart =>
      [.enc, .chl]
  | .encStillTimeout _ =>
      [.enc]
  | .ltmSampleArrival | .lineTrigger =>
            [.sys, .cfg, .regs, .cvq, .ing, .bars, .enc, .ltm, .lnk, .mem, .vis, .chl, .lmp, .mot, .tbl, .thm, .flt, .pad,
       .free, .mode, .grid, .trump, .due]
  | .patternTestGo _ _ =>
      [.sys, .cfg, .regs, .lnk]
  | .errorInject _ _ _ _ _ _ _ _ | .eyeScanGo _ _ _ | .eyeScanStop _ _ =>
      [.sys, .cfg, .lnk]
  | .refreshDue _ _ | .delaySetLoadDone =>
      [.mem]
  | .mr4Poll _ _ =>
      [.regs, .cvq, .mem]
  | .scrubRead _ =>
      [.regs, .mem]
  | .retirementFillDone =>
      [.sys, .regs, .cvq, .ing, .bars, .lnk, .mem, .flt, .due]
  | .frameStart _ _ _ _ | .frameEnd _ _ _ | .frameTimeout _ =>
            [.sys, .cfg, .regs, .cvq, .ing, .bars, .enc, .ltm, .lnk, .mem, .vis, .chl, .lmp, .mot, .tbl, .thm, .flt, .tim,
       .pad, .mode, .trump, .due]
  | .pipelineGroupStart _ =>
      [.regs, .cvq, .vis]
  | .pipelineGroupDone _ =>
      [.regs, .cvq, .ing, .vis, .chl, .tbl, .free]
  | .statsRecord _ =>
      [.sys, .cfg, .regs, .cvq, .ing, .bars, .ltm, .lnk, .mem, .vis, .chl, .mot, .tbl, .thm, .pad, .mode]
  | .blindTimeout _ =>
      [.regs, .cvq, .chl]
  | .calTempCheck =>
      [.chl]
  | .chlCalCmd _ _ =>
      [.sys, .cfg, .chl]
  | .calRunComplete _ _ =>
      [.regs, .cvq, .enc, .lnk, .chl, .lmp, .tbl, .free]
  | .parkSelect _ | .chopperOffEnd _ _ | .shortHoldEnd _ _ =>
      [.mot]
  | .motGo _ _ | .motStop _ _ | .targetWrite _ _ _ =>
      [.sys, .cfg, .regs, .mot, .tbl]
  | .trumpRenew | .renewalReceived _ _ _ | .revertQualified | .replay _ | .ack _ | .ackSend | .fill _ _ | .fillSend |
    .timeExchange _ _ =>
      [.tbl]
  | .leaseExpiry | .startupTrumpTake | .handover _ _ | .testTakeover _ _ | .testHoldExpiry | .revert _ =>
      [.sys, .cfg, .regs, .cvq, .ing, .bars, .ltm, .lnk, .mem, .tbl, .thm, .pad, .mode, .trump]
  | .yield_ _ _ =>
      [.sys, .cfg, .regs, .cvq, .ing, .bars, .ltm, .lnk, .mem, .tbl, .thm, .pad, .free, .mode, .trump]
  | .forwardRecord _ _ | .lineEvent _ _ _ _ _ =>
            [.sys, .cfg, .regs, .cvq, .ing, .bars, .enc, .ltm, .lnk, .mem, .vis, .chl, .lmp, .mot, .tbl, .thm, .flt, .tim,
       .pad, .free, .mode, .grid, .trump, .due]
  | .left _ | .standbySilence | .timeMark =>
      [.regs, .cvq, .tbl]
  | .resyncCopyDone _ =>
      [.sys, .cfg, .regs, .cvq, .ing, .bars, .ltm, .lnk, .mem, .vis, .chl, .lmp, .mot, .tbl, .thm, .mode, .grid]
  | .throttleStepDown =>
      [.regs, .cvq, .thm]
  | .scoreboardBucket _ =>
      [.flt]
  | .telemetryInterval =>
      [.regs, .cvq, .flt]
  | .ptpAnnounce _ _ _ | .announceTimeout =>
      [.regs, .cvq, .tim]
  | .ptpSync _ _ _ | .ptpDelayReqSend | .timePulseDue _ | .timePulseEnd _ =>
      [.tim]
  | .ptpDelayResp _ _ _ =>
      [.regs, .cvq, .tim, .free]
  | .timeAccept _ _ | .clrChg _ _ =>
      [.sys, .cfg, .regs, .tbl, .tim]
  | .gpIn _ _ =>
      [.regs, .tbl, .pad]
  | .timePulseWake _ =>
      [.sys]

/-! ### How statements about commands are put -/

/-- Command `c` runs: it answers a next state, and `post` holds of it. -/
def Runs (c : Instr) (s : State) (post : State → Prop) : Prop := ∃ t, exec c s = .next t ∧ post t

/-- Nothing but the parts of `l` has changed from `s` to `t`. -/
def State.sameBut (s t : State) (l : List Part) : Prop := t.pending = s.pending ∧ ∀ p : Part, p ∉ l → p.same s t

/-- Nothing waits to be carried out with the next command: no retirement is due, no entry to `FROZEN` and no yield for a health
failure waits for firing to end. -/
abbrev State.calm (s : State) : Prop := s.flt.due = [] ∧ s.sys.freezePend = false ∧ s.tbl.yieldFor ≠ some 1

/-- The device operates, and nothing waits to be carried out with the next command. -/
abbrev State.operates (s : State) : Prop := s.alive = true ∧ s.calm

/-- A write of register `a` by session `ses` reaches it: the session holds a role that covers `need`, the register responds in
the seat's mode, and the staging area, once a burst that the write does not continue is ended, takes the record of the write
(R8, R20, R30, R48, R50, R52, R291). -/
abbrev State.reaches (s : State) (ses : Fin 5) (need : Role) (a : Nat) : Prop :=
  s.alive = true ∧ s.may ses need = true ∧ (s.inMode .frozen && !frozenDiag a) = false ∧
    (s.inMode .standby && !seatLocal a) = false ∧ (s.inMode .idle && s.sys.cold && coldGated a) = false ∧
    (s.audited ses && decide (stagingCap ≤ (s.burstCut ses a).cfg.staging.length)) = false

/-- A request of session `ses` reaches the seat, and none waits and no stop is under way (R26, R27). -/
abbrev State.takesRequest (s : State) (ses : Fin 5) : Prop :=
  s.operates ∧ s.reaches ses .operator 0x104 ∧ s.may ses .installer = true ∧ s.inMode .standby = false ∧ s.sys.req = none ∧
    s.sys.stopping = false

end Sys2Proof.Machine
end

