-- ==== Sys2Proof/Certificates/Slice0/Obligations.lean ====
section
/-! DEFINITION. The statements for the provers: what commands do, what they leave, what every step keeps. -/
open Sys2Proof Sys2Proof.Machine

/-! ### The machine as a whole -/

/-- A step with command c at the front of the queue is `exec` of c on the state with the queue's rest; with an empty queue one SUP
clock passes (log entry 4). -/
def Obligations.StepRunsFrontCommand : Prop :=
  (∀ (s : State) (c : Instr) (rest : List Instr), s.pending = c :: rest → step s = exec c { s with pending := rest }) ∧
  ∀ s : State, s.pending = [] → step s = .next s.idleTick

/-- Every step keeps the queue's commands well formed and the register maps in their one form, and leaves no retirement to carry
out. -/
def Obligations.EveryStepKeepsQueueAndRegisters : Prop :=
  ∀ s t : State, step s = .next t → (s.inv → t.inv) ∧ (s.flt.due = [] → t.flt.due = [])

/-- What every step keeps holds at reset, and the queue is empty there. -/
def Obligations.ResetMeetsInvariant : Prop := State.reset.inv ∧ State.reset.pending = [] ∧ State.reset.flt.due = []

/-- Every command answers a next state in every state, whatever its operands; and an entry that is not of its queue's class is none: it
changes nothing (log entry 50). -/
def Obligations.WellFormedCommandsNeverStop : Prop :=
  (∀ (c : Instr) (s : State), ∃ t, exec c s = .next t) ∧
  ∀ (q : Fin 64) (e : Entry) (s : State), (Instr.queueEntryWrite q e).wf = false → exec (.queueEntryWrite q e) s = .next s

/-- The frame of every command: a part that `touched` does not name is the same after it, and the queue is left alone. -/
def Obligations.CommandsChangeOnlyTheirParts : Prop :=
  ∀ (c : Instr) (s t : State), exec c s = .next t → t.pending = s.pending ∧ ∀ p : Part, p ∉ touched c → p.same s t

/-- R48, R315, R347: while the supplies are invalid, `RESET_N` is low or `TEST_EN` was sampled high, nothing but the supplies,
`RESET_N` and the pad hold, which is always on, acts; a session with no role has every write ignored (it ends a burst of the
session's, R50, and does nothing else) and reads zero everywhere. -/
def Obligations.ShutOutCommandsDoNothing : Prop :=
  (∀ (c : Instr) (s : State), s.alive = false → s.calm → c.power = false → exec c s = .next s) ∧
  (∀ (c : Instr) (s : State) (n : Fin 5), c.writer = some n → s.roleOf n = none → s.calm →
    Runs c s fun t => s.sameBut t [.cfg] ∧ (s.cfg.sess[n].burst = none → t = s)) ∧
  ∀ (s : State) (n : Fin 5) (a : BitVec 24), s.alive = true → s.roleOf n = none →
    exec (.readClear n a) s = .next (s.onSys fun y => { y with resp := 0 }) ∧
    exec (.loReadLatch n a) s = .next (s.onSys fun y => { y with resp := 0 })

/-! ### Registers (R6–R8, R53, R54, R69, R354) -/

/-- R6, R7, R53: what a session's write does by the register's access type, shown on one register of each type: `PAD_GPIO_OUT` (RW)
takes the word; `LTM_GOV_VMIN` (RWG) takes its 16 bits in the shadow alone; of `MOT_FLAGS` (W1C) the flags written with 1 clear. -/
def Obligations.SessionWritesFollowAccessType : Prop :=
  ∀ (s : State) (ses : Fin 5) (w : Word), s.operates → s.may ses .installer = true →
    (s.reaches ses .operator 0x1E0084 →
      Runs (.registerWrite (.session ses) 0x1E0084 w) s fun t => s.sameBut t [.cfg, .regs, .tbl] ∧
        rget t.regs.rw 0x1E0084 = w ∧ (∀ a, a ≠ 0x1E0084 → rget t.regs.rw a = rget s.regs.rw a) ∧
        (∀ a, rget t.regs.shadow a = rget s.regs.shadow a) ∧ t.regs.act = s.regs.act) ∧
    (s.reaches ses .operator 0x11010C →
      Runs (.registerWrite (.session ses) 0x11010C w) s fun t => s.sameBut t [.cfg, .regs, .tbl] ∧
        rget t.regs.shadow 0x11010C = (rget s.regs.shadow 0x11010C &&& 0xFFFF0000#32) ||| (w &&& 0xFFFF#32) ∧
        (∀ a, a ≠ 0x11010C → rget t.regs.shadow a = rget s.regs.shadow a) ∧ t.regs.act = s.regs.act ∧ t.regs.pend = s.regs.pend) ∧
    ∀ x : Fin 16, s.reaches ses .operator (0x180030 + x.val * 0x200) →
      Runs (.registerWrite (.session ses) (BitVec.ofNat 24 (0x180030 + x.val * 0x200)) w) s fun t => s.sameBut t [.cfg, .regs, .tbl] ∧
        ∀ j : Fin 6, (rget t.regs.hw (0x180030 + x.val * 0x200)).getLsbD j.val =
          ((rget s.regs.hw (0x180030 + x.val * 0x200)).getLsbD j.val && !w.getLsbD j.val)

/-- R7, R354: a read of `SYS_REQ_REJ` answers its count and clears it.  A read of `LTM_GRID_LO` answers G[31:0] and latches G[47:32]
for the session: a later read of `LTM_GRID_HI` answers the latched value, whatever G is then, as long as the session's latches
are the same; without such a read it answers the live value.  The two registers are derived: hardware stores no word of them. -/
def Obligations.ReadsClearAndLatch : Prop :=
  ∀ (s : State) (n : Fin 5), s.operates → s.may n .operator = true →
    (s.cfg.sess[n].latched.contains 0x10C = false →
      Runs (.readClear n 0x10C) s fun t => s.sameBut t [.sys, .regs] ∧ t.sys.mode = s.sys.mode ∧
        t.sys.resp.toNat = s.f F.SYS_REQ_REJ_COUNT ∧ t.f F.SYS_REQ_REJ_COUNT = 0 ∧
        ∀ g : Fld, g.addr ≠ 0x10C → t.f g = s.f g) ∧
    (s.inMode .frozen = false → s.sys.cold = false → s.cfg.sess[n].latched.contains 0x110144 = false →
      rget s.regs.hw 0x110144 = 0 → rget s.regs.hw 0x110148 = 0 →
      Runs (.loReadLatch n 0x110144) s fun t => s.sameBut t [.sys, .cfg] ∧
        t.sys.resp.toNat = s.ltm.g.toNat % 2 ^ 32 ∧
        ∀ u : State, u.cfg.sess[n] = t.cfg.sess[n] → u.alive = true → u.inMode .frozen = false → u.sys.cold = false →
          Runs (.readClear n 0x110148) u fun v => v.sys.resp.toNat = s.ltm.g.toNat / 2 ^ 32) ∧
    (s.inMode .frozen = false → s.sys.cold = false → s.cfg.sess[n].latched.contains 0x110148 = false →
      rget s.regs.hw 0x110148 = 0 →
      Runs (.readClear n 0x110148) s fun t => t.sys.resp.toNat = s.ltm.g.toNat / 2 ^ 32)

/-- R54: at A + 0x20_0000 the active value of the RWG register at A is read, and every other address of that range reads zero. -/
def Obligations.ActiveViewsReadActiveSet : Prop :=
  ∀ (s : State) (n : Fin 5) (a : Nat), s.operates → s.roleOf n = some .maker → s.inMode .frozen = false → s.sys.cold = false →
    a % 4 = 0 → a < 0x200000 →
      Runs (.readClear n (BitVec.ofNat 24 (a + 0x200000))) s fun t => s.sameBut t [.sys] ∧
        t.sys.resp = match regAt a with
          | some (r, _) => BitVec.ofNat 32 (s.activeWord a r.fields)
          | none => 0

/-! ### Modes and requests (R24–R30) -/

/-- R26: what the requests listed for a mode do there.  From `IDLE/COLD` code 0x1 starts the wake; `READY` is left through LIFT;
RUN is taken once LOWER is done and waits with REQ_PEND while it is not; a request in `PRINT` waits; a stop in `SERVICE` starts
with HALT_CAUSE 0x1; `HALT` is cleared only with `ESTOP_N` high and below 150 °C. -/
def Obligations.RequestsChangeTheMode : Prop :=
  ∀ (s : State) (ses : Fin 5), s.takesRequest ses →
    (s.inMode .idle = true → s.sys.cold = true → Runs (.reqIdleWarm ses) s fun t =>
      s.sameBut t [.sys, .cfg, .regs, .tbl] ∧ t.sys.mode = .idle ∧ t.sys.waking = true) ∧
    (s.inMode .ready = true → s.sys.flow = .none → Runs (.reqIdleWarm ses) s fun t =>
      t.sys.mode = .ready ∧ t.sys.flow = .leave ∧ t.sys.seqStep = .lift) ∧
    (s.idleWarm = true → s.coldFit = true → s.calRunning = false → Runs (.reqIdleCold ses) s fun t =>
      t.sys.mode = .idle ∧ t.sys.cold = true) ∧
    (s.inMode .ready = true → s.sys.flow = .none → Runs (.reqRun ses) s fun t => t.sys.mode = .print ∧ t.ltm.armed = true) ∧
    (s.inMode .ready = true → s.sys.flow = .enter → Runs (.reqRun ses) s fun t =>
      s.sameBut t [.sys, .cfg] ∧ t.sys.mode = .ready ∧ t.sys.req.map (·.code) = some 4) ∧
    (∀ fn, s.idleWarm = true → Runs (.reqEnterService ses fn) s fun t => t.sys.mode = .service ∧ t.sys.svc = some fn) ∧
    (s.inMode .service = true → s.sys.flow = .none → Runs (.reqLeaveService ses) s fun t =>
      t.ltm.armed = false ∧ (t.sys.mode = .idle ∨ t.sys.mode = .service ∧ t.sys.flow = .leave)) ∧
    (s.inMode .print = true → Runs (.reqStop ses) s fun t =>
      s.sameBut t [.sys, .cfg] ∧ t.sys.mode = .print ∧ t.sys.req.map (·.code) = some 6) ∧
    (s.inMode .service = true → s.sys.stops = [] → Runs (.reqStop ses) s fun t =>
      t.sys.mode = .service ∧ t.sys.stopping = true ∧ t.sys.stops = [{ kind := .haltRamp, cause := 1 }]) ∧
    (s.inMode .halt = true → s.pad.estop = true → s.thm.temp < 2400 → s.sys.seqStep ≠ .lift → s.sys.seqStep ≠ .cap →
      Runs (.reqClearHalt ses) s fun t => t.sys.mode = .idle ∧ t.sys.cold = false ∧ t.sys.haltCause = 0 ∧ t.pad.latched = false) ∧
    (s.inMode .idle = true → s.joinOk = true → Runs (.reqJoinStandby ses) s fun t => t.sys.mode = .idle ∧ t.tbl.joining = true)

/-- R26, R27, R97, R150, R357: a bind request whose handle names a usable job, on a press that is fit once the lanes are checked again
(R170).  From `IDLE/WARM` with no job bound the job is BOUND on every bar with heads, its first line at G + 1, and the seat is in
`READY`, with UNCAP under way where UNCAP's interlock holds; in `READY` a second job is bound behind the others; in `PRINT` the
request waits.  A handle that names no usable job is ignored and counted. -/
def Obligations.BindTakesUsableJobs : Prop :=
  ∀ (s : State) (ses : Fin 5) (h : BitVec 16), s.takesRequest ses →
    (s.idleWarm = true → s.sys.jobs = [] → s.mot.liftDone = true → s.bindPrep.pressOk = true → s.bindPrep.bindJobOk h = true →
      Runs (.reqBindJob ses h) s fun t => t.sys.mode = .ready ∧ t.sys.flow = .enter ∧ t.sys.seqStep = .uncap ∧
        t.sys.jobs = [{ handle := h, bars := s.bindBars, gap := s.f F.LTM_JOB_GAP_LINES, start := some (pl (s.ltm.g.toNat + 1)) }] ∧
        (t.jobAt (tagOf h)).map (·.st) = some .bound) ∧
    (s.inMode .ready = true → s.sys.flow = .none → s.sys.jobs ≠ [] → s.toPrint ≤ 1 → s.bindPrep.pressOk = true →
      s.bindPrep.bindJobOk h = true → Runs (.reqBindJob ses h) s fun t => t.sys.mode = .ready ∧
        t.sys.jobs.length = s.sys.jobs.length + 1 ∧ (t.sys.jobs.map (·.handle)).getLast? = some h ∧
        (t.jobAt (tagOf h)).map (·.st) = some .bound) ∧
    (s.inMode .print = true → s.toPrint ≤ 1 → s.bindPrep.pressOk = true → s.bindPrep.bindJobOk h = true →
      Runs (.reqBindJob ses h) s fun t => t.sys.mode = .print ∧ t.sys.jobs = s.sys.jobs ∧
        t.sys.req.map (fun r => (r.code, r.handle)) = some (3, h)) ∧
    (s.bindPrep.bindJobOk h = false → Runs (.reqBindJob ses h) s fun t => s.sameBut t [.cfg, .regs, .cvq, .lnk] ∧
      t.f F.SYS_REQ_REJ_COUNT = min 65535 (s.f F.SYS_REQ_REJ_COUNT + 1))

/-- R26: a request that is not listed for the current mode is ignored and counted in `SYS_REQ_REJ`, and nothing else changes, but that a
burst of the session's ends (R50). -/
def Obligations.UnlistedRequestsAreCounted : Prop :=
  ∀ (s : State) (ses : Fin 5), s.takesRequest ses →
    let rejected := fun a => (s.burstCut ses a).bump F.SYS_REQ_REJ_COUNT
    (s.inMode .ready = false → exec (.reqRun ses) s = .next (rejected 0x104)) ∧
    (s.inMode .halt = false → exec (.reqClearHalt ses) s = .next (rejected 0x104)) ∧
    (s.inMode .service = false → exec (.reqLeaveService ses) s = .next (rejected 0x104)) ∧
    (s.inMode .idle = false → ∀ fn, exec (.reqEnterService ses fn) s = .next (rejected 0x104)) ∧
    (s.inMode .idle = false → exec (.reqJoinStandby ses) s = .next (rejected 0x104)) ∧
    (s.idleWarm = false → exec (.reqIdleCold ses) s = .next (rejected 0x104)) ∧
    (s.idleWarm = true → exec (.reqIdleWarm ses) s = .next (rejected 0x104)) ∧
    (s.inMode .idle = true → exec (.reqStop ses) s = .next (rejected 0x104))

/-- R27–R30, R261: what the seat does of itself with requests and with `IDLE/COLD`.  A stop request that waits in `PRINT` takes effect
after 100 µs without a boundary: firing ends and the stop is in force.  RUN that waited in `READY` takes effect once LOWER is
done.  The idle timer, where COLD_AUTO is set, and an entry that waited for the calibrations reach `IDLE/COLD`; a wake that
completes ends in `IDLE/WARM`.  An orderly stop whose web rests and whose sequences are over ends in `HALT`, which then names its
cause. -/
def Obligations.WaitingRequestsTakeEffect : Prop :=
  ∀ s : State, s.operates →
    (∀ r, s.inMode .print = true → s.sys.stopping = false → s.sys.stops = [] → s.ltm.armed = true → s.sys.req = some r → r.code = 6 →
      Runs .requestTimeout s fun t => t.sys.mode = .print ∧ t.sys.req = none ∧ t.sys.stopping = true ∧
        t.sys.stops = [{ kind := .haltRamp, cause := 1 }] ∧ t.ltm.armed = false) ∧
    (∀ r, s.inMode .ready = true → s.sys.stopping = false → s.sys.flow = .none → s.sys.req = some r → r.code = 4 →
      Runs .pendingRequestApply s fun t => t.sys.mode = .print ∧ t.sys.req = none ∧ t.ltm.armed = true) ∧
    (s.fb F.SYS_IDLE_CFG_COLD_AUTO = true → s.coldFit = true → s.calRunning = false → s.sys.waking = false →
      Runs .idleTimerExpiry s fun t => t.sys.mode = .idle ∧ t.sys.cold = true) ∧
    (s.sys.coldPend = true → s.coldFit = true → s.calRunning = false →
      Runs .idleColdEntry s fun t => t.sys.mode = .idle ∧ t.sys.cold = true ∧ t.sys.req = none ∧ t.sys.coldPend = false) ∧
    (s.inMode .idle = true → s.sys.cold = true → s.sys.waking = true → s.sys.afterWake = [] →
      Runs .coldWakeComplete s fun t => t.sys.mode = .idle ∧ t.sys.cold = false ∧ t.sys.waking = false) ∧
    (s.inMode .standby = false → s.sys.stopping = true → s.mot.rest = true → s.sys.cold = false → s.sys.endFiring = false →
      s.sys.flow = .stop → s.sys.seqStep = .over → s.stopRank < 3 → Runs .stopComplete s fun t =>
        t.sys.mode = .halt ∧ t.sys.stopping = false ∧ t.sys.stops = [] ∧ (s.inMode .halt = false → t.sys.haltCause = causeOf s.sys.stops))

/-! ### Power, resets and `BOOT` (R26, R31–R38, R315, R316, R347) -/

/-- R31, R38, R46, R315, R347: what a power-on reset keeps is NVM alone: images, calibration sets, audit ring, and the record pool, where no
record was being written; the seat is in `BOOT` with KIND 0, its G5-DDR content, its jobs and its roles gone, and held until
`RESET_N` rises, which samples the straps.  A loss of power leaves the same NVM. -/
def Obligations.PowerKeepsOnlyNvm : Prop :=
  ∀ s : State,
    let nvm := fun t : State => t.cfg.banks = s.cfg.banks ∧ t.cfg.copies = s.cfg.copies ∧ t.cfg.ring = s.cfg.ring ∧
      (s.cfg.recOpen = [] → t.cfg.pool = s.cfg.pool)
    (Runs .powerOn s fun t => t.sys.mode = .boot ∧ t.sys.inReset = true ∧ t.sys.powered = true ∧ t.sys.resetKind = 0 ∧
      t.ing.jobs = [] ∧ t.mem = {} ∧ nvm t ∧ t.cfg.image = {} ∧ ∀ n : Fin 5, t.roleOf n = none) ∧
    (Runs .powerLoss s fun t => t.sys.powered = false ∧ t.ing.jobs = [] ∧ t.mem = {} ∧ nvm t) ∧
    (s.sys.powered = true → s.sys.inReset = true → ∀ seat test, Runs (.resetNRise seat test) s fun t => s.sameBut t [.sys, .pad] ∧
      t.sys = { s.sys with inReset := false } ∧ t.pad = { s.pad with seatId := seat, testEn := test })

/-- R316: a supply below its range while `RESET_N` is high is a power-on reset: KIND reads 0, G5-DDR content, and with it the layer
store, is lost, and `BOOT` follows; with `RESET_N` low nothing happens. -/
def Obligations.SupplyDipIsPowerOnReset : Prop :=
  ∀ s : State,
    (s.sys.powered = true → s.sys.inReset = false → Runs .supplyDip s fun t => t.sys.mode = .boot ∧ t.sys.resetKind = 0 ∧
      t.sys.inReset = false ∧ t.mem = {} ∧ t.ing.jobs = [] ∧ t.sys.hardBoot = false) ∧
    (s.sys.inReset = true → exec .supplyDip s = .next s)

/-- R31–R34, R347: a low of `RESET_N` below 40 ns is ignored, one of 100 ns or more is a hard reset, one between may be either; a
command of an installer with CONFIRM is a hard reset too.  A hard reset keeps the jobs' records and generations, NVM and the
always-on domain, puts every working channel into self-refresh, counts in `SYS_RESET_CAUSE`, and takes every role away. -/
def Obligations.HardResetKeepsTheLayerStore : Prop :=
  ∀ s : State,
    let kept := fun (t : State) (kind : Nat) (low : Bool) =>
      t.sys.mode = .boot ∧ t.sys.hardBoot = true ∧ t.sys.inReset = low ∧
      t.sys.resetKind = (if s.inMode .frozen then 5 else kind) ∧
      t.f F.SYS_RESET_CAUSE_COUNT = min 65535 (s.f F.SYS_RESET_CAUSE_COUNT + 1) ∧
      t.ing.jobs.map (fun j => (j.tag, j.gen, j.st)) = s.ing.jobs.map (fun j => (j.tag, j.gen, j.st)) ∧ t.ing.gens = s.ing.gens ∧
      (∀ c : Fin 8, s.mem.ch[c].st = .active → t.mem.ch[c].st = .selfRefresh) ∧
      t.cfg.banks = s.cfg.banks ∧ t.cfg.ring = s.cfg.ring ∧ t.tbl.holder = false ∧ t.tbl.holdOut = s.tbl.holdOut ∧
      t.mot.liftDone = s.mot.liftDone ∧ ∀ n : Fin 5, t.roleOf n = none
    (∀ ns, ns < 40 → exec (.resetNLow ns) s = .next s) ∧
    (∀ ns, 100 ≤ ns → s.sys.powered = true → s.sys.inReset = false → Runs (.resetNLow ns) s fun t => kept t 1 true) ∧
    (∀ ns, 40 ≤ ns → ns < 100 → s.sys.powered = true → s.sys.inReset = false →
      Runs (.resetNLow ns) s fun t => s.free < t.free ∧ (t = s.drawn ∨ kept t 1 true)) ∧
    ∀ ses, s.reaches ses .installer 0x110 →
      (Runs (.hardResetCommand ses 0xA5) s fun t => kept t 2 false) ∧
      ∀ c : Byte, c ≠ 0xA5 → exec (.hardResetCommand ses c) s = .next (s.burstCut ses 0x110)

/-- R11, R31, R35, R36: a warm reset, where it is accepted and `ESTOP_N` is high, ends in `IDLE/WARM` with KIND 3 and every role and
request lost; an island reset of CHL clears its accumulators and returns the bars' corrections to the calibration set, with KIND
4; one that names THM is ignored. -/
def Obligations.WarmAndIslandResetsAct : Prop :=
  ∀ (s : State) (ses : Fin 5), s.operates →
    (s.reaches ses .installer 0x110 → s.warmOk = true → s.pad.estop = true → Runs (.warmReset ses 0xA5) s fun t =>
      t.sys.mode = .idle ∧ t.sys.cold = false ∧ t.sys.resetKind = 3 ∧ t.sys.req = none ∧ t.sys.stops = [] ∧ t.pad.latched = false ∧
      ∀ n : Fin 5, t.roleOf n = none) ∧
    (s.reaches ses .maker 0x110 → s.inMode .frozen = false → Runs (.islandReset ses 15 0xA5) s fun t =>
      t.sys.mode = s.sys.mode ∧ t.sys.resetKind = 4 ∧ t.sys.resetIsland = 15 ∧
      t.chl.knot = Vector.replicate 8 (Vector.replicate 17 (0, 0)) ∧ t.chl.trim = s.cfg.cal.trim ∧ t.ltm.trim = s.cfg.cal.trim ∧
      ∀ b : Fin 8, t.bars[b].inf = s.cfg.cal.corr[b] ∧ t.bars[b].tgt = s.cfg.cal.corr[b]) ∧
    (s.reaches ses .maker 0x110 → exec (.islandReset ses 17 0xA5) s = .next (s.burstCut ses 0x110))

/-- R26, R37, R39, R42, R47, R194: what `BOOT` finds decides it.  Flash that does not answer, or whose SFDP table does not fit, keeps the seat
in `BOOT` with ERR 5, and two banks that do not load with the selected bank's error.  An image that loads, of the selected bank or
as the fallback, that fits the device and names the G5-DDR that comes up, ends it in `IDLE/WARM`; one that does not fit keeps the
seat in `BOOT` with ERR 3, one whose G5-DDR does not come up with ERR 4.  (No bank is only partly written, R47, and nothing is
stopped or latched meanwhile.) -/
def Obligations.BootEndsByWhatItFinds : Prop :=
  ∀ (s : State) (env : BootEnv), s.operates → s.inMode .boot = true →
    ((∀ d, env.nvm = some d → d.fits = false) → Runs (.bootDone env) s fun t => s.sameBut t [.sys] ∧ t.sys.mode = .boot ∧
      t.sys.bootErr = 5) ∧
    ∀ d, env.nvm = some d → d.fits = true → s.cfg.part = Vector.replicate 2 false →
      let sel := s.cfg.selected
      let other := otherBank sel
      (s.cfg.goodBank sel = none → s.cfg.goodBank other = none → Runs (.bootDone env) s fun t =>
        s.sameBut t [.sys, .cfg] ∧ t.sys.mode = .boot ∧ t.sys.bootErr = s.cfg.bankErr sel) ∧
      ∀ (k : Fin 2) (i : Image), s.cfg.goodBank k = some i → k = sel ∨ s.cfg.goodBank sel = none →
        (imageFits i = false → Runs (.bootDone env) s fun t => s.sameBut t [.sys, .cfg] ∧ t.sys.mode = .boot ∧ t.sys.bootErr = 3) ∧
        (imageFits i = true → dramUp env i.pop = false → Runs (.bootDone env) s fun t => t.sys.mode = .boot ∧ t.sys.bootErr = 4) ∧
        (imageFits i = true → dramUp env i.pop = true → s.pad.latched = false → s.thm.raws ≠ [] → s.thm.bootStop = 0 →
          s.sys.hardBoot = false → Runs (.bootDone env) s fun t => t.sys.mode = .idle ∧ t.sys.cold = false ∧ t.sys.phase = 15 ∧
            t.sys.bootErr = 0 ∧ t.cfg.image = i ∧ t.cfg.bank = k ∧ t.cfg.fallback = decide (k ≠ sel))

/-! ### Flash, sessions and audit (R39–R52) -/

/-- R45, R47: a calibration commit takes the values in force outside `PRINT` and writes them into the copy that is erased, whose CRC-32C
fails until it is whole; verified, the set is durable and the commit recorded, a failed verify keeps the set before; then the
other copy is erased.  Without CONFIRM nothing happens, and while an operation runs the command is counted.  A commit due by the
interval starts at once in `IDLE` and waits in `PRINT`; a set of 6 MiB at most that a maker staged is committed under the next
sequence number. -/
def Obligations.CalibrationCommitsRun : Prop :=
  ∀ (s : State) (ses : Fin 5), s.operates →
    let copy := s.cfg.freeCopy
    let writes := fun (t : State) (set : CalSet) => s.sameBut t [.cfg] ∧ t.cfg.run.map (·.set) = some set ∧
      t.cfg.run.map (·.copy) = some copy ∧ t.cfg.op = 1 ∧ t.cfg.busy = true ∧ copyOk t.cfg.copies[copy] = false ∧
      (∀ c : Fin 2, c ≠ copy → t.cfg.copies[c] = s.cfg.copies[c]) ∧ t.cfg.cal = s.cfg.cal
    (s.reaches ses .installer 0x10010 → s.nvmRuns = false → s.inMode .print = false → Runs (.calCommit ses 0xA5) s fun t =>
      writes t s.calSnapshot) ∧
    (s.reaches ses .installer 0x10010 → s.nvmRuns = true →
      exec (.calCommit ses 0xA5) s = .next ((s.burstCut ses 0x10010).bump F.CFG_NVM_STAT_REJ)) ∧
    (∀ c : Byte, c ≠ 0xA5 → s.reaches ses .installer 0x10010 → exec (.calCommit ses c) s = .next (s.burstCut ses 0x10010)) ∧
    (∀ x : CalSet, s.reaches ses .maker 0x10010 → s.nvmRuns = false → x.bytes ≤ calMax →
      Runs (.commitStagedCalSet ses 0xA5 (some x)) s fun t => writes t { x with seq := s.cfg.cal.seq + 1, crcOk := true } ∧
        t.cfg.staged = none) ∧
    (s.f F.CFG_NVM_CFG_CAL_AUTO_H ≠ 0 → s.nvmRuns = false →
      (s.inMode .idle = true → Runs .calAutoCommit s fun t => writes t s.calSnapshot) ∧
      (s.inMode .print = true → Runs .calAutoCommit s fun t => s.sameBut t [.cfg] ∧ t.cfg.run = none ∧ t.cfg.autoDue = true)) ∧
    (∀ r : CalRun, s.cfg.run = some r → r.taken = true → r.verified = false →
      (Runs (.calCopyVerified true) s fun t => (s.chRetiring = [] → s.sameBut t [.cfg]) ∧ t.cfg.cal = r.set ∧
        t.cfg.copies[r.copy] = some r.set ∧ t.cfg.run = some { r with verified := true } ∧
        t.cfg.staging.length + t.cfg.auditWait.length = s.cfg.staging.length + s.cfg.auditWait.length + 1) ∧
      Runs (.calCopyVerified false) s fun t => (s.chRetiring = [] → s.sameBut t [.cfg]) ∧ t.cfg.cal = s.cfg.cal ∧
        t.cfg.copies = s.cfg.copies ∧ t.cfg.run = none ∧ t.cfg.result = 1 ∧ t.cfg.busy = false) ∧
    ∀ r : CalRun, s.cfg.run = some r → r.verified = true → Runs .calOldCopyErased s fun t => s.sameBut t [.cfg] ∧
      t.cfg.copies[r.copy] = s.cfg.copies[r.copy] ∧ (∀ c : Fin 2, c ≠ r.copy → t.cfg.copies[c] = none) ∧ t.cfg.run = none ∧
      t.cfg.busy = false

/-- R41, R43, R46, R47: an image of 24 MiB at most goes into the inactive bank, whose old content is erased first, or waits behind a commit
and then goes there; verified, it is what the bank holds; activation writes a bank-selector record that names that bank.  The use
records hold the nozzle and lamp counts, and a block all of whose records are superseded is erased.  (The pool clauses are for an
empty pool.) -/
def Obligations.ImagesAndRecordsReachTheFlash : Prop :=
  ∀ (s : State) (ses : Fin 5), s.operates →
    let written := fun (t : State) (i : Image) => s.sameBut t [.cfg] ∧ t.cfg.xfer = some i ∧ t.cfg.xferQ = none ∧
      t.cfg.banks[s.cfg.inactive] = none ∧ t.cfg.banks[s.cfg.bank] = s.cfg.banks[s.cfg.bank] ∧ t.cfg.inactValid = false ∧ t.cfg.op = 2
    (∀ i : Image, s.may ses .maker = true → s.inMode .frozen = false → i.bytes ≤ imageMax →
      (s.cfg.run = none → Runs (.imageTransfer ses i) s fun t => written t i) ∧
      (s.cfg.run.isSome = true → exec (.imageTransfer ses i) s = .next (s.onCfg fun c => { c with xferQ := some i }))) ∧
    (∀ i : Image, s.cfg.xferQ = some i → s.cfg.run = none → s.inMode .frozen = false → Runs .imageTransferDequeue s fun t => written t i) ∧
    (∀ i : Image, s.cfg.xfer = some i → Runs .imageBankVerify s fun t => s.sameBut t [.cfg] ∧ t.cfg.banks[s.cfg.inactive] = some i ∧
      t.cfg.inactValid = imageOk i ∧ t.cfg.xfer = none) ∧
    (s.reaches ses .maker 0x10010 → s.nvmRuns = false → s.cfg.inactValid = true → Runs (.activateImageBank ses 0xA5) s fun t =>
      s.sameBut t [.cfg] ∧ t.cfg.selPend = true ∧ t.cfg.op = 3 ∧ t.cfg.bank = s.cfg.bank ∧
        (s.cfg.pool = [] → 61 < s.cfg.nvmMiB → t.cfg.selected = s.cfg.inactive)) ∧
    (s.inMode .boot = false → s.inMode .frozen = false → s.cfg.pool = [] → 61 < s.cfg.nvmMiB → Runs .nozzleUseRecord s fun t =>
      s.sameBut t [.cfg] ∧ (t.cfg.latest 2).map (·.body) = some s.flt.noz ∧
        ∀ i : Fin 32, (t.cfg.latest 3).map (fun r => rget r.body i.val) = some (BitVec.ofNat 32 s.lmp.lamp[i].secs)) ∧
    ∀ (n : Nat) (b : PoolBlock), s.inMode .frozen = false → s.cfg.pool[n]? = some b → blockFree s.cfg.pool b = true →
      Runs (.freeBlockErase n) s fun t => s.sameBut t [.cfg] ∧ t.cfg.pool[n]? = some { erases := b.erases + 1 }

/-- R48: a login whose key matches gives the session its role, one that fails locks it until the lockout ends, and while it is locked
a login is ignored; a logout and a timeout take the role.  No other session's role changes. -/
def Obligations.LoginsGrantAndTakeRoles : Prop :=
  ∀ (s : State) (n : Fin 5) (r : Role) (key : List Byte), s.alive = true →
    (s.cfg.sess[n].locked = false → s.keyOk r key = true → Runs (.login n r key) s fun t => s.sameBut t [.cfg, .roles] ∧
      t.roleOf n = some r ∧ ∀ m : Fin 5, m ≠ n → t.roleOf m = s.roleOf m) ∧
    (s.cfg.sess[n].locked = false → s.keyOk r key = false → Runs (.login n r key) s fun t => s.sameBut t [.cfg] ∧
      t.cfg.sess[n].locked = true) ∧
    (s.cfg.sess[n].locked = true → exec (.login n r key) s = .next s) ∧
    (Runs (.loginLockoutExpiry n) s fun t => s.sameBut t [.cfg] ∧ t.cfg.sess[n] = { s.cfg.sess[n] with locked := false }) ∧
    ∀ c, c = Instr.logout n ∨ c = Instr.sessionTimeout n → Runs c s fun t => s.sameBut t [.cfg, .roles] ∧ t.roleOf n = none ∧
      ∀ m : Fin 5, m ≠ n → t.roleOf m = s.roleOf m

/-- R50, R52: the end of a burst stages its one record with the first address, the count and the CRC-32C of the words, or where the staging
area is full has it wait (log entry 58); a programmed page moves the oldest records of the staging area, up to the next multiple of eight, into the
ring in their order, which loses its oldest 2,048 records when it is full, and what waited follows them. -/
def Obligations.AuditRecordsReachTheRing : Prop :=
  ∀ (s : State), s.operates →
    (∀ (n : Fin 5) (b : Burst), s.cfg.sess[n].burst = some b → s.cfg.fwdBurst = none →
      let r : AuditRec := { seq := s.cfg.auditSeq, sec := s.tim.sec % 2 ^ 32, nsec := s.tim.ns, kind := 0x02, who := whoOf b.role n
                            addr := b.first, a := b.count, b := b.crc ^^^ 0xFFFFFFFF }
      let room := decide (s.cfg.staging.length < stagingCap ∧ s.cfg.auditWait = [])
      Runs (.auditBurstEnd n) s fun t => s.sameBut t [.cfg] ∧ t.cfg.sess[n].burst = none ∧
        t.cfg.staging = s.cfg.staging ++ (if room then [r] else []) ∧ t.cfg.auditWait = s.cfg.auditWait ++ (if room then [] else [r])) ∧
    ∀ (r : AuditRec) (l : List AuditRec), s.cfg.staging = r :: l → s.cfg.heldWrites = [] → s.inMode .frozen = false →
      let page := s.cfg.staging.take (8 - r.seq % 8)
      Runs .auditPageProgram s fun t => s.sameBut t [.cfg] ∧
        t.cfg.ring = (if 30720 < s.cfg.ring.length + page.length then s.cfg.ring.drop 2048 else s.cfg.ring) ++ page ∧
        page ++ t.cfg.staging ++ t.cfg.auditWait = s.cfg.staging ++ s.cfg.auditWait

/-! ### Commit groups (R53–R55, R353) -/

/-- R53, R55, R353: GO makes a group's shadow its pending set, and of a sensor group its active set at once; DISCARD, ignored while PEND = 1,
returns its shadow to the active set; a GO in the condition of the group's last column is ignored.  What was pending becomes active
at the group's instant: in `IDLE` a line group's at once, LAST then carrying bar 0's line index (shown of three groups); in
`PRINT` a line group takes no effect before the line boundary. -/
def Obligations.CommitsMoveTheSets : Prop :=
  ∀ (s : State) (ses : Fin 5) (g : Group), s.operates →
    (s.reaches ses (groupRole g) (commitAddr g) →
      (s.goBlocked g = false → instantOf g ≠ .sens → Runs (.commitGo ses g) s fun t => s.sameBut t [.cfg, .regs, .tbl] ∧
        t.regs.pending.contains g = true ∧ t.regs.act = s.regs.act ∧ t.regs.shadow = s.regs.shadow ∧ t.regs.rw = s.regs.rw ∧
        ∀ a, rget t.regs.pend a = if groupMem g a then rget s.regs.shadow a else rget s.regs.pend a) ∧
      (s.goBlocked g = false → instantOf g = .sens → s.inMode .frozen = false → s.inMode .boot = false → s.inMode .standby = false →
        Runs (.commitGo ses g) s fun t => s.sameBut t [.cfg, .regs, .vis, .tbl] ∧ t.regs.pending.contains g = false ∧
          t.regs.shadow = s.regs.shadow ∧ t.regs.rw = s.regs.rw ∧
          ∀ a, rget t.regs.act a = if groupMem g a then rget s.regs.shadow a else rget s.regs.act a) ∧
      (s.goBlocked g = true → exec (.commitGo ses g) s = .next (s.burstCut ses (commitAddr g))) ∧
      (s.regs.pending.contains g = false → Runs (.commitDiscard ses g) s fun t => s.sameBut t [.cfg, .regs, .tbl] ∧
        t.regs.pending = s.regs.pending ∧ t.regs.act = s.regs.act ∧ t.regs.pend = s.regs.pend ∧ t.regs.rw = s.regs.rw ∧
        ∀ a, rget t.regs.shadow a = if groupMem g a then rget s.regs.act a else rget s.regs.shadow a) ∧
      (s.regs.pending.contains g = true → exec (.commitDiscard ses g) s = .next (s.burstCut ses (commitAddr g)))) ∧
    (s.inMode .idle = true → s.regs.pending.contains g = true → g = .ltmGov ∨ g = .chlLaw ∨ g = .ltmGeom →
      Runs (.commitTakeEffect g) s fun t => s.sameBut t [.regs, .tbl] ∧ t.regs.pending.contains g = false ∧
        t.regs.shadow = s.regs.shadow ∧
        (∀ a, rget t.regs.act a = if groupMem g a then rget s.regs.pend a else rget s.regs.act a) ∧
        rget t.regs.hw (commitAddr g) = BitVec.ofNat 32 (s.lineOf 0 % 65536 * 65536)) ∧
    (s.inMode .print = true → instantOf g = .line → exec (.commitTakeEffect g) s = .next s)

/-! ### Caravan queues (R56–R66) -/

/-- R56–R60: a queue keeps its entries in order through crest, dune and tail: a producer adds behind, the consumer of an event or archive
queue takes the oldest, the mover changes no order.  An entry that the queue's producer does not write is none.  A producer that
finds its queue full holds its entry, and one that holds an entry writes no other; a frame that no group expects is dropped as a
whole, counted and reported MISSING, where a segment of it finds its queue full.  An ingest queue's producer goes on once a slot is
free. -/
def Obligations.QueuesKeepOrder : Prop :=
  ∀ (s : State) (q : Fin 64), s.operates →
    (∀ e, (s.entryFits q e = false → exec (.queueEntryWrite q e) s = .next s) ∧
      (s.entryFits q e = true → q.val < 48 ∨ 52 ≤ q.val → q.val < 60 →
        (s.cvq[q].held = none → (s.settle q).tailRoom q = true → Runs (.queueEntryWrite q e) s fun t => s.sameBut t [.regs, .cvq] ∧
          t.cvq[q].all = s.cvq[q].all ++ [e] ∧ ∀ p : Fin 64, p ≠ q → t.cvq[p] = s.cvq[p]) ∧
        (s.cvq[q].held = none → (s.settle q).tailRoom q = false → Runs (.queueEntryWrite q e) s fun t => s.sameBut t [.cvq] ∧
          t.cvq[q].all = s.cvq[q].all ∧ t.cvq[q].held = some e) ∧
        (s.cvq[q].held ≠ none → exec (.queueEntryWrite q e) s = .next s))) ∧
    (∀ (x : FrameSeg) (k : Fin 8), k.val = x.cam → s.entryFits q (.frame x) = true → s.segGrp x = none →
      s.vis.cam[k].cutFrame ≠ some x.frame →
        ((s.settle q).tailRoom q = true → Runs (.queueEntryWrite q (.frame x)) s fun t => s.sameBut t [.regs, .cvq] ∧
          t.cvq[q].all = s.cvq[q].all ++ [.frame x] ∧ ∀ p : Fin 64, p ≠ q → t.cvq[p] = s.cvq[p]) ∧
        ((s.settle q).tailRoom q = false → Runs (.queueEntryWrite q (.frame x)) s fun t => t.cvq[q].all = s.cvq[q].all ∧
          t.vis.cam[k].cutFrame = (if x.last then none else some x.frame) ∧
          t.f (F.CVQ_DROP_DROP q) = min (2 ^ 32 - 1) (s.f (F.CVQ_DROP_DROP q) + 1) ∧
          t.f (F.VIS_CAM_CNT0_MISSING k.val) =
            min (2 ^ (F.VIS_CAM_CNT0_MISSING k.val).w - 1) (s.f (F.VIS_CAM_CNT0_MISSING k.val) + 1))) ∧
    (Runs (.moverTransfer q) s fun t => s.sameBut t [.cvq] ∧ t.cvq[q].all = s.cvq[q].all ∧
      (∀ d ds, s.cvq[q].dune = d :: ds → s.cvq[q].crest.length < crestCap q → t.cvq[q].crest = s.cvq[q].crest ++ [d]) ∧
      (∀ x xs, s.cvq[q].dune = [] → s.cvq[q].tail = x :: xs → s.cvq[q].crest.length < crestCap q →
        t.cvq[q].crest = s.cvq[q].crest ++ [x]) ∧
      ∀ p : Fin 64, p ≠ q → t.cvq[p] = s.cvq[p]) ∧
    (60 ≤ q.val → s.cvq[q].crest ≠ [] → Runs (.queueEntryConsume q) s fun t => s.sameBut t [.cvq] ∧
      t.cvq[q].all = s.cvq[q].all.drop 1) ∧
    (∀ x l, 56 ≤ q.val → q.val < 60 → s.cvq[q].crest = .arch x :: l → Runs (.queueEntryConsume q) s fun t =>
      t.cvq[q].all = s.cvq[q].all.drop 1) ∧
    (s.tailRoom q = true → 40 ≤ q.val → q.val < 48 →
      (∀ e, s.cvq[q].held = some e → Runs (.producerResume q) s fun t => s.sameBut t [.regs, .cvq] ∧
        t.cvq[q].held = none ∧ t.cvq[q].all = s.cvq[q].all ++ [e]) ∧
      ∀ c rest, s.cvq[q].held = none → s.ing.rings[q.val % 8].pull = c :: rest →
        (s.ing.bme = true → Runs (.producerResume q) s fun t =>
          s.sameBut t [.regs, .cvq, .ing] ∧ t.ing.rings[q.val % 8].pull = rest ∧ t.cvq[q].all = s.cvq[q].all ++ [.chunk c]) ∧
        (s.ing.bme = false → s.inMode .standby = false → exec (.producerResume q) s = .next s)) ∧
    (s.tailRoom q = false → 40 ≤ q.val → q.val < 48 → exec (.producerResume q) s = .next s)

/-- R59, R63, R64, R323: event records owed by a queue are reported by EVT_EVQ_LOST once there is room; a pointer reset empties its
queue and counts; in an event queue EVT_QPTR is its first record; payload lost from an ingest queue is pulled again. -/
def Obligations.EventQueuesReportLosses : Prop :=
  ∀ s : State, s.operates →
    (∀ (i : Fin 4) (e : EventRec), s.cvq[evtQ i].held = none → s.cvq[evtQ i].lost = 0 → s.cvq[evtQ i].fill < 8192 →
      Runs (.queueEntryWrite (evtQ i) (.evt e)) s fun t => s.sameBut t [.regs, .cvq] ∧
        (t.cvq[evtQ i].all).Perm (.evt e :: s.cvq[evtQ i].all)) ∧
    (∀ i : Fin 4, (s.cvq[evtQ i].lost = 0 → exec (.evqLostInsert i) s = .next s) ∧
      (s.cvq[evtQ i].lost ≠ 0 → s.qFull (evtQ i) = false → Runs (.evqLostInsert i) s fun t => s.sameBut t [.regs, .cvq] ∧
        t.cvq[evtQ i].lost = 0 ∧ t.cvq[evtQ i].tail = s.cvq[evtQ i].tail ++ [.evt (s.evtRec 0x021 15 (min 65535 s.cvq[evtQ i].lost))])) ∧
    (∀ q : Fin 64, q.val < 60 → s.vis.outQ = [] → Runs (.queuePointerMismatch q) s fun t =>
      s.sameBut t [.regs, .cvq, .ing, .vis, .chl, .tbl] ∧
      t.cvq[q].all = [] ∧ t.f (F.CVQ_STAT_RESETS q) = min 65535 (s.f (F.CVQ_STAT_RESETS q) + 1)) ∧
    (∀ r : Fin 8, Runs (.queuePointerMismatch (ringQ r)) s fun t =>
      t.ing.rings[r].pull = chunksOf s.cvq[ringQ r].all ++ s.ing.rings[r].pull) ∧
    ∀ i : Fin 4, Runs (.queuePointerMismatch (evtQ i)) s fun t => s.sameBut t [.regs, .cvq] ∧
      t.cvq[evtQ i].all.head? = some (.evt (s.evtRec 0x020 15 (evtQ i).val)) ∧ t.cvq[evtQ i].lost = 0

/-- R66: a dune ring register takes a write only in `IDLE/WARM` or `HALT`; the ring is bad when a size is set and base and size
together exceed the capacity, and a bad ring is used as one of size 0.  Entries the dune holds stay (log entry 58). -/
def Obligations.DuneRingsStayInMemory : Prop :=
  ∀ (s : State) (ses : Fin 5) (q : Fin 64) (size : Bool) (w : Word), s.operates → s.reaches ses .installer (duneFld q size).addr →
    ((s.idleWarm || s.inMode .halt) = true → Runs (.duneRingWrite ses q size w) s fun t => s.sameBut t [.cfg, .regs, .cvq, .tbl] ∧
      t.f (duneFld q size) = w.toNat % 2 ^ (if size then 11 else 20) ∧
      t.f (duneFld q (!size)) = s.f (duneFld q (!size)) ∧ t.cvq[q].all = s.cvq[q].all ∧
      t.cvq[q].ringBad = (decide (t.f F.MEM_CAP_MIB < t.f (F.CVQ_DUNE_BASE_BASE q) + min 1024 (t.f (F.CVQ_DUNE_SIZE_SIZE q))) &&
        decide (t.f (F.CVQ_DUNE_SIZE_SIZE q) ≠ 0)) ∧
      (t.cvq[q].ringBad = true → t.duneCap q = 0)) ∧
    ((s.idleWarm || s.inMode .halt) = false →
      exec (.duneRingWrite ses q size w) s = .next (s.burstCut ses (duneFld q size).addr))

/-! ### Rings and descriptors (R67–R83) -/

/-- R30, R34, R67–R70: the host's ring registers and commands.  RING_BASE takes a write only while EN is 0; CTL enables the ring; a write
of the doorbell is RING_DOORBELL, wakes a seat in `IDLE/COLD`, and with too many descriptors stops the ring with code 1, as a read
error does with code 2, which makes the object whose payload was being read unusable; a reset clears the ring and its queue; owed
completions are written ahead of others once the ring is on and has room.  (That a function-level reset clears Bus Master Enable
is the model's presumption, entry 59.) -/
def Obligations.RingsFollowTheHost : Prop :=
  ∀ (s : State) (r : Fin 8), s.alive = true → s.inMode .boot = false → s.inMode .frozen = false →
    let x := s.ing.rings[r]
    let others := fun t : State => ∀ q : Fin 8, q ≠ r → t.ing.rings[q] = s.ing.rings[q]
    (∀ w : Word,
      (Runs (.registerWrite .host (BitVec.ofNat 24 (r.val * 0x1000)) w) s fun t => s.sameBut t [.ing] ∧ (x.en = true → t = s) ∧
        (x.en = false → others t ∧ t.ing.rings[r] = { x with
          base := BitVec.ofNat 64 (x.base.toNat / 2 ^ 32 * 2 ^ 32 + w.toNat / 4096 * 4096) })) ∧
      exec (.registerWrite .host (BitVec.ofNat 24 (r.val * 0x1000 + 0x18)) w) s = exec (.ringDoorbell r (w.truncate 16)) s ∧
      (w.getLsbD 1 = false →
        exec (.registerWrite .host (BitVec.ofNat 24 (r.val * 0x1000 + 0x24)) w) s = exec (.ringEnable r (w.getLsbD 0)) s)) ∧
    (∀ p, s.inMode .standby = false → (s.sys.cold && s.inMode .idle) = false →
      ((p - x.cons).toNat < x.size → Runs (.ringDoorbell r p) s fun t => s.sameBut t [.ing] ∧ others t ∧
        t.ing.rings[r] = { x with prod := p }) ∧
      (x.size ≤ (p - x.cons).toNat → Runs (.ringDoorbell r p) s fun t => s.sameBut t [.regs, .cvq, .ing] ∧ others t ∧
        t.ing.rings[r] = { x with err := true, code := 1 })) ∧
    (∀ p, s.inMode .idle = true → s.sys.cold = true → (p - x.cons).toNat < x.size → Runs (.ringDoorbell r p) s fun t =>
      s.sameBut t [.sys, .ing] ∧ t.sys = { s.sys with waking := true } ∧ others t ∧ t.ing.rings[r] = { x with prod := p }) ∧
    (∀ p, s.inMode .standby = true → exec (.ringDoorbell r p) s = .next s) ∧
    (∀ b, Runs (.ringEnable r b) s fun t => s.sameBut t [.ing] ∧ others t ∧ t.ing.rings[r] = { x with en := b }) ∧
    (s.inMode .standby = false → Runs (.ringReset r) s fun t => s.sameBut t [.regs, .cvq, .ing, .tbl] ∧ others t ∧
      t.cvq[ringQ r].all = [] ∧ t.cvq[ringQ r].held = none ∧ t.ing.rings[r].en = x.en ∧ t.ing.rings[r].prod = 0 ∧
      t.ing.rings[r].cons = 0 ∧ t.ing.rings[r].err = false ∧ t.ing.rings[r].out = [] ∧
      (x.en = false ∨ x.owed = [] → t.ing.rings[r] = { base := x.base, log2 := x.log2, cplBase := x.cplBase, vector := x.vector, en := x.en,
                                                       owed := x.owed.filter (fun c => c.kind ≠ 0) })) ∧
    (∀ a, (Runs (.cplAckWrite r a) s fun t => s.sameBut t [.ing] ∧ others t ∧ t.ing.rings[r].ack = a ∧
        t.ing.rings[r].prod = x.prod ∧ t.ing.rings[r].cons = x.cons) ∧
      ∀ c, x.en = true → x.owed = [c] → x.err = true → x.code = 3 → ({ x with ack := a } : Ring).cplFull = false →
        Runs (.cplAckWrite r a) s fun t => t.ing.rings[r].owed = [] ∧ t.ing.rings[r].err = false ∧
          t.ing.rings[r].cpl.getLast? = some (x.stamp c)) ∧
    (∀ c, x.en = true → x.owed = [c] → x.cplFull = false → Runs (.postResetCompletions r) s fun t => s.sameBut t [.ing] ∧ others t ∧
      t.ing.rings[r].owed = [] ∧ t.ing.rings[r].cpl = x.cpl ++ [x.stamp c] ∧ t.ing.rings[r].written = x.written + 1) ∧
    (s.inMode .standby = false → Runs .functionLevelReset s fun t => s.sameBut t [.regs, .cvq, .ing, .tbl] ∧ t.ing.bme = false ∧
      ∀ q : Fin 8, t.ing.rings[q] = ({ owed := s.ing.rings[q].owed.filter (fun c => c.kind ≠ 0) } : Ring)) ∧
    (Runs .busMasterDisable s fun t => s.sameBut t [.ing] ∧ t.ing = { s.ing with bme := false }) ∧
    (Runs .busMasterEnable s fun t => s.sameBut t [.ing] ∧ t.ing = { s.ing with bme := true }) ∧
    (s.ing.bme = true → s.inMode .standby = false → Runs (.pcieReadError r) s fun t => s.sameBut t [.regs, .cvq, .ing, .tbl] ∧
      others t ∧ t.ing.rings[r].err = true ∧ t.ing.rings[r].code = 2 ∧ t.ing.rings[r].prod = x.prod ∧
      ∀ f o, x.out = [f] → f.d.op = 2 → f.left ≠ 0 → (x.pull.map List.length).foldl (· + ·) 0 = f.left → s.objOf f = some o →
        t.ing.rings[r].pull = [] ∧ t.ing.rings[r].out = [{ f with left := 0, status := 7, again := false }] ∧
        (t.objOf f).map (·.st) = some 3)

/-- R71, R73–R76: OPEN gives the lowest free tag, the next generation and the reservation asked for, or nothing when the layer store has
not that much left; DATA begins an object of an open job, and one with a stale handle is counted; CLOSE gives a streaming job its
length, stages a staged job whose objects are complete, and fails one that the check finds incomplete; ABORT discards a job's
objects, unbinds a bound job, and ends the firing of a printing one at the next line boundary.  (Payload bytes that a descriptor
lacks are free values, entry 50.) -/
def Obligations.DescriptorsMoveJobs : Prop :=
  ∀ (s : State) (r : Fin 8) (d : Desc) (p : List Byte), s.operates → s.sys.unseen = false → s.ringServed r = true → d.fits p = true →
    (exec (.open_ r d p) s = exec (.open_ r d (s.payload d p)) (s.drawnN (d.len - p.length)) ∧
      exec (.data r d p) s = exec (.data r d (s.payload d p)) (s.drawnN (d.len - p.length)) ∧
      exec (.close r d p) s = exec (.close r d (s.payload d p)) (s.drawnN (d.len - p.length))) ∧
    (∀ tag, d.op = 1 → p.length = d.len → 64 ≤ p.length → byteAt p 0 ≤ 1 → s.freeTag = some tag → s.ing.lsBad = false →
      (cdiv (leAt p 8 8) 1048576 ≤ s.lsFree → Runs (.open_ r d p) s fun t => s.sameBut t [.regs, .cvq, .ing, .tbl] ∧
        t.ing.rings[r].fetch = s.ing.rings[r].fetch + 1 ∧
        (t.jobAt tag).map (fun j => (j.st, j.streaming, j.resMiB, j.ring, j.gen)) =
          some (.opened, byteAt p 0 == 1, cdiv (leAt p 8 8) 1048576, r.val, ((rget s.ing.gens tag).toNat + 1) % 16)) ∧
      (s.lsFree < cdiv (leAt p 8 8) 1048576 → Runs (.open_ r d p) s fun t => s.sameBut t [.regs, .cvq, .ing] ∧
        t.ing.jobs = s.ing.jobs ∧ t.ing.gens = s.ing.gens)) ∧
    (d.op = 2 → p.length = d.len → d.obj ≤ 2039 → s.job? d.handle = none → Runs (.data r d p) s fun t =>
      s.sameBut t [.regs, .cvq, .ing] ∧ t.ing.jobs = s.ing.jobs ∧
      t.f F.ING_STALE_CNT_COUNT = min (2 ^ 32 - 1) (s.f F.ING_STALE_CNT_COUNT + 1)) ∧
    ∀ j, s.jobAt (tagOf d.handle) = some j → j.gen = genOf d.handle →
      (d.op = 2 → p.length = d.len → d.obj ≤ 2039 → j.st = .opened → j.entry d.obj = none → s.otherRing r j.tag d.obj = false →
        s.feeds r j.tag d.obj = none → Runs (.data r d p) s fun t => s.sameBut t [.regs, .cvq, .ing, .tbl, .free] ∧
          ((t.jobAt j.tag).bind (·.entry d.obj)).map (fun o => (o.st, o.dec.pulled, o.ring)) = some (1, d.len, r.val)) ∧
      (d.op = 3 → p.length = d.len → j.streaming = true → j.st = .opened → j.lines = none → 8 ≤ p.length →
        Runs (.close r d p) s fun t => s.sameBut t [.regs, .cvq, .ing, .tbl] ∧ (t.jobAt j.tag).bind (·.lines) = some (leAt p 0 8)) ∧
      (∀ st det, d.op = 3 → p.length = d.len → j.streaming = false → j.st = .opened → s.closeCheck j = (st, det) →
        Runs (.close r d p) s fun t => s.sameBut t [.regs, .cvq, .ing, .tbl] ∧
          (t.jobAt j.tag).map (fun x => (x.st, x.status)) = some (if st = 0 then (.staged, j.status) else (.failed, st))) ∧
      (d.op = 4 → j.st = .opened ∨ j.st = .staged → Runs (.abort r d) s fun t => s.sameBut t [.regs, .cvq, .ing, .tbl] ∧
        (t.jobAt j.tag).map (fun j => (j.st, j.status, j.objs)) = some (.aborted, 0xA, [])) ∧
      (d.op = 4 → j.st = .bound → Runs (.abort r d) s fun t =>
        (t.jobAt j.tag).map (fun j => (j.st, j.status, j.objs)) = some (.aborted, 0xA, []) ∧
          ∀ b ∈ t.sys.jobs, tagOf b.handle ≠ j.tag) ∧
      (d.op = 4 → j.st = .printing → s.inMode .print = true → s.ltm.armed = true → s.sys.stops = [] → Runs (.abort r d) s fun t =>
        (t.jobAt j.tag).map (fun j => (j.st, j.status, j.objs)) = some (.aborted, 0xA, []) ∧
          t.sys = { s.sys with stops := [⟨.haltRamp, 1⟩], stopping := true, endFiring := true })

/-- R72, R77, R80–R82, R101: a raw or coded block adds its bytes to its object, or finds no room in the reservation: a streaming job then
waits, a staged one fails; the end block, whose total must match, is kept for the check; a bad block makes the object unusable;
an object that passes the check is usable, one that fails it is not; a finished descriptor completes and moves CONS; space that
returns lets a waiting object go on. -/
def Obligations.StreamsBecomeObjects : Prop :=
  ∀ (s : State) (r : Fin 8) (f : Fetched) (o : Obj) (j : Job), s.operates → s.ing.rings[r].working = some f → f.again = false →
    s.jobAt f.tag = some j → j.entry f.d.obj = some o →
    let after := fun t : State => (t.jobAt f.tag).bind (·.entry f.d.obj)
    (∀ out rest seg, o.st = 1 → o.dec.wait = false → o.dec.fin = none → decodeBlock o.dec.buf o.bytes.reverse = .raw out rest seg →
      (j.used + (out.length - o.bytes.length) ≤ j.resMiB * 1048576 → Runs (.duneBlockDecode r) s fun t => s.sameBut t [.ing] ∧
        (after t).map (fun x => (x.bytes, x.dec.buf, x.st)) = some (out.reverse, rest, 1)) ∧
      (j.resMiB * 1048576 < j.used + (out.length - o.bytes.length) → Runs (.duneBlockDecode r) s fun t =>
        if j.streaming then s.sameBut t [.ing] ∧ (after t).map (fun x => (x.bytes, x.dec.buf, x.dec.wait)) = some (o.bytes, o.dec.buf, true)
        else s.sameBut t [.regs, .cvq, .ing] ∧ (t.jobAt f.tag).map (fun x => (x.st, x.status)) = some (.failed, 2))) ∧
    (∀ total crc, o.st = 1 → o.dec.wait = false → o.dec.fin = none →
      decodeBlock o.dec.buf o.bytes.reverse = .fin total crc [] → total = o.bytes.length → Runs (.duneBlockDecode r) s fun t =>
        s.sameBut t [.ing] ∧ (after t).map (fun x => (x.bytes, x.dec.buf, x.dec.fin)) = some (o.bytes, [], some (total, crc))) ∧
    (∀ code, o.st = 1 → o.dec.wait = false → o.dec.fin = none → decodeBlock o.dec.buf o.bytes.reverse = .err code →
      Runs (.duneBlockDecode r) s fun t => s.sameBut t [.regs, .cvq, .ing] ∧ (after t).map (fun x => (x.st, x.err)) = some (3, code) ∧
        t.f F.ING_OBJ_BAD_COUNT = min 65535 (s.f F.ING_OBJ_BAD_COUNT + 1)) ∧
    (∀ total crc st code, o.st = 1 → o.dec.fin = some (total, crc) → o.dec.buf = [] → f.left = 0 → bits f.d.flags.toNat 0 1 = 1 →
      s.verify j o crc = (st, code) →
        (st = 0 → f.d.obj ≠ 0 → Runs (.objectEndVerify r) s fun t => s.sameBut t [.regs, .cvq, .ing] ∧
          (after t).map (fun x => (x.st, x.crc, x.bytes)) = some (2, crc, o.bytes)) ∧
        (st ≠ 0 → Runs (.objectEndVerify r) s fun t => s.sameBut t [.regs, .cvq, .ing] ∧
          (after t).map (fun x => (x.st, x.crcBad)) = some (3, st == 5))) ∧
    (s.ing.rings[r].out = [f] → f.fwd = false → f.after = [] → s.dataDone f = true → Runs (.dataDescriptorComplete r) s fun t =>
      s.sameBut t [.regs, .cvq, .ing] ∧ t.ing.rings[r].out = [] ∧ t.ing.rings[r].cons = s.ing.rings[r].cons + 1 ∧
        t.ing.jobs = s.ing.jobs) ∧
    (j.used < j.resMiB * 1048576 → Runs (.decompressResume r) s fun t => s.sameBut t [.ing] ∧
      (after t).map (fun x => (x.st, x.bytes, x.dec.wait)) = some (o.st, o.bytes, false))

/-- R76, R83–R86: a job whose lines are printed and whose archive is compressed retires, and its tag is free; so does a failed or aborted
job nothing of which is in flight; a streaming job whose region is exhausted fails with ARCHIVE and a trailer of void runs, and
the press stops at the next line boundary; a block whose queue has been empty for 64 µs ends with FLUSH. -/
def Obligations.JobsEndAndFreeTheirTag : Prop :=
  ∀ (s : State) (j : Job), s.operates → s.inMode .standby = false → s.jobAt j.tag = some j →
    (j.st = .ending → s.archDone j.tag = true → Runs (.jobEndingComplete j.tag) s fun t =>
      t.jobAt j.tag = none ∧ rget t.ing.finals j.tag = 0 ∧ t.sys.mode = s.sys.mode ∧ ∀ b ∈ t.sys.jobs, tagOf b.handle ≠ j.tag) ∧
    (j.st = .failed ∨ j.st = .aborted → s.drained j.tag = true → Runs (.jobDrained j.tag) s fun t =>
      t.jobAt j.tag = none ∧ rget t.ing.finals j.tag = BitVec.ofNat 32 j.status ∧ t.sys.mode = s.sys.mode) ∧
    (∀ bj, s.sys.jobs.find? (fun b => tagOf b.handle = j.tag) = some bj → s.job? bj.handle = some j → j.streaming = true →
      j.st = .printing ∨ j.st = .ending → j.exhausted bj = true → s.inMode .print = true → s.ltm.armed = true → s.sys.stops = [] →
      Runs (.archiveExhausted j.tag) s fun t => (t.jobAt j.tag).map (fun x => (x.st, x.status)) = some (.failed, 6) ∧
        t.ing.trailer = some (bj.handle, voidTrailer j bj) ∧
        t.sys = { s.sys with stops := [⟨.haltRamp, 9⟩], stopping := true, endFiring := true }) ∧
    ∀ c : Fin 6, s.ing.ctx[c].active = true → s.ing.ctx[c].fill ≠ [] → 4 ≤ c.val ∨ s.cvq[56 + c.val % 4].fill = 0 →
      Runs (.compressFlushTimeout c) s fun t => s.sameBut t [.regs, .cvq, .ing, .free] ∧ t.ing.ctx[c].fill = [] ∧
        t.ing.ctx[c].active = true ∧ t.ing.ctx[c].tag = s.ing.ctx[c].tag ∧
        t.ing.ctx[c].blk.map (fun b => (b.flush, b.lastSeg, b.raw)) = some (true, false, s.ing.ctx[c].fill)

/-! ### Bars and windows (R87–R130, R352) -/

/-- R87, R96–R98, R112: a bar whose line needs nothing that is missing composes it; a line that needs something that is missing waits:
the wait is counted once for the line, and nothing is composed. -/
def Obligations.BarsComposeTheirLines : Prop :=
  ∀ (s : State) (b : Fin 8) (bj : BJob) (j : Job) (n : Nat), s.operates → (s.inMode .ready || s.inMode .print) = true →
    s.thm.gated = false → s.regs.pending = [] → s.bars[b].outQ = [] → s.bars[b].mid = none → s.settleStarts.curJob b = some bj →
    s.job? bj.handle = some j → bj.start.map (fun st => pl (st + bj.done[b])) = some n →
    (∀ f ∈ s.bars[b].flight, lineBefore n f.due = true) → s.settleStarts.sideFull b n = false →
      let waits := fun t : State => t.sys.mode = s.sys.mode ∧ t.bars[b].mid = none ∧
        t.f (F.LYR_WAIT_CNT_COUNT b.val) = min (2 ^ 32 - 1) (s.f (F.LYR_WAIT_CNT_COUNT b.val) + 1) ∧ bj ∈ t.sys.jobs
      (∀ d, j.usable 0 = some d →
        (j.awaited d.bytes (s.cols b.val) b.val bj.done[b] = none → s.donorsOf b = [] →
          Runs (.barComposeLine b) s fun t => t.sys.mode = s.sys.mode ∧ t.bars[b].mid = none ∧ t.bars[b].job = bj.handle ∧
            t.bars[b].line = bj.done[b] ∧ ∃ k ∈ t.sys.jobs, k.handle = bj.handle ∧ k.done[b] = bj.done[b] + 1) ∧
        (∀ o, j.awaited d.bytes (s.cols b.val) b.val bj.done[b] = some o → s.bars[b].waitLine ≠ some n →
          Runs (.barComposeLine b) s waits)) ∧
      (j.usable 0 = none → s.bars[b].waitLine ≠ some n → Runs (.barComposeLine b) s waits)

/-- R120, R121: the slewer's results reach the in-force table once their line is due, and the visit ends; with no job bound a dirty
block takes its target at once; with one bound it does not.  What is settled then takes its settle line (R236). -/
def Obligations.CorrectionsReachTheTable : Prop :=
  ∀ (s : State) (b : Fin 8), s.operates →
    (∀ f rest n, s.bars[b].flight = f :: rest → s.nextPrint b = some n → lineBefore n f.due = false → s.boundOn b.val = true →
      Runs (.slewerWriteback b) s fun t => s.sameBut t [.bars, .chl] ∧ t.bars[b].flight = rest ∧ t.bars[b].tgt = s.bars[b].tgt ∧
        (∀ c, c / 1024 = f.block → c < s.cols b.val →
          rget t.bars[b].inf c = eMerge (rget s.bars[b].inf c) (rget f.vals c)) ∧
        (∀ c, c / 1024 ≠ f.block → rget t.bars[b].inf c = rget s.bars[b].inf c) ∧ ∀ x : Fin 8, x ≠ b → t.bars[x] = s.bars[x]) ∧
    (∀ f rest n, s.bars[b].flight = f :: rest → s.nextPrint b = some n → lineBefore n f.due = true →
      Runs (.slewerWriteback b) s fun t => s.sameBut t [.chl]) ∧
    ∀ k, (s.boundOn b.val = false → s.bars[b].dirty.contains k = true → Runs (.idleTableUpdate b k) s fun t =>
        s.sameBut t [.bars, .chl] ∧ t.bars[b].dirty.contains k = false ∧ t.bars[b].tgt = s.bars[b].tgt ∧
        (∀ c, c / 1024 = k → c < s.cols b.val → rget t.bars[b].inf c = eMerge (rget s.bars[b].inf c) (rget s.bars[b].tgt c)) ∧
        ∀ x : Fin 8, x ≠ b → t.bars[x] = s.bars[x]) ∧
      (s.boundOn b.val = true → exec (.idleTableUpdate b k) s = .next s)

/-- R3, R114, R119, R128, R171, R249, R352: a write to a word of a table window, by a role that may write it and outside the condition
that shuts the window, is what the window then reads, cut to the bits the word holds; every other word reads as before (of the
bars' windows that is said where no head-type descriptor is written, since descriptors say which columns a bar has).  A correction
entry of a bar with a job bound waits for the bar's next line.  In the condition that shuts the window a write is ignored, and
so is a write to a word that is not there. -/
def Obligations.WindowsHoldTheirBits : Prop :=
  ∀ (s : State) (ses : Fin 5) (addr : BitVec 24) (w : Word), s.operates →
    let a := addr.toNat / 4 * 4
    let mask : Nat → Word := fun
      | 1 => 0x0FFFFFFF#32
      | 2 => matMask (s.fb (F.HTN_CFG_FMT s.tblBar.val)) (matIdx a)
      | 3 => 0xFFF#32
      | 4 => descMask (descIdx a % 64)
      | _ => segMask (segIdx a)
    ∀ x ∈ [(1, Instr.correctionWindowWrite ses addr w), (2, .matrixWindowWrite ses addr w), (3, .toneCurveWindowWrite ses addr w),
        (4, .descriptorWindowWrite ses addr w), (5, .segmentTableWrite ses addr w)],
      winOf a = x.1 → s.reaches ses (winRole a) a →
        (s.winShut s.tblBar a = false → s.winHas s.tblBar a = true → (x.1 = 1 → s.boundOn s.tblBar.val = false) →
          Runs x.2 s fun t => s.sameBut t [.cfg, .regs, .bars, .lnk, .chl, .mot, .tbl] ∧ t.winWord a = w &&& mask x.1 ∧
            ∀ c, c % 4 = 0 → c ≠ a → (x.1 = 4 → 4 ≤ winOf c) → t.winWord c = s.winWord c) ∧
        (x.1 = 1 → s.winShut s.tblBar a = false → s.winHas s.tblBar a = true → s.boundOn s.tblBar.val = true →
          Runs x.2 s fun t => s.sameBut t [.cfg, .bars] ∧
            t.bars[s.tblBar].winQ = s.bars[s.tblBar].winQ ++ [(corrIdx a, w, ses.val, (s.roleOf ses).getD .operator)]) ∧
        (s.winShut s.tblBar a = true ∨ s.winHas s.tblBar a = false → exec x.2 s = .next (s.burstCut ses a))

/-- R75, R109: PASS clears the run of failures; FAIL is counted, lengthens the run, raises the reject pulse where it is enabled, and
makes stop request 0x6 when the run reaches STOP_RUN, which in `PRINT` waits for the line boundary (R27); UNCHECKED counts as a
failure where the policy says so and else changes nothing but its event; a verdict with a stale handle is counted and discarded.
(That one run counts for all jobs is the model's reading, entry 41.) -/
def Obligations.AceVerdictsAct : Prop :=
  ∀ (s : State) (h : BitVec 16) (rep : Word), s.operates → s.inMode .standby = false → s.sys.unseen = false →
    let failed := fun t : State => t.f F.LYR_ACE_FAIL_CNT_COUNT = min (2 ^ 32 - 1) (s.f F.LYR_ACE_FAIL_CNT_COUNT + 1) ∧
      t.f F.LYR_ACE_LAST_REPEAT = rep.toNat ∧ t.bars[0].aceRun = s.bars[0].aceRun + 1 ∧
      t.pad.reject = (s.pad.reject || s.fb F.LYR_ACE_POLICY_REJECT_EN)
    (s.job? h ≠ none →
      (Runs (.aceVerdict h rep 0) s fun t => s.sameBut t [.bars] ∧ t.bars[0].aceRun = 0) ∧
      (s.f F.LYR_ACE_POLICY_STOP_RUN ≠ s.bars[0].aceRun + 1 →
        (Runs (.aceVerdict h rep 1) s fun t => s.sameBut t [.regs, .cvq, .bars, .pad] ∧ failed t) ∧
        (s.fb F.LYR_ACE_POLICY_UNCHK_FAIL = true → Runs (.aceVerdict h rep 2) s fun t =>
          s.sameBut t [.regs, .cvq, .bars, .pad] ∧ failed t)) ∧
      (s.f F.LYR_ACE_POLICY_STOP_RUN = s.bars[0].aceRun + 1 → s.inMode .print = true → s.sys.req = none → s.sys.stopping = false →
        Runs (.aceVerdict h rep 1) s fun t => s.sameBut t [.sys, .regs, .cvq, .bars, .pad] ∧ failed t ∧
          t.sys = { s.sys with req := some { code := 6 } }) ∧
      (s.fb F.LYR_ACE_POLICY_UNCHK_FAIL = false → Runs (.aceVerdict h rep 2) s fun t => s.sameBut t [.regs, .cvq] ∧
        t.f F.LYR_ACE_FAIL_CNT_COUNT = s.f F.LYR_ACE_FAIL_CNT_COUNT)) ∧
    (s.job? h = none → ∀ v, Runs (.aceVerdict h rep v) s fun t => s.sameBut t [.regs] ∧
      t.f F.ING_STALE_CNT_COUNT = min (2 ^ 32 - 1) (s.f F.ING_STALE_CNT_COUNT + 1)) ∧
    (Runs .aceRejectPulseEnd s fun t => s.sameBut t [.pad] ∧ t.pad = { s.pad with reject := false })

/-! ### Encoders (R131–R145) -/

/-- R132–R136, R143: a sample of an enabled channel.  A quadrant next to the one before moves the count with it and the phase is the
sample's; both lines changing at once leave the position and set ILLEGAL; the web source's move is P_web's, and its position
starts on its way to line timing. -/
def Obligations.EncoderSamplesMoveThePosition : Prop :=
  ∀ (s : State) (ch : Fin 4) (sin cos idx : BitVec 14), s.operates → s.idleWarm = true → s.fb (F.ENC_CFG_EN ch.val) = true →
    s.f (F.FLT_PERM_COUNT 4) = 0xFFFF →
    let x := s.enc.ch[ch]
    let e := s.encSet ch.val
    let c := e.correct (sin.toInt - s.enc.adc[ch].1, cos.toInt - s.enc.adc[ch].2.1)
    let a := c.lineA e.hyst x.seen x.a
    let b := c.lineB e.hyst x.seen x.b
    let at_ := fun (t : State) (n : Int) (q f : Nat) => s.sameBut t [.regs, .enc] ∧ t.enc.ch[ch].n = n ∧ t.enc.ch[ch].q = q ∧
      t.enc.ch[ch].f = f ∧ t.enc.ch[ch].k = s.instant ch ∧ (∀ i : Fin 4, i ≠ ch → t.enc.ch[i] = s.enc.ch[i]) ∧
      (s.enc.act = ch → s.enc.lost = false → s.enc.onAlt = false →
        t.enc.pweb = s.enc.pweb + (t.enc.ch[ch].pos - x.pos) ∧
        t.enc.fly = s.enc.fly ++ [(s.instant ch * 250, t.enc.pweb, s.enc.jump)]) ∧
      (s.enc.act ≠ ch → t.enc.pweb = s.enc.pweb ∧ t.enc.fly = s.enc.fly)
    (x.seen = true → x.woken = false → x.ampFault = false → e.ampBad c = false →
      idxLevel (idx.toInt - s.enc.adc[ch].2.2) x.idx = false → (a = x.a ∨ b = x.b) → x.q < 4 →
      (quadOf a b = x.q → Runs (.encoderSample ch sin cos idx) s fun t => at_ t x.n x.q (c.phase x.q)) ∧
      (quadOf a b = (x.q + 1) % 4 → Runs (.encoderSample ch sin cos idx) s fun t =>
        at_ t (if x.q = 3 then x.n + 1 else x.n) (quadOf a b) (c.phase (quadOf a b))) ∧
      (quadOf a b = (x.q + 3) % 4 → Runs (.encoderSample ch sin cos idx) s fun t =>
        at_ t (if x.q = 0 then x.n - 1 else x.n) (quadOf a b) (c.phase (quadOf a b)))) ∧
    (x.seen = true → x.woken = false → a ≠ x.a → b ≠ x.b → Runs (.encoderSample ch sin cos idx) s fun t =>
      s.sameBut t [.regs, .cvq, .enc, .flt] ∧ t.enc.ch[ch].pos = x.pos ∧ t.enc.ch[ch].held = true ∧
      t.enc.ch[ch].errSince = true ∧ t.fb (F.ENC_FLAGS_ILLEGAL ch.val) = true)

/-- R138, R139, R142, R291: the commands of a channel: ARM; POS_SET makes P the preset, with REF, and moves P_web with it; neither is a
standby's own; CAL collects 1,024 periods, whose means of extremes are the offsets the slew then goes to; a run not complete in
time is dropped; a channel without a boundary for the standstill timeout has speed 0.  (Beside a zero amplitude the run's gain and
phase are free, entry 1.) -/
def Obligations.EncoderCommandsAct : Prop :=
  ∀ (s : State) (ses : Fin 5) (ch : Fin 4), s.operates →
    let x := s.enc.ch[ch]
    let others := fun t : State => ∀ i : Fin 4, i ≠ ch → t.enc.ch[i] = s.enc.ch[i]
    (s.reaches ses .installer (encCmdAddr ch) →
      (s.inMode .standby = false →
        (Runs (.encArm ses ch) s fun t => s.sameBut t [.cfg, .regs, .enc, .tbl] ∧ others t ∧ t.enc.ch[ch] = { x with armed := true }) ∧
        (s.fb (F.ENC_CFG_EN ch.val) = true → Runs (.encPosSet ses ch) s fun t => s.sameBut t [.cfg, .regs, .enc, .tbl] ∧ others t ∧
          t.enc.ch[ch].pos = (s.encSet ch.val).preset ∧ t.enc.ch[ch].ref = true ∧
          (s.enc.act = ch → s.enc.onAlt = false → s.enc.lost = false →
            t.enc.pweb = s.enc.pweb + ((s.encSet ch.val).preset - x.pos))) ∧
        (s.fb (F.ENC_CFG_EN ch.val) = false → Runs (.encPosSet ses ch) s fun t => s.sameBut t [.cfg, .regs, .tbl])) ∧
      (s.inMode .standby = true → exec (.encArm ses ch) s = .next (s.burstCut ses (encCmdAddr ch)) ∧
        exec (.encPosSet ses ch) s = .next (s.burstCut ses (encCmdAddr ch))) ∧
      (x.cal = .none → Runs (.encCal ses ch) s fun t => s.sameBut t [.cfg, .regs, .enc, .tbl] ∧ others t ∧
        t.enc.ch[ch] = { x with cal := .collect {} })) ∧
    (∀ r, x.cal = .collect r →
      (1024 ≤ r.periods → Runs (.encCalComplete ch) s fun t => s.sameBut t [.regs, .enc, .free] ∧ others t ∧
        t.f (F.ENC_CAL_QUAL_COUNT ch.val) = min 65535 (s.f (F.ENC_CAL_QUAL_COUNT ch.val) + 1) ∧
        ∃ g p : Nat, (r.result g p).1 = clampI (-8192) 8191 (tdivI (r.maxS + r.minS) 2) ∧
          (r.result g p).2.1 = clampI (-8192) 8191 (tdivI (r.maxC + r.minC) 2) ∧
          t.enc.ch[ch] = { x with cal := .slew (r.result g p).1 (r.result g p).2.1 (r.result g p).2.2.1 (r.result g p).2.2.2.1 0 }) ∧
      (r.periods < 1024 → exec (.encCalComplete ch) s = .next s) ∧
      (r.periods < 1024 → Runs (.encCalTimeout ch) s fun t => s.sameBut t [.enc, .chl] ∧ others t ∧
        t.enc.ch[ch] = { x with cal := .none })) ∧
    ((∀ m ∈ x.marks.head?, m + (s.encSet ch.val).tmo ≤ s.enc.tick * 250) → Runs (.encStillTimeout ch) s fun t =>
      s.sameBut t [.enc] ∧ others t ∧ t.encSpeed ch = 0 ∧ t.enc.ch[ch].pos = x.pos) ∧
    ∀ m l, x.marks = m :: l → s.enc.tick * 250 < m + (s.encSet ch.val).tmo → exec (.encStillTimeout ch) s = .next s

/-! ### Line timing (R146–R163) -/

/-- R146, R148, R149, R152, R158, R160, R161: a sample before the fire point commits the line due when its predicted instant less PRE is
near enough, and not before; one that has passed the fire point commits it at once; without a speed nothing is due before the fire
point; a trigger moves G by one, and so does a line whose lag is too large, which is void; the governor lowers its limit towards
VMIN while fill is short, and stops the press below STOP. -/
def Obligations.GridLinesFollowTheWeb : Prop :=
  ∀ s : State, s.operates → s.inMode .standby = false →
    (∀ s0 u p, s.takeSample = some (s0, u, p) → s0.runsGrid = true → s.ltm.catchUp = false →
      let now := max s.ltm.now (u + 750)
      let waits := fun t : State => s.sameBut t [.enc, .ltm, .free] ∧ t.ltm.commit = none ∧ t.ltm.g = s.ltm.g ∧
        t.ltm.hist = s0.ltm.hist ∧ t.enc.fly = s.enc.fly.drop 1
      let commits := fun (t : State) (f trig : Rat) => s.sameBut t [.regs, .enc, .ltm, .lnk, .tbl, .free] ∧ t.ltm.g = s.ltm.g ∧
        t.ltm.commit.map (fun c => (c.f, c.trig, c.late)) = some (f, trig, false)
      (speedOf s0.ltm.hist = none → (p : Rat) < s0.firePoint → Runs .ltmSampleArrival s waits) ∧
      (s0.firePoint ≤ p → s0.ltm.fPrev = none → Runs .ltmSampleArrival s fun t => commits t now now) ∧
      (∀ v, speedOf s0.ltm.hist = some v → 0 < v → (p : Rat) < s0.firePoint → s0.ltm.fPrev = none →
        let f := u + (s0.firePoint - p) / v
        (now + 250 ≤ f - s.preNs → Runs .ltmSampleArrival s waits) ∧
        (f - s.preNs < now + 250 → Runs .ltmSampleArrival s fun t =>
          commits t f (max now (((f - s.preNs) * (2 / 5) + 1 / 2).floor * (5 / 2))) ∧
          t.ltm.commit.map (·.tline) = some ((s.pitchNum : Rat) / s.pitchDen / v))) ∧
      (∀ d, s0.decide148 u p (s0.freeNat : Nat) = some d → s.f F.LTM_LAG_MAX_LAG < s0.lagOf d →
        Runs .ltmSampleArrival s fun t => t.ltm.g = s.ltm.g + 1)) ∧
    (s.ltm.commit = none → exec .lineTrigger s = .next s) ∧
    (s.ltm.commit.isSome = true → Runs .lineTrigger s fun t => t.ltm.g = s.ltm.g + 1 ∧ t.ltm.commit = none) ∧
    (s.inMode .print = true → ∀ f n, s.govFill = some (f, n) →
      (s.f F.LTM_FILL_STOP_LINES ≤ f → f ≤ s.govMin → s.f F.LTM_GOV_VMIN_VALUE * 1000000 < s.ltm.gov.getD s.opSpeed →
        Runs .governorSample s fun t => s.sameBut t [.ltm] ∧ t.ltm.fill = f ∧ t.ltm.govLane = n ∧
          t.ltm.gov = some (max (s.f F.LTM_GOV_VMIN_VALUE * 1000000) (s.ltm.gov.getD s.opSpeed - max 1 (s.f F.LTM_GOV_ACC_VALUE)))) ∧
      (f < s.f F.LTM_FILL_STOP_LINES → s.ltm.armed = true → s.sys.stops = [] → Runs .governorSample s fun t =>
        t.sys.mode = .print ∧ t.sys.endFiring = true ∧ t.sys.stops = [{ kind := .haltRamp, cause := 2 }])) ∧
    (s.inMode .print = false → exec .governorSample s = .next s)

/-! ### Lanes (R164–R192, R280) -/

/-- R166–R170, R280: a lane goes from DETECT through training to CAP, sends its page there, and becomes ACTIVE with pages that pass; pages
that fail a check leave it in CAP; a failed window, time limit or loss of lock sends it back; a retired lane stays retired.  (When
the own equaliser has settled after DETECT the rules do not fix: READY with block lock is a free choice then, entry 1.) -/
def Obligations.LanesComeUp : Prop :=
  ∀ (s : State) (n : Fin 52), s.operates →
    let x := s.lane n
    let goes := fun (t : State) (y : Lane) => s.sameBut t [.lnk] ∧ t.lane n = y ∧ ∀ i : Fin 52, i ≠ n → t.lane i = s.lane i
    let draws := fun (t : State) (y : Lane) => s.sameBut t [.lnk, .free] ∧ t.lane n = y ∧ ∀ i : Fin 52, i ≠ n → t.lane i = s.lane i
    (x.st = .detect → x.retryWait = false →
      (Runs (.laneReceiverDetect n) s fun t => ∃ k < 512, draws t
        (({ x with st := .train, present := true, hdrs := [], phase := k } : Lane).send (s.trainGroup n false))) ∧
      Runs (.laneDetectTimeout n) s fun t => goes t { x with present := false, retryWait := true, failedOnce := true }) ∧
    (x.st = .detect → Runs (.laneDetectRetry n) s fun t => goes t { x with retryWait := false }) ∧
    (x.st = .train → Runs (.laneClockRecovered n) s fun t => goes t { x with st := .bitlock, hdrs := [] }) ∧
    (x.st = .bitlock → Runs (.laneCommaAligned n) s fun t => goes t { x with st := .symlock, hdrs := [] }) ∧
    (x.st = .symlock → Runs (.laneBlockLock n) s fun t => ∃ e : Bool, (x.eqDone = true → e = true) ∧ draws t
      (({ x with st := .blocklock, hdrs := List.replicate 64 true, eqDone := e } : Lane).send (s.trainGroup n e))) ∧
    (x.st = .blocklock → Runs (.laneTrainingDone n) s fun t =>
      goes t (({ x with st := .cap, pages := false, eqDone := true } : Lane).send (s.trainGroup n true ++ [s.capBlock n]))) ∧
    (x.st = .cap → Runs (.capPageSend n) s fun t =>
      goes t (x.send [if x.pages then s.idleBlock (n.val % 40) else s.capBlock n])) ∧
    (x.st = .cap → x.pages = false →
      (∀ (m : Fin 40) (p : ModPages), barLane m = n → (s.modStore m p).capCheck m = 0 →
        Runs (.laneCapPagesReceived n (.module p)) s fun t => s.sameBut t [.regs, .cvq, .lnk] ∧ (t.lane n).st = .active ∧
          (t.lane n).capBad = false ∧ (t.lane n).version = p.version.toNat ∧ (t.lane n).maxRate = p.maxRate.toNat ∧
          t.f (F.LNK_MOD_SN_VALUE m.val) = p.serial.toNat) ∧
      (∀ (m : Fin 40) (p : ModPages) (e : Nat), barLane m = n → (s.modStore m p).capCheck m = e → e ≠ 0 → x.relock = false →
        Runs (.laneCapPagesReceived n (.module p)) s fun t => s.sameBut t [.regs, .cvq, .lnk] ∧ (t.lane n).st = .cap ∧
          (t.lane n).capBad = true ∧ (t.lane n).capErr = e) ∧
      (∀ p : SeatPage, 40 ≤ n.val → Runs (.laneCapPagesReceived n (.seat p)) s fun t => s.sameBut t [.lnk, .tbl] ∧
        t.tbl.otherDeal = p.deal ∧ (t.lane n).capErr = s.seatCheck p ∧
        if s.seatCheck p = 0 then (t.lane n).st = .active ∧ (t.lane n).inGroup = s.laneUse n
        else (t.lane n).st = .cap ∧ (t.lane n).capBad = true) ∧
      (x.relock = false → Runs (.laneCapTimeout n) s fun t => s.sameBut t [.regs, .lnk] ∧ (t.lane n).st = .train ∧
        (n.val < 40 → t.f (F.LNK_FAIL_CNT_COUNT n.val) = min (2 ^ 32 - 1) (s.f (F.LNK_FAIL_CNT_COUNT n.val) + 1)))) ∧
    (x.st.trains = true → x.relock = false → s.retired (laneBoard n) = false → s.laneUse n = true →
      Runs (.laneTrainingTimeout n) s fun t => s.sameBut t [.regs, .lnk] ∧ (t.lane n).st = .detect ∧ (t.lane n).failedOnce = true ∧
        (n.val < 40 → t.f (F.LNK_FAIL_CNT_COUNT n.val) = min (2 ^ 32 - 1) (s.f (F.LNK_FAIL_CNT_COUNT n.val) + 1))) ∧
    (x.st = .active → n.val < 40 → s.f (F.FLT_PERM_COUNT 1) = 0xFFFF → Runs (.laneLockLost n) s fun t =>
      s.sameBut t [.regs, .cvq, .ing, .lnk, .flt] ∧ (t.lane n).st = .train ∧ (t.lane n).relock = true ∧
        t.f (F.LNK_DOWN_CNT_COUNT n.val) = min (2 ^ 32 - 1) (s.f (F.LNK_DOWN_CNT_COUNT n.val) + 1)) ∧
    (x.st = .active → 40 ≤ n.val → s.f (F.FLT_PERM_COUNT 2) = 0xFFFF → Runs (.laneLockLost n) s fun t =>
      (t.lane n).st = .train ∧ (t.lane n).relock = true ∧ (t.lane n).inGroup = false) ∧
    (x.st = .retired → ∀ c ∈ [Instr.laneReceiverDetect n, .laneDetectTimeout n, .laneDetectRetry n, .laneClockRecovered n,
      .laneCommaAligned n, .laneBlockLock n, .laneTrainingDone n, .capPageSend n, .laneCapTimeout n, .laneTrainingTimeout n,
      .laneLockLost n], exec c s = .next s)

/-- R157, R166, R167, R178, R179: code errors and bad headers are counted, and eight invalid headers among the last 64, or a training block,
lose the lock; a status block gives the deal, the last record and T and V of its heads; a report is counted by its kind. -/
def Obligations.UpstreamBlocksAreRead : Prop :=
  ∀ (s : State) (n : Fin 40), s.operates → (s.lane (barLane n)).st = .active → s.f (F.FLT_PERM_COUNT 1) = 0xFFFF →
    let x := s.lane (barLane n)
    (∀ (h : RxHdr) (k : Fin 32) (ok : Bool), h ≠ .training →
      let l := (decide (h ≠ .invalid) :: x.hdrs).take 64
      let counted := fun t : State =>
        t.f (F.LNK_CODE_ERR_COUNT n.val) = min (2 ^ 32 - 1) (s.f (F.LNK_CODE_ERR_COUNT n.val) + k.val) ∧
        t.f (F.LNK_HDR_ERR_BAD n.val) = min 65535 (s.f (F.LNK_HDR_ERR_BAD n.val) + if h = .invalid then 1 else 0) ∧
        t.f (F.LNK_HDR_ERR_RSV n.val) = min 65535 (s.f (F.LNK_HDR_ERR_RSV n.val) + if h = .reserved then 1 else 0)
      ((l.filter (fun b => !b)).length < 8 → Runs (.blockReceive (barLane n) h k ok) s fun t => s.sameBut t [.regs, .lnk] ∧
        counted t ∧ t.lane (barLane n) = { x with hdrs := l }) ∧
      (8 ≤ (l.filter (fun b => !b)).length → Runs (.blockReceive (barLane n) h k ok) s fun t =>
        s.sameBut t [.regs, .cvq, .ing, .lnk, .flt] ∧ counted t ∧ (t.lane (barLane n)).st = .train)) ∧
    ((x.hdrs.filter (fun b => !b)).length < 8 → Runs (.blockReceive (barLane n) .training 0 true) s fun t =>
      s.sameBut t [.regs, .cvq, .ing, .lnk, .flt] ∧ (t.lane (barLane n)).st = .train) ∧
    (∀ b : StatusBlock, b.active = true → newer b.dAcc s.tbl.ownDeal = false → Runs (.moduleStatusBlock n b) s fun t =>
      s.sameBut t [.regs, .ltm, .lnk] ∧ t.f (F.LNK_MOD_LAST_VALUE n.val) = b.lastRec.toNat ∧
        t.f (F.LNK_MOD_DEAL_VALUE n.val) = b.dAcc.toNat ∧ (t.lane (barLane n)).modActive = true ∧
        ∀ h ∈ s.laneHeads n.val, ∀ j : Fin 4, h.loc = (if b.upper then 4 else 0) + j.val → b.tv[j].1 ≠ 0x8000 →
          b.tv[j].2 ≠ 0xFFFF → (t.lhead (headIdx (n.val / 5) h.h)).tv = some (b.tv[j].1.toInt, b.tv[j].2.toNat)) ∧
    ∀ r : ModReport, r.active = true → newer r.dAcc s.tbl.ownDeal = false → x.reports = none →
      (let post := fun (t : State) (rec' tim miss : Nat) =>
        t.f (F.LNK_REJ_CNT_REC n.val) = min 4095 (s.f (F.LNK_REJ_CNT_REC n.val) + rec') ∧
        t.f (F.LNK_REJ_CNT_TIM n.val) = min 4095 (s.f (F.LNK_REJ_CNT_TIM n.val) + tim) ∧
        t.f (F.LNK_MISS_CNT_COUNT n.val) = min (2 ^ 32 - 1) (s.f (F.LNK_MISS_CNT_COUNT n.val) + miss) ∧
        (t.lane (barLane n)).reports = some r.count.toNat
       (r.kind = 1 → Runs (.moduleReport n r) s fun t => s.sameBut t [.regs, .cvq, .ing, .lnk, .flt] ∧ post t 1 0 0) ∧
       (r.kind = 2 → Runs (.moduleReport n r) s fun t => s.sameBut t [.regs, .lnk, .flt] ∧ post t 0 1 0) ∧
       (r.kind = 3 → Runs (.moduleReport n r) s fun t => s.sameBut t [.regs, .lnk] ∧ post t 0 0 1))

/-- R189–R192: a pattern test starts in `SERVICE` on an ACTIVE lane, where the raw pattern replaces the lane's traffic, and ends in training
with the counts of the checker over the bits received; an injection with CONFIRM spoils the next blocks of its type; an eye scan
runs from GO until it completes, and one stopped before is invalid.  (How the checker synchronises and how open points make a
height are the model's choices, entry 60.) -/
def Obligations.LaneTestsRun : Prop :=
  ∀ (s : State) (ses : Fin 5) (n : Fin 40), s.operates →
    let x := s.lane (barLane n)
    let cut := fun a : Nat => (.next (s.burstCut ses a) : Host.Outcome State Fault Refusal)
    (s.reaches ses .installer (0x120068 + n.val * 0x400) →
      (s.inMode .service = true → x.st = .active → Runs (.patternTestGo ses n) s fun t => s.sameBut t [.cfg, .regs, .lnk] ∧
        (t.lane (barLane n)).st = .test ∧ (t.lane (barLane n)).raw = some (s.rawPat n.val) ∧
        t.f (F.LNK_PAT_ERR_COUNT n.val) = 0 ∧ t.f (F.LNK_PAT_BITS_COUNT n.val) = 0) ∧
      (s.inMode .service = false ∨ x.st ≠ .active → exec (.patternTestGo ses n) s = cut (0x120068 + n.val * 0x400))) ∧
    (∀ (lead body : List Bool) (times : Nat) (p : RawPat), x.st = .test → x.raw = some p →
      let rx := lead ++ (List.replicate times body).flatten
      Runs (.laneTestEnd n lead body times) s fun t => s.sameBut t [.regs, .lnk] ∧
      (t.lane (barLane n)).st = .train ∧ (t.lane (barLane n)).raw = none ∧ (t.lane (barLane n)).patSync = (p.check rx).sync ∧
      t.f (F.LNK_PAT_ERR_COUNT n.val) = min (p.check rx).errs 0xFFFFFFFF ∧
      t.f (F.LNK_PAT_BITS_COUNT n.val) = min ((p.check rx).bits / 2 ^ 20) 0xFFFFFFFF) ∧
    (∀ kind blk pos bit count confirm, s.reaches ses .maker (0x120080 + n.val * 0x400) →
      (confirm = 0xA5 → x.st = .disabled → Runs (.errorInject ses n kind blk pos bit count confirm) s fun t =>
        s.sameBut t [.cfg, .lnk] ∧ t.lane (barLane n) = { x with
          tx := []
          inj := { left := max 1 count.toNat, kind := kind.val, blk := if blk = 7 then 0 else blk.val, pos := max 1 pos.val,
                   bit := if 10 ≤ bit.val then 0 else bit.val } }) ∧
      (confirm = 0xA5 → x.st = .active → x.pend = {} → blk = 1 →
        Runs (.errorInject ses n kind blk pos bit count confirm) s fun t => s.sameBut t [.cfg, .lnk] ∧
          (t.lane (barLane n)).inj.left = 0 ∧ (t.lane (barLane n)).tx.length = max 1 count.toNat ∧
          ∀ k ∈ (t.lane (barLane n)).tx, k.spoiled.isSome = true) ∧
      (confirm ≠ 0xA5 → exec (.errorInject ses n kind blk pos bit count confirm) s = cut (0x120080 + n.val * 0x400))) ∧
    ∀ m : Fin 52, let y := s.lane m
      (s.reaches ses .installer (eyeAddr m) →
        (∀ d, Runs (.eyeScanGo ses m d) s fun t => s.sameBut t [.cfg, .lnk] ∧
          t.lane m = { y with eyeBusy := true, eyeDwell := d.val, eyeValid := false, eyeW := 0, eyeH := 0 }) ∧
        Runs (.eyeScanStop ses m) s fun t => s.sameBut t [.cfg, .lnk] ∧
          t.lane m = if y.eyeBusy then { y with eyeBusy := false, eyeValid := false, eyeW := 0, eyeH := 0 } else y) ∧
      ∀ w h, (y.eyeBusy = true → y.st = .active → Runs (.eyeScanComplete m w h) s fun t => s.sameBut t [.lnk] ∧
          t.lane m = { y with eyeBusy := false, eyeValid := true, eyeW := eyeWidth w, eyeH := eyeHeight h }) ∧
        (y.eyeBusy = false → exec (.eyeScanComplete m w h) s = .next s)

/-! ### G5-DDR (R193–R211) -/

/-- R199, R202, R208: a refresh is issued with every postponed one and closes the rows, or waits up to four intervals while requests of
class 0 wait, at the higher of the band's rate and the one the devices demand; a condition beyond 4× is counted as 4× and noted.  The
channels load a new delay set one by one, each active again when it is done; scrub reads join the read queue, if it has room, and
walk over the channel and count the passes.  A channel that is off, at rest or retired is left alone. -/
def Obligations.ChannelsAreServiced : Prop :=
  ∀ (s : State) (c : Fin 8), s.operates →
    let x := s.mem.ch[c]
    let becomes := fun (t : State) (y : MemCh) => t.mem.ch[c] = y ∧ ∀ d : Fin 8, d ≠ c → t.mem.ch[d] = s.mem.ch[d]
    (x.st = .active ∨ x.st = .quiesced ∨ x.st = .frozen →
      let r := max (bandRef s.thm.band) (if x.st = .quiesced then min x.ref x.mr4 else x.mr4)
      (x.postponed < 4 → Runs (.refreshDue c true) s fun t => s.sameBut t [.mem] ∧
        becomes t { x with postponed := x.postponed + 1, ref := r }) ∧
      (∀ busy, busy = false ∨ 4 ≤ x.postponed → Runs (.refreshDue c busy) s fun t => s.sameBut t [.mem] ∧
        becomes t { x with postponed := 0, ref := r, rows := [] }) ∧
      (∀ m : Fin 4, m.val < 3 → Runs (.mr4Poll c m) s fun t => s.sameBut t [.mem] ∧ becomes t { x with mr4 := m.val }) ∧
      Runs (.mr4Poll c 3) s fun t => s.sameBut t [.regs, .cvq, .mem] ∧ becomes t { x with mr4 := 2, hot := true }) ∧
    (x.st = .quiesced → (∀ d : Fin 8, d < c → s.mem.ch[d].st ≠ .quiesced) → x.loading = s.thm.band →
      Runs .delaySetLoadDone s fun t => s.sameBut t [.mem] ∧
        t.mem.ch[c] = { x with st := .active, dly := x.loading, ref := max x.ref x.mr4 }) ∧
    ((∀ d : Fin 8, s.mem.ch[d].st ≠ .quiesced) → exec .delaySetLoadDone s = .next s) ∧
    (x.st = .active → s.background = true → s.fb F.MEM_SCRUB_CFG_EN = true →
      let y : MemCh := { x with q := x.q ++ [{ write := false, l := x.scrub * 128, n := 128, cls := 2, since := s.nowNs }] }
      ((x.q.filter (fun r => !r.write)).length < 48 → Runs (.scrubRead c) s fun t => s.sameBut t [.regs, .mem] ∧
        becomes t (if x.scrub + 1 < s.chanMiB * 8192 then { y with scrub := x.scrub + 1 }
          else { y with scrub := 0, passes := min 0xFFF (x.passes + 1) })) ∧
      (48 ≤ (x.q.filter (fun r => !r.write)).length → exec (.scrubRead c) s = .next s)) ∧
    (x.st = .off ∨ x.st = .selfRefresh ∨ x.st = .retired → ∀ i ∈ [Instr.refreshDue c true, .refreshDue c false, .mr4Poll c 0,
      .mr4Poll c 3, .scrubRead c], exec i s = .next s)

/-- R203, R204, R209, R318–R320: an access whose beats the code corrects is counted by channel and by device, its address, symbol,
syndrome and number of beats are kept, and its 128 bytes are written back at class 0 (shown of a channel with empty queues); an
access without an error changes nothing, and neither does one on a channel that does not work.  The upset enters the channel's
scoreboard, and one that exceeds the kind's threshold classes the channel permanent.  In `READY`, `PRINT`, `SERVICE` and
`IDLE/COLD`, with no seat in step, the retirement then waits, and the channel serves on. -/
def Obligations.CorrectedErrorsAreCounted : Prop :=
  ∀ (s : State) (c : Fin 8) (e : CorrErr), s.operates →
    (s.memWorks c = false → exec (.correctedError c e) s = .next s) ∧
    (readVerdict (e.beats.take 16) = .clean → exec (.correctedError c e) s = .next s) ∧
    ∀ (k : Fin 20) (be : BitVec 80) (n : Nat), s.mem.ch[c].st = .active → readVerdict (e.beats.take 16) = .fixed k be n →
      let l := e.ofs.toNat / 128 * 128
      let a := s.memGlobal c l
      let plus1 := fun (t : State) (f : Fld) => t.f f = min (2 ^ f.w - 1) (s.f f + 1)
      let recorded := fun (t : State) => plus1 t (F.MEM_CE_CNT_COUNT c.val) ∧
        plus1 t (F.MEM_CE_SYM_COUNT c.val (s.dramAt l).rank k.val) ∧
        t.f (F.MEM_CE_ADDR_LO_ADDR c.val) = a % 2 ^ 32 ∧ t.f (F.MEM_CE_ADDR_HI_ADDR c.val) = a / 2 ^ 32 % 256 ∧
        t.f (F.MEM_CE_INFO_SYM c.val) = k.val ∧ t.f (F.MEM_CE_INFO_RANK c.val) = (s.dramAt l).rank ∧
        t.f (F.MEM_CE_INFO_SRC c.val) = e.src.val ∧ t.f (F.MEM_CE_INFO_SYND c.val) = (Config.syndrome be).toNat ∧
        t.f (F.MEM_CE_INFO_BEATS c.val) = n ∧ t.mem.ch[c].st = .active ∧
        (s.mem.ch[c].q = [] → t.mem.ch[c].q = [{ write := true, l := l, n := 128, cls := 0, since := s.nowNs }])
      (s.f (F.FLT_PERM_COUNT 0) = 0xFFFF → Runs (.correctedError c e) s fun t => s.sameBut t [.regs, .cvq, .mem, .flt] ∧ recorded t ∧
        ((s.board c.val).retired = false → plus1 t (F.FLT_SB_TOTAL_COUNT c.val) ∧ (t.board c.val).buckets = (s.board c.val).hit.buckets) ∧
        (t.board c.val).perm = (s.board c.val).perm) ∧
      (s.f (F.FLT_PERM_COUNT 0) ≠ 0xFFFF → s.f (F.FLT_PERM_COUNT 0) < (s.board c.val).hit.count → (s.board c.val).perm = false →
        (s.board c.val).retired = false → s.otherInStep = false →
        s.inMode .ready = true ∨ s.inMode .print = true ∨ s.inMode .service = true ∨ (s.inMode .idle = true ∧ s.sys.cold = true) →
        Runs (.correctedError c e) s fun t => s.sameBut t [.regs, .cvq, .mem, .flt] ∧ t.flt.due = [] ∧ recorded t ∧
          (t.board c.val).perm = true ∧ (t.board c.val).pend = true ∧ (t.board c.val).retired = false)

/-- R20, R205, R206: a command/address parity alert, or an access with a beat that the code cannot correct, freezes its channel and
captures the access: address, row, kind, subchannel, source, syndrome or command, and time; a seat at rest that does not hold the
Trump is `FROZEN` at once and its other channels rest; a holder that fires freezes at the next line boundary. -/
def Obligations.UncorrectableErrorsFreeze : Prop :=
  ∀ (s : State) (c : Fin 8) (e : UncorrErr), s.operates →
    let x := s.mem.ch[c]
    (s.memWorks c = false → exec (.uncorrectableError c e) s = .next s) ∧
    ∀ be : BitVec 80, x.st = .active ∨ x.st = .quiesced → e.parity = true ∨ readVerdict (e.beats.take 16) = .bad be →
      let l := if e.parity then e.ofs.toNat else e.ofs.toNat / 128 * 128
      let a := s.memGlobal c l
      let captured := fun (t : State) => t.mem.ch[c].st = .frozen ∧ t.sys.frozenCh = s.sys.frozenCh ||| (1#8 <<< c.val) ∧
        t.f (F.MEM_UE_ADDR_LO_ADDR c.val) = a % 2 ^ 32 ∧ t.f (F.MEM_UE_ADDR_HI_ADDR c.val) = a / 2 ^ 32 % 256 ∧
        t.f (F.MEM_UE_INFO_KIND c.val) = (if e.parity then 2 else 1) ∧
        t.f (F.MEM_UE_INFO_SUBCH c.val) = (if e.parity ∧ e.subch then 1 else 0) ∧ t.f (F.MEM_UE_INFO_SRC c.val) = e.src.val ∧
        t.f (F.MEM_UE_INFO_SYND c.val) = (if e.parity then 0 else (Config.syndrome be).toNat) ∧
        t.f (F.MEM_UE_CMD_CMD c.val) = (if e.parity then e.cmd.val else 0) ∧ t.f (F.MEM_UE_CMD_ROW c.val) = (s.dramAt l).row ∧
        t.f (F.MEM_UE_TIME_SEC c.val) = s.tim.sec % 2 ^ 32
      (s.inMode .idle = true → s.tbl.holder = false → Runs (.uncorrectableError c e) s fun t => t.sys.mode = .frozen ∧ captured t ∧
        t.tbl.joining = false ∧ ∀ d : Fin 8, d ≠ c →
          t.mem.ch[d].st = (if s.mem.ch[d].st = .active ∨ s.mem.ch[d].st = .quiesced then .selfRefresh else s.mem.ch[d].st)) ∧
      (s.inMode .print = true → s.tbl.holder = true → s.ltm.armed = true → s.sys.stopping = false →
        Runs (.uncorrectableError c e) s fun t => s.sameBut t [.sys, .regs, .cvq, .mem] ∧ t.sys.mode = .print ∧ captured t ∧
          t.sys.freezePend = true)

/-- R207: a diagnosis read returns one raw beat of 64 data and 16 check bits, in every mode and from every channel that is on, a
frozen one included: whatever the devices return is what the data registers hold, every other register and all that waits in
the channel is as it was, and nothing is corrected or counted.  On a channel that is off it is ignored. -/
def Obligations.DiagnosisReadsAreRaw : Prop :=
  ∀ (s : State) (c : Fin 8) (ses : Fin 5) (data : BitVec 64) (check : BitVec 16), s.operates → s.reaches ses .maker 0x150028 →
    s.f F.MEM_DIAG_ADDR_HI_RANK_CH = c.val →
      (s.mem.ch[c].st ≠ .off → Runs (.diagRead ses data check) s fun t => s.sameBut t [.cfg, .regs] ∧ t.sys.mode = s.sys.mode ∧
        t.f (F.MEM_DIAG_DATA_DATA 0) = data.toNat % 2 ^ 32 ∧ t.f (F.MEM_DIAG_DATA_DATA 1) = data.toNat / 2 ^ 32 ∧
        t.f (F.MEM_DIAG_DATA_DATA 2) = check.toNat + 65536 ∧ ∀ f : Fld, (∀ i, i < 3 → f.addr ≠ 0x15002C + 4 * i) → t.f f = s.f f) ∧
      (s.mem.ch[c].st = .off → exec (.diagRead ses data check) s = .next (s.burstCut ses 0x150028))

/-- R209, R210, R211: in `IDLE/WARM` and `HALT`, with no rebuild running and no calibration snapshot staged, the channels classed
permanent leave the interleave unless none would be left: they are retired, every queue is empty, every job is aborted and none
stays bound, and the zero fill starts (shown where none of them loads a delay set).  When it ends, every bar's target table is its table in force, no block is dirty, and
the channels are marked retired.  A rebuild that runs since an earlier instant and a staged snapshot hold the retirement up. -/
def Obligations.RetirementsReachTheStore : Prop :=
  ∀ s : State, s.operates →
    (s.idleWarm = true ∨ s.inMode .halt = true → s.mem.fill = [] → s.chRetiring ≠ [] → s.snapStaged = false →
      (∀ c ∈ s.chRetiring, s.mem.ch[c].st ≠ .quiesced) → Runs .channelRetirement s fun t =>
        t.mem.fill = s.chRetiring ∧ t.mem.fillAt = s.nowNs ∧ (∀ c ∈ s.chRetiring, t.mem.ch[c].st = .retired) ∧
        (∀ c : Fin 8, c ∉ s.chRetiring → t.mem.ch[c] = { s.mem.ch[c] with q := [], drain := false }) ∧
        (∀ q : Fin 64, t.cvq[q].fill = 0) ∧ t.ing.jobs.map (·.tag) = s.ing.jobs.map (·.tag) ∧
        (∀ j ∈ t.ing.jobs, j.st = .aborted) ∧ t.sys.jobs = [] ∧ t.sys.mode = s.sys.mode) ∧
    (s.chRetiring = [] ∨ (s.idleWarm = false ∧ s.inMode .halt = false) ∨ s.snapStaged = true ∨
      (s.mem.fill ≠ [] ∧ s.mem.fillAt ≠ s.nowNs) → exec .channelRetirement s = .next s) ∧
    (s.mem.fill ≠ [] → s.chRetiring = [] → Runs .retirementFillDone s fun t => s.sameBut t [.regs, .cvq, .bars, .mem, .flt] ∧
      t.mem.fill = [] ∧ t.mem.ch = s.mem.ch ∧ (∀ c ∈ s.mem.fill, (t.board c.val).retired = true ∧ (t.board c.val).pend = false) ∧
      ∀ b : Fin 8, t.bars[b].tgt = s.bars[b].inf ∧ t.bars[b].dirty = [] ∧ t.bars[b].inf = s.bars[b].inf) ∧
    (s.mem.fill = [] → exec .retirementFillDone s = .next s)

/-! ### Cameras and the vision pipeline (R212–R230) -/

/-- R212–R216, R219, R229: what an enabled port receives forms frame groups: a header that cannot be corrected and an unknown data type
are counted; embedded data, and a line outside the frames of a group, are discarded, their checksum judged; in mode 0 a frame start
opens a group under the next frame number, in the other modes it goes to the group of its trigger or is counted as a stray; a
line joins the frame that arrives, one that fails its check is counted and noted; the end of the frame, or its timeout, closes the
frame, and with the last exposure the group.  A trigger without a frame is a MISSING group (shown with no commit waiting and no
threshold of the ports set). -/
def Obligations.FramesFormGroups : Prop :=
  ∀ (s : State) (p vc : Fin 4) (k : Fin 8), s.operates → s.portRx p = true → s.camFor p vc = some k → s.regs.pending = [] →
    s.f (F.FLT_PERM_COUNT 3) = 0xFFFF →
    let cam := s.vis.cam[k]
    let m := s.camRegs k.val
    let plus1 := fun (t : State) (f : Fld) => t.f f = min (2 ^ f.w - 1) (s.f f + 1)
    let now := s.tim.sec * 1000000000 + s.tim.ns
    (∀ i ∈ [Instr.frameStart p vc false true, .linePacket p vc 0x2B false true [], .frameEnd p vc false],
      Runs i s fun t => s.sameBut t [.regs, .flt] ∧ plus1 t (F.VIS_PORT_ERR_ECC_UNC p.val)) ∧
    (∀ (dt : Fin 64) (crcOk : Bool) (pix : List (BitVec 14)), (dt.val = 0x12 ∨ (cam.grps = [] ∧ dt.val = 0x2B + (camBits m k.val - 10) / 2) →
        (crcOk = true → exec (.linePacket p vc dt true crcOk pix) s = .next s) ∧
        (crcOk = false → Runs (.linePacket p vc dt true crcOk pix) s fun t => s.sameBut t [.regs, .flt] ∧
          plus1 t (F.VIS_PORT_ERR_CRC p.val))) ∧
      (dt.val ≠ 0x12 → dt.val < 0x2B ∨ 0x2D < dt.val → Runs (.linePacket p vc dt true crcOk pix) s fun t =>
        s.sameBut t [.regs] ∧ plus1 t (F.VIS_PORT_ERR_DT_UNK p.val))) ∧
    (cam.grps = [] →
      (camMode m k.val = 0 → Runs (.frameStart p vc true true) s fun t => s.sameBut t [.vis] ∧
        t.vis.cam[k].frame = (cam.frame + 1) % 2 ^ 32 ∧ ∃ g, t.vis.cam[k].grps = [g] ∧ g.frame = (cam.frame + 1) % 2 ^ 32 ∧
          g.idx0 = none ∧ g.handle = 0 ∧ g.starts = 1 ∧ g.arriving = true ∧ g.came = now ∧ g.cfg = m) ∧
      (camMode m k.val ≠ 0 → Runs (.frameStart p vc true true) s fun t => s.sameBut t [.regs] ∧
        plus1 t (F.VIS_CAM_CNT1_STRAY k.val))) ∧
    ∀ g : Grp, cam.grps = [g] → g.closed = false → g.dropped = false →
      (g.starts = 0 → g.arriving = false →
        (Runs (.frameStart p vc true true) s fun t => s.sameBut t [.vis] ∧ t.vis.cam[k].frame = cam.frame ∧
          ∃ h, t.vis.cam[k].grps = [h] ∧ h.frame = g.frame ∧ h.idx0 = g.idx0 ∧ h.starts = 1 ∧ h.arriving = true ∧ h.came = now) ∧
        Runs (.triggerTimeout k) s fun t => t.vis.cam[k].grps = [] ∧ plus1 t (F.VIS_CAM_CNT0_MISSING k.val)) ∧
      (g.arriving = true → ∀ (dt : Fin 64) (crcOk : Bool) (pix : List (BitVec 14)), dt.val = 0x2B + (camBits m k.val - 10) / 2 →
        camBits g.cfg k.val = camBits m k.val → pix.length = camWidth g.cfg k.val → g.lines.getLastD 0 < camLines g.cfg k.val →
        g.fill + cdiv (camWidth g.cfg k.val * camBits g.cfg k.val) 8 < 16384 →
        let y := g.lines.getLastD 0
        let g1 : Grp := { g with lines := g.lines.dropLast ++ [y + 1]
                                 fill := g.fill + cdiv (camWidth g.cfg k.val * camBits g.cfg k.val) 8
                                 rows := g.rows ++ [pix.map (fun c => c.toNat % 2 ^ camBits g.cfg k.val)] }
        (crcOk = true → Runs (.linePacket p vc dt true crcOk pix) s fun t => s.sameBut t [.vis] ∧ t.vis.cam[k].grps = [g1]) ∧
        (crcOk = false → Runs (.linePacket p vc dt true crcOk pix) s fun t => s.sameBut t [.regs, .vis, .flt] ∧
          plus1 t (F.VIS_PORT_ERR_CRC p.val) ∧ t.vis.cam[k].grps = [{ g1 with errs := g.errs ++ [(g.starts - 1, y)] }])) ∧
      (g.arriving = true → ∀ i ∈ [Instr.frameEnd p vc true, .frameTimeout k], Runs i s fun t =>
        (∀ x ∈ t.vis.cam[k].grps, x.frame = g.frame ∧ x.arriving = false ∧ x.rows = [] ∧
          (camExps g.cfg k.val ≤ g.starts → x.closed = true)) ∧
        (g.rows = [] → s.sameBut t [.vis] ∧ t.vis.cam[k].grps = [{ g with
          arriving := false, fill := 0, closed := decide (camExps g.cfg k.val ≤ g.starts) }]))

/-- R214, R217, R218, R220: a trigger pulse ends; a sensor sequence goes out whole between frames, in the order of the port's commits, and
its settings wait LAT frames from the next frame start, or one write is not acknowledged and counts; a free pipeline takes up the
group that came first, the lower camera first, and a finished group leaves its camera. -/
def Obligations.SensorsAndPipelines : Prop :=
  ∀ (s : State) (k : Fin 8), s.operates →
    let cam := s.vis.cam[k]
    (Runs (.cameraTriggerEnd k) s fun t => s.sameBut t [.pad] ∧
      t.pad = { s.pad with camTrig := t.pad.camTrig } ∧ ∀ j : Fin 8, t.pad.camTrig.getLsbD j.val = (s.pad.camTrig.getLsbD j.val && j != k)) ∧
    (s.visOn = true → s.inMode .standby = false → s.camArriving k = false → cam.pend = true →
      s.vis.sensQ[portOf k].head? = some k.val →
      (Runs (.sensorSequenceSend k true) s fun t => s.sameBut t [.vis] ∧ t.vis.i2c[portOf k] = s.sensSeq k.val ∧
        t.vis.sensQ[portOf k] = s.vis.sensQ[portOf k].drop 1 ∧
        t.vis.cam[k] = { cam with pend := false, sent := some (s.sensNow k.val cam.setId (s.f (F.VIS_SENS_CFG_LAT k.val))) }) ∧
      (s.f (F.FLT_PERM_COUNT 3) = 0xFFFF → Runs (.sensorSequenceSend k false) s fun t => s.sameBut t [.regs, .cvq, .vis, .flt] ∧
        t.vis.cam[k] = cam ∧ t.f (F.VIS_I2C_ERR_NACK (portOf k).val) =
          min (2 ^ (F.VIS_I2C_ERR_NACK (portOf k).val).w - 1) (s.f (F.VIS_I2C_ERR_NACK (portOf k).val) + 1))) ∧
    (cam.pend = false ∨ s.camArriving k = true ∨ s.vis.sensQ[portOf k].head? ≠ some k.val → ∀ ack, exec (.sensorSequenceSend k ack) s = .next s) ∧
    ∀ i : Fin 2, s.visOn = true →
      (∀ came frame, s.pipeBusy i = false → earliest (s.waiting i) = some (came, k, frame) → Runs (.pipelineGroupStart i) s fun t =>
        s.sameBut t [.regs, .cvq, .vis] ∧ (∀ g ∈ t.vis.cam[k].grps, g.frame = frame → g.busy = true ∧
          g.wait = (s.tim.sec * 1000000000 + s.tim.ns - came) / 1000) ∧ ∃ g ∈ t.vis.cam[k].grps, g.frame = frame) ∧
      (s.pipeBusy i = true ∨ s.waiting i = [] → exec (.pipelineGroupStart i) s = .next s) ∧
      ∀ g, ((List.finRange 4).foldl State.visTake s).pipeGroup i = some (k, g) → Runs (.pipelineGroupDone i) s fun t =>
        (∀ x ∈ t.vis.cam[k].grps, x.frame ≠ g.frame) ∧ t.sys = s.sys ∧ t.ltm = s.ltm ∧ t.mot = s.mot ∧ t.bars = s.bars

/-! ### Colour hold and calibration runs (R231–R244, R325) -/

/-- R64, R75, R231, R239: the unit reads the oldest statistics record of a port: one of a group under way is kept with those read before
it, if none between was lost, a stale one is counted and dropped, and a group that the loops may not use is counted.  A camera
without a usable group for the blind time in `PRINT` is blind. -/
def Obligations.RecordsReachColourHold : Prop :=
  ∀ (s : State) (p : Fin 4) (r : StatRec) (l : List Entry), s.operates → s.chlOn = true → s.vis.outQ = [] →
    s.cvq[statQ p].crest = .stats r :: l → s.cvq[statQ p].dune = [] → s.cvq[statQ p].tail = [] →
    let k : Fin 8 := ⟨r.cam % 8, Nat.mod_lt _ (by decide)⟩
    let plus1 := fun (t : State) (f : Fld) => t.f f = min (2 ^ f.w - 1) (s.f f + 1)
    let read := fun (t : State) => t.cvq[statQ p].crest = l ∧ ∀ q : Fin 64, q ≠ statQ p → t.cvq[q] = s.cvq[q]
    (r.handle = 0 → r.last = false → Runs (.statsRecord p) s fun t => s.sameBut t [.cvq, .vis, .chl] ∧ read t ∧
      t.chl.gather[k] = gathered s.chl.gather[k] r ∧ ∀ j : Fin 8, j ≠ k → t.chl.gather[j] = s.chl.gather[j]) ∧
    (r.handle ≠ 0 → s.job? r.handle = none → r.last = false → Runs (.statsRecord p) s fun t => s.sameBut t [.regs, .cvq, .vis, .chl] ∧
      read t ∧ plus1 t F.ING_STALE_CNT_COUNT ∧ t.chl.gather[k] = []) ∧
    (r.handle = 0 → r.last = true → s.chl.gather[k] = [] → groupUsed r.flags = false → s.acting = false → s.inMode .standby = false →
      Runs (.statsRecord p) s fun t => s.sameBut t [.regs, .cvq, .vis, .chl] ∧ read t ∧ plus1 t F.CHL_SKIP_CNT_COUNT ∧
        t.chl.gather[k] = []) ∧
    ∀ j : Fin 8, s.f F.CHL_BLIND_TMO_MS ≠ 0 → s.inMode .print = true → s.camOn j = true →
      (Runs (.blindTimeout j) s fun t => s.sameBut t [.regs, .cvq, .chl] ∧ t.chl.blind.getLsbD j.val = true ∧
        ∀ i : Fin 8, i ≠ j → t.chl.blind.getLsbD i.val = s.chl.blind.getLsbD i.val)

/-- R240, R241, R291, R325: a unit falls due when T has moved by more than `CHL_CAL_DT` since its last run, or by command, on a standby not
a white reference; the scheduler starts the first due unit of an idle item, two at most and none while `IDLE/COLD` waits; a run
that completes takes T, counts, and is due no more (shown of a lane's, whose equaliser point and eye are taken); of an item that
runs nothing, no end comes. -/
def Obligations.CalibrationFollowsTemperature : Prop :=
  ∀ s : State, s.operates →
    (s.chlOn = true → s.f F.CHL_CAL_DT_DT ≠ 0 → Runs .calTempCheck s fun t => s.sameBut t [.chl] ∧ t.chl = { s.chl with due := t.chl.due } ∧
      ∀ u : Nat × Nat, u ∈ t.chl.due ↔ u ∈ s.chl.due ∨
        (s.calUnit u.1 u.2 = true ∧ 16 * s.f F.CHL_CAL_DT_DT < (s.thm.temp - s.tLast u).natAbs)) ∧
    (s.f F.CHL_CAL_DT_DT = 0 → exec .calTempCheck s = .next s) ∧
    (∀ (ses : Fin 5) (items : BitVec 4), s.reaches ses .installer 0x170A04 → Runs (.chlCalCmd ses items) s fun t =>
      s.sameBut t [.cfg, .chl] ∧ ∀ u : Nat × Nat, u ∈ t.chl.due ↔ u ∈ s.chl.due ∨
        (s.calUnit u.1 u.2 = true ∧ items.getLsbD u.1 = true ∧ ¬(s.inMode .standby = true ∧ u.1 = 2))) ∧
    (∀ u l, s.chlOn = true → s.sys.coldPend = false → s.chl.running = [] → s.chl.due = u :: l → s.calUnit u.1 u.2 = true →
      s.calMay u = true → Runs .calRunStart s fun t => s.sameBut t [.enc, .chl] ∧ t.chl.running = [u] ∧ t.chl.due = s.chl.due ∧
        (u.1 ≠ 1 → t.enc = s.enc)) ∧
    (2 ≤ s.chl.running.length ∨ s.sys.coldPend = true → exec .calRunStart s = .next s) ∧
    (∀ (n : Fin 52) (point : Word) (phases : BitVec 64) (volts : BitVec 128), s.chl.running = [(0, n.val)] →
      Runs (.calRunComplete 0 (.lane point phases volts)) s fun t => s.sameBut t [.regs, .cvq, .lnk, .chl] ∧ t.chl.running = [] ∧
        (∀ u, u ∈ t.chl.due ↔ u ∈ s.chl.due ∧ u ≠ (0, n.val)) ∧ rget t.chl.tlast n.val = BitVec.ofInt 32 s.thm.temp ∧
        t.f (F.CHL_CAL_STAT_COUNT 0) = min 65535 (s.f (F.CHL_CAL_STAT_COUNT 0) + 1) ∧
        t.f (F.CHL_CAL_TIME_SEC 0) = s.tim.sec % 2 ^ 32 ∧ rget t.lnk.eq n.val = point ∧ (t.lane n).eyeW = eyeWidth phases ∧
        (t.lane n).eyeH = eyeHeight volts) ∧
    ∀ (item : Fin 4) (x : CalFound), (∀ u ∈ s.chl.running, u.1 ≠ item.val) → exec (.calRunComplete item x) s = .next s

/-! ### Motion (R245–R262) -/

/-- R246, R248, R250, R257, R262: GO starts a move in mode 1, and in mode 3 a run of the table if it passes its check, SEG_ERR if it does
not; STOP brings the axis to rest at DEC; a target is taken at rest and refused with TGT_REJ while the axis moves; an axis at
velocity 0 parks, unless its delay is 0.  GO of a moving axis or in another mode, and GO and STOP while a sequence holds the axis,
are ignored. -/
def Obligations.AxesTakeCommands : Prop :=
  ∀ (s : State) (ses : Fin 5) (a : Fin 16), s.operates →
    let x := s.mot.ax[a]
    let becomes := fun (t : State) (y : Axis) => s.sameBut t [.cfg, .regs, .mot, .tbl] ∧ t.mot.ax[a] = y ∧
      ∀ j : Fin 16, j ≠ a → t.mot.ax[j] = s.mot.ax[j]
    (s.reaches ses .installer (motCmdAddr a) →
      (x.still = true → x.seq = none →
        (s.axisMode a = 1 → Runs (.motGo ses a) s fun t => becomes t { x with
          run := .move, ramp := false, clampEvt := false, atTarget := false }) ∧
        (s.axisMode a = 3 →
          let first := s.f (F.MOT_SEG_FIRST a.val)
          let ok := s.segCheck a first (s.f (F.MOT_SEG_COUNT a.val))
          (ok = true → Runs (.motGo ses a) s fun t => becomes t { x with run := .seg first 0 x.pos 0, atTarget := false }) ∧
          (ok = false → Runs (.motGo ses a) s fun t => becomes t x ∧ t.f (F.MOT_FLAGS_SEG_ERR a.val) = 1))) ∧
      (x.still = false ∨ x.seq ≠ none ∨ (s.axisMode a ≠ 1 ∧ s.axisMode a ≠ 3) →
        exec (.motGo ses a) s = .next (s.burstCut ses (motCmdAddr a)))) ∧
    (s.reaches ses .operator (motCmdAddr a) →
      (x.seq = none → Runs (.motStop ses a) s fun t => becomes t { x with
        run := if x.vel = 0 then .none else match x.run with | .move => .stop (some x.target) | .stop g => .stop g | _ => .stop none }) ∧
      (x.seq ≠ none → exec (.motStop ses a) s = .next (s.burstCut ses (motCmdAddr a)))) ∧
    (s.reaches ses .installer (0x180018 + a.val * 0x200) → ∀ hi : BitVec 16,
      (x.still = true → Runs (.targetWrite ses a hi) s fun t => becomes t { x with
        target := sgn 48 (hi.toNat * 2 ^ 32 + s.f (F.MOT_TARGET_LO_TARGET a.val)) * posUnit }) ∧
      (x.still = false → Runs (.targetWrite ses a hi) s fun t => becomes t x ∧ t.f (F.MOT_FLAGS_TGT_REJ a.val) = 1)) ∧
    ∀ b : Fin 12, a.val = b.val →
      (s.f (F.MOT_CUR_DLY_PARK_DLY a.val) ≠ 0 → x.vel = 0 → Runs (.parkSelect b) s fun t => s.sameBut t [.mot] ∧
        becomes t { x with parked := true }) ∧
      (s.f (F.MOT_CUR_DLY_PARK_DLY a.val) = 0 ∨ x.vel ≠ 0 → exec (.parkSelect b) s = .next s)

/-- R246, R247, R253, R254, R261: a tick moves w towards its target at `MOT_WEB_ACC`, or towards 0 at the deceleration of the stop in
force, and the web axis by w; a position move inside the 48-bit range never overshoots its target; an axis that is off stands
still; positions wrap at 48 bits of steps.  Once w has been 0 for 10 ms the web is at rest, and CAP starts where a stop waits for
it (shown with no sequence running). -/
def Obligations.GeneratorMovesTheAxes : Prop :=
  ∀ s : State, s.operates → s.inMode .standby = false →
    (s.inMode .boot = false → s.sys.cold = false → (∀ i : Fin 5, s.mot.seqs[i].running = false) →
      Runs .generatorTick s fun t => s.sameBut t [.regs, .cvq, .mot] ∧
        (∀ k, s.mot.stop = some k → t.mot.w = s.mot.w - s.mot.dec ∧ t.mot.src = 3) ∧
        (s.mot.stop = none → s.inMode .print = true → s.ltm.gov = none → s.ltm.clamp = false →
          t.mot.src = 0 ∧ t.mot.w = (if s.mot.w < s.opSpeed then min s.opSpeed (s.mot.w + max 1 (s.f F.MOT_WEB_ACC_MMS2))
            else max s.opSpeed (s.mot.w - max 1 (s.f F.MOT_WEB_ACC_MMS2)))) ∧
        t.mot.ax[12].vel = s.webVel t.mot.w ∧
        (2 ^ 48 * posUnit ∣ t.mot.ax[12].pos - (s.mot.ax[12].pos + s.webVel t.mot.w)) ∧
        ∀ a : Fin 16, a.val ≠ 12 →
          let x := s.mot.ax[a]
          let y := t.mot.ax[a]
          let inRange := fun (p : Int) => -(2 ^ 47) * posUnit ≤ p ∧ p < 2 ^ 47 * posUnit
          inRange x.pos → inRange x.target →
            (x.run = .move → y.target = x.target ∧ (x.pos ≤ x.target → x.pos ≤ y.pos ∧ y.pos ≤ x.target) ∧
              (x.target ≤ x.pos → x.target ≤ y.pos ∧ y.pos ≤ x.pos) ∧ (y.run = .none → y.pos = x.target ∧ y.vel = 0 ∧ y.atTarget = true)) ∧
            (x.run = .none → s.axisMode a = 0 → y.pos = x.pos ∧ y.vel = 0 ∧ y.run = .none)) ∧
    (s.inMode .boot = true ∨ s.sys.cold = true → exec .generatorTick s = .next s) ∧
    (s.mot.w = 0 → s.sys.seqStep = .none → Runs .webAtRest s fun t => s.sameBut t [.mot] ∧
      t.mot = { s.mot with rest := true, zeroUs := 10000 }) ∧
    (s.mot.w = 0 → s.sys.seqStep = .waitCap → s.sys.flow = .stop → s.mot.liftDone = true → Runs .webAtRest s fun t =>
      s.sameBut t [.sys, .mot] ∧ t.mot.rest = true ∧ t.sys.seqStep = .cap ∧ t.mot.seqs[2].running = true ∧ t.mot.uncapDone = false) ∧
    (s.mot.w ≠ 0 → exec .webAtRest s = .next s)

/-- R256, R258: a trip after the mask time and ON_MAX without one end the on-time and begin the off-time; the eighth trip in a row at the
end of the mask time is a short, which holds the phase off, and the 64th ON_MAX in a row an open phase; both count only at a set
current of 16 steps or more.  The off-time ends in a new on-time, or in slow decay at a set current of 0; a held phase is let go.
Without driven gates, and in the other half of the cycle, the events are ignored (shown with no threshold of the axes set). -/
def Obligations.ChoppersWatchTheirPhases : Prop :=
  ∀ (s : State) (a : Fin 12) (phaseB : Bool), s.operates → s.f (F.FLT_PERM_COUNT 6) = 0xFFFF →
    let i : Fin 16 := ⟨a.val, Nat.lt_trans a.isLt (by decide)⟩
    let x := s.mot.ax[i]
    let p := x.phase phaseB
    let high := decide (16 ≤ s.threshold i phaseB)
    let becomes := fun (t : State) (q : Phase) (go : Bool) =>
      t.mot.ax[i] = (if phaseB then { x with pb := q, curGo := go } else { x with pa := q, curGo := go }) ∧
      ∀ j : Fin 16, j ≠ i → t.mot.ax[j] = s.mot.ax[j]
    (p.on = true → s.gatesOn i = true →
      (∀ atEnd, (atEnd && high) = false ∨ p.shortRun < 7 → Runs (.chopperTrip a phaseB atEnd) s fun t => s.sameBut t [.mot] ∧
        becomes t { p with on := false, off := true, since := s.nowNs, openRun := 0, shortRun := if atEnd && high then p.shortRun + 1 else 0 } x.curGo) ∧
      (high = true → 7 ≤ p.shortRun → Runs (.chopperTrip a phaseB true) s fun t => s.sameBut t [.regs, .mot, .flt] ∧
        becomes t { p with on := false, off := false, openRun := 0, shortRun := 0, heldOff := true } x.curGo ∧
        t.f (F.MOT_FLAGS_SHORT a.val) = 1) ∧
      (high = false ∨ p.openRun < 63 → Runs (.chopperOnMax a phaseB) s fun t => s.sameBut t [.mot] ∧
        becomes t { p with on := false, off := true, since := s.nowNs, shortRun := 0, openRun := if high then p.openRun + 1 else 0 } x.curGo) ∧
      (high = true → 63 ≤ p.openRun → Runs (.chopperOnMax a phaseB) s fun t => s.sameBut t [.regs, .mot, .flt] ∧
        becomes t { p with on := false, off := true, since := s.nowNs, shortRun := 0, openRun := 0 } x.curGo ∧
        t.f (F.MOT_FLAGS_OPEN a.val) = 1)) ∧
    (p.on = false ∨ s.gatesOn i = false → ∀ c ∈ [Instr.chopperTrip a phaseB true, .chopperTrip a phaseB false, .chopperOnMax a phaseB],
      exec c s = .next s) ∧
    (s.gatesOn i = true → p.off = true →
      (s.threshold i phaseB ≠ 0 → Runs (.chopperOffEnd a phaseB) s fun t => s.sameBut t [.mot] ∧
        becomes t { p with on := true, off := false, since := s.nowNs } true) ∧
      (s.threshold i phaseB = 0 → Runs (.chopperOffEnd a phaseB) s fun t => s.sameBut t [.mot] ∧
        becomes t { p with on := false, off := false } x.curGo)) ∧
    (s.gatesOn i = false ∨ p.off = false → exec (.chopperOffEnd a phaseB) s = .next s) ∧
    Runs (.shortHoldEnd a phaseB) s fun t => s.sameBut t [.mot] ∧ becomes t { p with heldOff := false } x.curGo

/-- R259, R260: in `SERVICE` a sequence whose interlock holds starts with its axes, voiding the condition that LOWER and CAP void, and one
whose interlock does not hold is refused with SEQ_REJ; outside `SERVICE`, or while it runs, the command is ignored.  It is done when
every axis has ended, LIFT and UNCAP making their conditions hold, and fails at its timeout (shown while the modes run no sequence). -/
def Obligations.SequencesHoldTheirInterlocks : Prop :=
  ∀ (s : State) (ses i : Fin 5), s.operates →
    let q := s.mot.seqs[i]
    (s.reaches ses .installer 0x182060 →
      (s.inMode .service = true → q.running = false →
        (s.seqInterlock i = true → Runs (.seqCommand ses i.val) s fun t => s.sameBut t [.cfg, .regs, .mot, .tbl] ∧
          t.mot.seqs[i] = { running := true, axes := (s.seqAxes i).map (·.val), starts := (s.seqAxes i).map (·.val) } ∧
          (∀ a ∈ s.seqAxes i, t.mot.ax[a].seq = some i) ∧ t.mot.liftDone = (s.mot.liftDone && i != 1) ∧
          t.mot.uncapDone = (s.mot.uncapDone && i != 2)) ∧
        (s.seqInterlock i = false → Runs (.seqCommand ses i.val) s fun t => s.sameBut t [.cfg, .regs, .tbl] ∧
          t.f F.MOT_SEQ_STAT_SEQ_REJ = s.f F.MOT_SEQ_STAT_SEQ_REJ ||| 2 ^ i.val)) ∧
      (s.inMode .service = false ∨ q.running = true → exec (.seqCommand ses i.val) s = .next (s.burstCut ses 0x182060)) ∧
      ∀ n, 5 ≤ n → exec (.seqCommand ses n) s = .next (s.burstCut ses 0x182060)) ∧
    (s.inMode .standby = false → s.sys.seqStep = .none →
      (q.running = true → q.axes = [] → q.starts = [] → Runs (.sequenceDone i) s fun t => s.sameBut t [.mot] ∧
        t.mot.seqs[i] = { q with running := false, done := true } ∧ t.mot.liftDone = (s.mot.liftDone || i == 0) ∧
        t.mot.uncapDone = (s.mot.uncapDone || i == 3) ∧ ∀ a : Fin 16, t.mot.ax[a].seq ≠ some i) ∧
      (q.running = true → s.f (F.MOT_SEQ_CFG_TMO i.val) ≠ 0 → s.inMode .service = false → Runs (.sequenceTimeout i) s fun t =>
        s.sameBut t [.regs, .cvq, .mot] ∧ t.mot.seqs[i] = { q with running := false, fail := true, axes := [], starts := [] } ∧
        ∀ a : Fin 16, t.mot.ax[a].seq ≠ some i)) ∧
    (s.inMode .standby = false → q.running = false → exec (.sequenceDone i) s = .next s ∧ exec (.sequenceTimeout i) s = .next s)

/-! ### Lamps (R263–R276) -/

/-- R264, R265, R267, R271, R290: a frame whose status words carry their markers is latched: the words before it become those the readback
is about, every channel names its place in its device, and its code is read from them; in `IDLE` no channel has a duty and the
chain is dark.  A frame without the markers is counted and nothing is latched (shown with no threshold of the chains set).  A
chain that is off or retired has no frames. -/
def Obligations.LampFramesLatch : Prop :=
  ∀ (s : State) (c : Fin 4) (i : LampIn), s.operates → s.inMode .standby = false → s.f (F.FLT_PERM_COUNT 5) = 0xFFFF →
    let x := s.lmp.chain[c]
    let n := s.chainChans c.val
    (s.chainRuns c = true →
      (markersOk n i.status = true → Runs (.lampFrame c i) s fun t =>
        let y := t.lmp.chain[c]
        y.before = x.latched ∧ y.latched.length = n ∧
        (∀ m, m < n → (y.latched.getD m 0).toNat / 4096 % 16 = m % 16 ∧
          y.code m = statCode (max 1 (s.f F.LMP_DIAG_CFG_DIAG_TON)) (x.before.getD m 0) (i.status.getD m 0)) ∧
        (s.inMode .idle = true → s.sameBut t [.regs, .cvq, .chl, .lmp, .tbl, .free] ∧ y.dark = true ∧
          ∀ m, m < n → (y.latched.getD m 0).toNat % 4096 = 0)) ∧
      (markersOk n i.status = false → Runs (.lampFrame c i) s fun t => t.lmp.chain[c] = x ∧
        t.f (F.LMP_CHAIN_ERR_COUNT c.val) = min (2 ^ (F.LMP_CHAIN_ERR_COUNT c.val).w - 1) (s.f (F.LMP_CHAIN_ERR_COUNT c.val) + 1))) ∧
    (s.chainRuns c = false → exec (.lampFrame c i) s = .next s)

/-! ### Twin operation (R277–R302) -/

/-- R32, R278, R283–R286, R288, R289, R297, R300–R302: the holder renews by its hold output and a LEASE block; a seat takes in the other's
renewals and deal; a seat whose lease on the other has run out takes the Trump under the next deal, in step as it stands and
otherwise only at standstill, never with `ESTOP_N` latched; after a start a seat takes it once its lanes have settled, as a twin
only from `IDLE/WARM` (or `HALT`) and unheard; a yield passes it to the seat in step, at a line boundary while lines fire, and without
such a seat is counted and ignored; a write without its confirmation does nothing; REVERT is sent when the seat has qualified, with
REVERT_AT_JOB once every print line is blank; the pads are let go at the end of the hold time. -/
def Obligations.TrumpChangesHands : Prop :=
  ∀ s : State, s.operates →
    let takes := fun (t : State) (code : Nat) (deal : BitVec 32) => t.tbl.holder = true ∧ t.tbl.deal = deal ∧ t.tbl.ownDeal = deal ∧
      t.tbl.take = code ∧ t.pad.released = false
    let refused := fun (t : State) => t.f F.TBL_REJ_CNT_COUNT = min (2 ^ F.TBL_REJ_CNT_COUNT.w - 1) (s.f F.TBL_REJ_CNT_COUNT + 1)
    (s.tbl.holder = true → s.tbl.stopped = false → Runs .trumpRenew s fun t => s.sameBut t [.tbl] ∧ t.tbl.holdOut = !s.tbl.holdOut ∧
      t.tbl.tx = s.tbl.tx ++ (if s.groupUp then
        [.lease s.pad.seatId (s.sys.mode.code + if s.sys.cold then 16 else 0) s.tbl.deal s.ltm.g.toNat] else [])) ∧
    (s.tbl.holder = false ∨ s.tbl.stopped = true → exec .trumpRenew s = .next s) ∧
    (∀ hold mode d, (Runs (.renewalReceived hold (some d) mode) s fun t => s.sameBut t [.tbl] ∧ t.tbl.renewed = true ∧
        t.tbl.otherDeal = d ∧ t.tbl.deal = (if s.tbl.holder then s.tbl.deal else d)) ∧
      Runs (.renewalReceived hold none mode) s fun t => s.sameBut t [.tbl] ∧ t.tbl.renewed = true ∧ t.tbl.otherDeal = s.tbl.otherDeal) ∧
    (s.tbl.holder = true ∨ s.pad.latched = true → Runs .leaseExpiry s fun t => s.sameBut t [.tbl] ∧ t.tbl.holder = s.tbl.holder) ∧
    (s.tbl.holder = false → s.pad.latched = false →
      (s.inMode .standby = true → s.tbl.inStep = true → Runs .leaseExpiry s fun t => takes t 1 (s.highestDeal + 1) ∧
        t.sys.mode = s.sys.shadow) ∧
      (s.inMode .idle = true → s.webStill = true → Runs .leaseExpiry s fun t => takes t 1 (s.highestDeal + 1) ∧ t.sys.mode = .idle) ∧
      (s.inMode .idle = true → s.webStill = false → Runs .leaseExpiry s fun t => s.sameBut t [.tbl] ∧ t.tbl.holder = false) ∧
      (s.fb F.TBL_CFG_TWIN = true → s.idleWarm = true → s.lanesSettled = true → s.tbl.renewed = false → Runs .startupTrumpTake s fun t =>
        takes t 5 (s.highestDeal + 1)) ∧
      (s.fb F.TBL_CFG_TWIN = false → s.inMode .idle = true ∨ s.inMode .halt = true → s.lanesSettled = true →
        Runs .startupTrumpTake s fun t => takes t 5 (s.highestDeal + 1)) ∧
      (s.lanesSettled = false ∨ (s.fb F.TBL_CFG_TWIN = true ∧ s.tbl.renewed = true) → exec .startupTrumpTake s = .next s)) ∧
    (s.tbl.holder = true ∨ s.pad.latched = true → exec .startupTrumpTake s = .next s) ∧
    (∀ d g, (s.inMode .standby = true → s.tbl.inStep = true → s.pad.latched = false → Runs (.yield_ d g) s fun t =>
        t.tbl.holder = true ∧ t.tbl.deal = d + 1 ∧ t.sys.mode = s.sys.shadow ∧ (s.tbl.revertSent = true → t.tbl.take = 3) ∧
        (s.sys.shadow = .print → t.tbl.inStep = true)) ∧
      (s.inMode .standby = false ∨ s.tbl.inStep = false ∨ s.pad.latched = true → exec (.yield_ d g) s = .next s)) ∧
    (∀ ses, s.reaches ses .installer 0x1A0020 → s.tbl.holder = true →
      (s.otherInStep = true → s.sys.stopping = false → s.ltm.armed = false →
        (Runs (.handover ses 0xA5) s fun t => t.tbl.holder = false ∧ t.tbl.testing = false ∧ t.sys.mode = .standby ∧
          t.sys.shadow = s.sys.mode ∧ TBlock.yield s.tbl.deal s.ltm.g.toNat ∈ t.tbl.tx) ∧
        Runs (.testTakeover ses 0xA5) s fun t => t.tbl.holder = false ∧ t.tbl.testing = true ∧ t.sys.mode = .standby) ∧
      (s.otherInStep = true → s.ltm.armed = true →
        (Runs (.handover ses 0xA5) s fun t => s.sameBut t [.cfg, .tbl] ∧ t.tbl.yieldFor = some 2) ∧
        Runs (.testTakeover ses 0xA5) s fun t => s.sameBut t [.cfg, .tbl] ∧ t.tbl.yieldFor = some 4) ∧
      (s.otherInStep = false → ∀ i ∈ [Instr.handover ses 0xA5, .testTakeover ses 0xA5], Runs i s fun t =>
        s.sameBut t [.cfg, .regs] ∧ refused t) ∧
      ∀ c, c ≠ 0xA5 → exec (.handover ses c) s = .next (s.burstCut ses 0x1A0020) ∧
        exec (.testTakeover ses c) s = .next (s.burstCut ses 0x1A0020)) ∧
    (∀ d, (s.tbl.holder = true → s.otherInStep = true → s.ltm.armed = true →
        (Runs (.revert d) s fun t => s.sameBut t [.tbl] ∧ t.tbl.yieldFor = some 3) ∧
        (s.tbl.take = 2 ∨ s.tbl.take = 4 → Runs .testHoldExpiry s fun t => s.sameBut t [.tbl] ∧ t.tbl.yieldFor = some 2)) ∧
      (s.tbl.holder = true → s.otherInStep = false → Runs (.revert d) s fun t => s.sameBut t [.regs] ∧ refused t) ∧
      (s.tbl.holder = false → exec (.revert d) s = .next s ∧ exec .testHoldExpiry s = .next s)) ∧
    (s.firstSeat = true → s.inMode .standby = true → s.tbl.inStep = true → s.f F.TBL_QUAL_S ≠ 0 → s.fb F.TBL_CFG_REVERT_AT_JOB = false →
      Runs .revertQualified s fun t => s.sameBut t [.tbl] ∧ t.tbl.revertSent = true ∧ t.tbl.tx = s.tbl.tx ++ [.revert s.tbl.deal]) ∧
    (s.firstSeat = true → s.inMode .standby = true → s.tbl.inStep = true → s.f F.TBL_QUAL_S ≠ 0 → s.fb F.TBL_CFG_REVERT_AT_JOB = true →
      s.sys.shadow = .print → s.allBlank = false → Runs .revertQualified s fun t => s.sameBut t [.tbl] ∧
        t.tbl = { s.tbl with revertDue := true }) ∧
    (s.firstSeat = false ∨ s.inMode .standby = false ∨ s.tbl.inStep = false ∨ s.f F.TBL_QUAL_S = 0 →
      exec .revertQualified s = .next s) ∧
    (s.pad.held = true → Runs .padHoldExpiry s fun t => s.sameBut t [.pad] ∧ t.pad = { s.pad with held := false, released := true }) ∧
    (s.pad.held = false → exec .padHoldExpiry s = .next s)

/-- R282, R290, R293, R295, R299, R302: a record in order is accepted and applied at its point (shown of an input's level, at its grid
line); a broken one and a gap are asked for again; one received before is passed over.  The sender keeps what is not acknowledged and
repeats it on request, the receiver acknowledges; a seat that leaves step is in `IDLE/WARM`, and the holder prints on without it, a
commanded yield that waited being dropped.  When the copy of a join ends the checkpoint leaves, while lines fire at the next line
boundary; it makes the joining seat a standby.  After `BOOT` a seat that may joins by itself, once. -/
def Obligations.StreamKeepsTheStandby : Prop :=
  ∀ s : State, s.operates →
    (∀ (r : FwdRec) (crcOk : Bool),
      (s.inMode .standby = true → s.tbl.later = [] → s.tbl.evts = [] →
        (∀ (pin : Fin 32) (level : Bool) (g : Nat), r.item = .gpio pin.val level g → crcOk = true → r.fseq = s.tbl.rxSeq →
          (lineBefore s.ltm.g.toNat g = false → Runs (.forwardRecord r crcOk) s fun t => s.sameBut t [.tbl, .pad] ∧ t.tbl.rxSeq = s.tbl.rxSeq + 1 ∧
            t.tbl.later = [] ∧ ∀ j : Fin 32, t.pad.gpio.getLsbD j.val = if j = pin then level else s.pad.gpio.getLsbD j.val) ∧
          (lineBefore s.ltm.g.toNat g = true → Runs (.forwardRecord r crcOk) s fun t => s.sameBut t [.tbl] ∧ t.tbl.rxSeq = s.tbl.rxSeq + 1 ∧
            t.tbl.later = [r.item])) ∧
        (crcOk = false ∨ newer r.fseq s.tbl.rxSeq = true → s.f (F.FLT_PERM_COUNT 2) = 0xFFFF → Runs (.forwardRecord r crcOk) s fun t =>
          s.sameBut t [.regs, .tbl, .flt, .free] ∧ t.tbl.rxSeq = s.tbl.rxSeq ∧ t.tbl.tx = s.tbl.tx ++ [.replay s.tbl.rxSeq]) ∧
        (crcOk = true → r.fseq ≠ s.tbl.rxSeq → newer r.fseq s.tbl.rxSeq = false → exec (.forwardRecord r crcOk) s = .next s)) ∧
      (s.inMode .standby = false → exec (.forwardRecord r crcOk) s = .next s)) ∧
    (∀ n : BitVec 32,
      (s.tbl.holder = true → (Runs (.ack n) s fun t => s.sameBut t [.tbl] ∧ t.tbl.replay = s.tbl.replay.filter (fun x => !newer n x.fseq)) ∧
        Runs (.replay n) s fun t => s.sameBut t [.tbl] ∧ t.tbl.replay = s.tbl.replay ∧
          t.tbl.tx = s.tbl.tx ++ (s.tbl.replay.filter (fun x => !newer n x.fseq)).map .fwd) ∧
      (s.tbl.holder = false → exec (.ack n) s = .next s ∧ exec (.replay n) s = .next s)) ∧
    (s.groupUp = true → s.inMode .standby = true ∨ s.tbl.joining = true → Runs .ackSend s fun t => s.sameBut t [.tbl] ∧
      t.tbl.tx = s.tbl.tx ++ [.ack s.tbl.rxSeq]) ∧
    (s.tbl.holder = true →
      (∀ cause, Runs (.left cause) s fun t => s.sameBut t [.regs, .cvq, .tbl] ∧ t.tbl.inStep = false ∧ t.tbl.joining = false ∧
        t.tbl.left = cause % 16 ∧ t.tbl.replay = [] ∧ (∀ c, s.tbl.yieldFor = some c → 2 ≤ c → t.tbl.yieldFor = none)) ∧
      (s.tbl.inStep = true ∨ s.tbl.joining = true → Runs .standbySilence s fun t => s.sameBut t [.regs, .cvq, .tbl] ∧
        t.tbl.inStep = false ∧ t.tbl.joining = false ∧ t.tbl.replay = []) ∧
      (s.tbl.inStep = false → s.groupUp = true → Runs (.resyncCopyDone none) s fun t => s.sameBut t [.tbl] ∧ t.tbl.joining = true ∧
        (s.ltm.armed = false → t.tbl.cpDue = false ∧ t.tbl.tx = s.tbl.tx ++ [.checkpoint (s.lineOf 0) s.checkpointNow]) ∧
        (s.ltm.armed = true → t.tbl.cpDue = true ∧ t.tbl.tx = s.tbl.tx)) ∧
      (s.tbl.inStep = true ∨ s.groupUp = false → exec (.resyncCopyDone none) s = .next s)) ∧
    (∀ cause, (s.inMode .standby = true → Runs (.suspect cause) s fun t => t.sys.mode = .idle ∧ t.sys.cold = false ∧
        t.tbl.inStep = false ∧ t.tbl.left = cause % 16 ∧
        t.f F.TBL_DIV_CNT_COUNT = min (2 ^ F.TBL_DIV_CNT_COUNT.w - 1) (s.f F.TBL_DIV_CNT_COUNT + 1)) ∧
      (s.inMode .standby = false → exec (.suspect cause) s = .next s)) ∧
    (∀ c : Checkpoint, s.tbl.joining = true → s.tbl.holder = false → s.idleWarm = true → s.groupUp = true → c.cold = false →
      Runs (.resyncCopyDone (some c)) s fun t => t.sys.mode = .standby ∧ t.sys.shadow = c.mode ∧ t.sys.jobs = c.bound ∧
        t.sys.stops = c.stops ∧ t.sys.flow = c.flow ∧ t.ing.jobs = c.jobs ∧ t.ing.gens = c.gens ∧ t.mot = c.mot ∧ t.ltm.g = c.ltm.g ∧ t.ltm.h = c.ltm.h ∧ t.bars = c.bars ∧ t.tbl.rxSeq = c.fseq ∧
        t.vis.cam.map (·.frame) = c.frames ∧ t.cfg.sess = s.cfg.sess) ∧
    (s.fb F.TBL_CFG_AUTO_JOIN = true → s.joinOk = true → s.inMode .idle = true → s.tbl.joining = false → s.tbl.left = 0 →
      s.tbl.idleS = none → s.sys.req = none → s.sys.stopping = false → Runs .autoJoin s fun t => t.sys.mode = .idle ∧ t.tbl.joining = true) ∧
    (s.fb F.TBL_CFG_AUTO_JOIN = false ∨ s.tbl.joining = true ∨ s.tbl.left ≠ 0 → exec .autoJoin s = .next s)

/-- R281, R282, R292, R293, R296: a standby moves to the grid line of the holder's line event once every record sent before it is in; one
that comes again does nothing, and a line event that is missing takes it out of step.  Digests of one lane and line are compared:
equal ones are done with, and on others the seat that finds them sends SUSPECT, and a standby leaves step.  FILL, TIME and their
answers, and without a lane in the group none of them. -/
def Obligations.StandbyFollowsTheGrid : Prop :=
  ∀ s : State, s.operates →
    (∀ (g : BitVec 48) (f : Nat) (void : Bool) (deal fseq : BitVec 32),
      (s.inMode .standby = true → s.tbl.later = [] → s.tbl.evts = [] →
        (newer fseq s.tbl.rxSeq = true → Runs (.lineEvent g f void deal fseq) s fun t => s.sameBut t [.tbl] ∧ t.tbl.deal = deal ∧
          t.tbl.evts = [{ g := g.toNat, f := f % 2 ^ 32, void := void, deal := deal, fseq := fseq }]) ∧
        (newer fseq s.tbl.rxSeq = false →
          (g.toNat = pl (s.ltm.g.toNat + 1) → Runs (.lineEvent g f void deal fseq) s fun t => t.ltm.g = g) ∧
          (lineBefore (pl (s.ltm.g.toNat + 1)) g.toNat = true → Runs (.lineEvent g f void deal fseq) s fun t => t.ltm.g = s.ltm.g ∧ t.sys.mode = .idle ∧
            t.tbl.inStep = false ∧ t.tbl.left = 3) ∧
          (lineBefore g.toNat (pl (s.ltm.g.toNat + 1)) = true → Runs (.lineEvent g f void deal fseq) s fun t => s.sameBut t [.tbl] ∧ t.tbl.evts = []))) ∧
      (s.inMode .standby = false → exec (.lineEvent g f void deal fseq) s = .next s)) ∧
    (∀ (lane : Fin 40) (line v w : Nat), s.laneHasHeads lane.val = true → s.tbl.joining = false →
      s.tbl.digs = [{ lane := lane.val, line := line, own := true, val := some v, sent := true }] →
      (s.tbl.inStep = true →
        (Runs (.digest lane.val line [some v]) s fun t => s.sameBut t [.tbl] ∧ t.tbl = { s.tbl with digs := [] }) ∧
        (w ≠ v → s.inMode .standby = false → Runs (.digest lane.val line [some w]) s fun t => s.sameBut t [.tbl] ∧
          t.tbl = { s.tbl with digs := [], tx := s.tbl.tx ++ [.suspect 1] }) ∧
        (w ≠ v → s.inMode .standby = true → Runs (.digest lane.val line [some w]) s fun t => t.sys.mode = .idle ∧ t.tbl.inStep = false ∧
          t.tbl.left = 1)) ∧
      (s.tbl.inStep = false → exec (.digest lane.val line [some w]) s = .next s)) ∧
    (∀ n latched, (s.tbl.holder = true → Runs (.fill n latched) s fun t => s.sameBut t [.tbl] ∧
        t.tbl = { s.tbl with otherFill := some n, otherLatched := latched }) ∧
      (s.tbl.holder = false → exec (.fill n latched) s = .next s)) ∧
    (s.inMode .standby = true → s.groupUp = true → Runs .fillSend s fun t => s.sameBut t [.tbl] ∧
      t.tbl.tx = s.tbl.tx ++ [.fill (match s.lowFill with | some x => x.1 | none => 0xFFFFFFFF) s.pad.latched]) ∧
    (s.groupUp = true → ∀ lat ofs, Runs (.timeExchange lat ofs) s fun t => s.sameBut t [.tbl] ∧
      t.tbl = { s.tbl with lat := lat.toNat, linkOfs := ofs, tx := s.tbl.tx ++ [.time] }) ∧
    (s.groupUp = false → exec .fillSend s = .next s ∧ exec .ackSend s = .next s ∧ ∀ lat ofs, exec (.timeExchange lat ofs) s = .next s)

/-! ### Temperature, scoreboards, telemetry (R303–R327) -/

/-- R303–R312, R319, R321, R327: a reading of the diode enters T, raises the band and the throttle step at once and lowers the band once T
is 2 °C below it, and a faulty diode brings the immediate stop; the rate of rise spans 4 s, and one above its limit brings a thermal
orderly stop unless the stop would end too hot; the step falls one at a time.  A bucket boundary drops the oldest bucket of a kind,
in `IDLE/COLD` of the Table lanes alone, and a telemetry interval reports the upsets and clears their count (shown of item 7). -/
def Obligations.MonitorsWatchTheSeat : Prop :=
  ∀ s : State, s.operates →
    (∀ a : Int, s.thm.sensorBad = false → -1024 ≤ a - s.cfg.cal.diodeOfs → a - s.cfg.cal.diodeOfs ≤ 3200 →
      Runs (.diodeReading (some a)) s fun t => t.thm.raw = some (a - s.cfg.cal.diodeOfs) ∧
        t.thm.raws = ((a - s.cfg.cal.diodeOfs) :: s.thm.raws).take 16 ∧ t.thm.sensorBad = false ∧
        (s.thm.raws ≠ [] → (s.thm.band < bandOf t.thm.temp → t.thm.band = bandOf t.thm.temp) ∧
          (bandOf t.thm.temp ≤ s.thm.band → s.thm.band = 0 ∨ bandLow s.thm.band - 32 < t.thm.temp → t.thm.band = s.thm.band) ∧
          (0 < s.thm.band → t.thm.temp ≤ bandLow s.thm.band - 32 → t.thm.band = max (bandOf t.thm.temp) (s.thm.band - 1))) ∧
        (s.thm.sAbs < s.stepOf t.thm.temp → t.thm.sAbs = s.stepOf t.thm.temp ∧
          t.thm.step = max s.thm.step (min 4 (s.stepOf t.thm.temp + if s.thm.sRate then 1 else 0)))) ∧
    (s.inMode .print = true ∨ s.inMode .ready = true ∨ s.inMode .idle = true → s.thm.stop ≠ 2 → Runs (.diodeReading none) s fun t =>
      t.thm.sensorBad = true ∧ t.thm.temp = 2528 ∧ t.thm.stop = 2 ∧ t.thm.gated = true ∧ t.sys.stopping = true ∧ t.ltm.armed = false) ∧
    (let rho := rhoOf ((s.thm.temp :: s.thm.hist).take 41)
     (Runs .riseHistorySample s fun t => t.thm.hist = (s.thm.temp :: s.thm.hist).take 41 ∧ t.thm.rho = rho) ∧
     (s.inMode .print = true → s.ltm.armed = true → s.sys.stops = [] → s.thm.due = false → s.thm.stop = 0 → s.riseStop ≤ rho →
       s.thm.temp * 400 + rho * s.stopTime < 992000 → Runs .riseHistorySample s fun t => t.thm.stop = 1 ∧ t.sys.mode = .print ∧
         t.sys.endFiring = true ∧ t.sys.stops = [{ kind := .orderly, cause := 4 }])) ∧
    (s.thm.sum < s.thm.step → Runs .throttleStepDown s fun t => s.sameBut t [.regs, .cvq, .thm] ∧
      t.thm = { s.thm with step := s.thm.step - 1 }) ∧
    (s.thm.step ≤ s.thm.sum → exec .throttleStepDown s = .next s) ∧
    (∀ k : Fin 7, (s.sys.cold = false ∨ k.val = 2 → Runs (.scoreboardBucket k) s fun t => s.sameBut t [.flt] ∧
        ∀ j : Fin 84, t.board j.val = if kindOf j.val = k.val then { s.board j.val with buckets := 0 :: (s.board j.val).buckets.take 15 }
          else s.board j.val) ∧
      (s.sys.cold = true → k.val ≠ 2 → exec (.scoreboardBucket k) s = .next s)) ∧
    (s.f F.FLT_TEL_CFG_IVL ≠ 0 → s.f F.FLT_TEL_CFG_MASK = 0x80 → s.inMode .boot = false → s.inMode .frozen = false → s.sys.cold = false →
      s.cvq[(63 : Fin 64)].all = [] → s.cvq[(63 : Fin 64)].lost = 0 → Runs .telemetryInterval s fun t =>
        s.sameBut t [.regs, .cvq, .flt] ∧ t.flt = { s.flt with telUpsets := 0 } ∧
        t.cvq[(63 : Fin 64)].all = [.evt (s.evtRec 0x117 15 (min 0xFFFF s.flt.telUpsets))] ∧
        ∀ q : Fin 64, q ≠ 63 → t.cvq[q] = s.cvq[q]) ∧
    (s.f F.FLT_TEL_CFG_IVL = 0 ∨ s.inMode .boot = true ∨ s.inMode .frozen = true ∨ s.sys.cold = true →
      exec .telemetryInterval s = .next s)

/-! ### Time (R328–R334) -/

/-- R30, R329–R334: the best announced master of the domain is followed, and on its silence the next one; its messages are timestamped; a
first offset steps device time, one beyond TIM_STEP_MAX is refused in LOCKED, one within it slews at no more than SLEW_MAX (by how
much is a free value); an installer accepts a refused jump, an operator clears MASTER_CHG; HOLDOVER after the master's
silence.  A pulse goes high at its due instant, wakes a seat in `IDLE/COLD` and ends after its width, where a schedule committed
meanwhile takes over. -/
def Obligations.TimeFollowsItsMaster : Prop :=
  ∀ (s : State) (d : Nat) (m : BitVec 64), s.operates →
    let plus1 := fun (t : State) (f : Fld) => t.f f = min (2 ^ f.w - 1) (s.f f + 1)
    (s.ptpOn d = true → ∀ rank,
      (s.tim.masters = [] → s.tim.master = none → Runs (.ptpAnnounce d m rank) s fun t => s.sameBut t [.tim] ∧
        t.tim = { s.tim with masters := [(m.toNat, rank)], master := some m.toNat }) ∧
      (∀ n r, s.tim.masters = [(n, r)] → s.tim.master = some n → n ≠ m.toNat →
        (rank < r → Runs (.ptpAnnounce d m rank) s fun t => s.sameBut t [.regs, .cvq, .tim] ∧ t.tim.master = some m.toNat ∧
          t.tim.masterChg = true ∧ t.tim.sync = none) ∧
        (r ≤ rank → Runs (.ptpAnnounce d m rank) s fun t => s.sameBut t [.tim] ∧ t.tim.master = some n ∧ t.tim.masterChg = s.tim.masterChg))) ∧
    (s.ptpOn d = true → s.selected m.toNat = true →
      (∀ t1, Runs (.ptpSync d m t1) s fun t => s.sameBut t [.tim] ∧ t.tim = { s.tim with sync := some (t1, (s.tim.total : Int)) }) ∧
      ∀ t1 t2 t3 t4 : Int, s.tim.sync = some (t1, t2) → s.tim.reqSent = some t3 →
        let ofs := Int.tdiv ((t1 - t2) + (t4 - t3)) 2
        let lim := s.f F.TIM_STEP_MAX_VALUE * 1000
        (s.tim.st = 0 → 0 ≤ (s.tim.total : Int) + ofs → (s.tim.total : Int) + ofs < 2 ^ 48 * 1000000000 →
          Runs (.ptpDelayResp d m t4) s fun t => s.sameBut t [.regs, .cvq, .tim] ∧ t.tim.st = 1 ∧
            (t.tim.total : Int) = s.tim.total + ofs ∧ plus1 t F.TIM_STEP_CNT_COUNT) ∧
        (s.tim.st = 1 → s.tim.accept = false → lim < ofs.natAbs ∨ lim = 0 → Runs (.ptpDelayResp d m t4) s fun t =>
          s.sameBut t [.regs, .cvq, .tim] ∧ t.tim.st = 2 ∧ t.tim.jumpPend = true ∧ t.tim.total = s.tim.total ∧ t.tim.rate = s.tim.rate ∧
            plus1 t F.TIM_REFUSE_CNT_COUNT) ∧
        (s.tim.st = 1 → s.tim.accept = false → ofs.natAbs ≤ lim → lim ≠ 0 → Runs (.ptpDelayResp d m t4) s fun t =>
          s.sameBut t [.tim, .free] ∧ t.tim.st = 1 ∧ t.tim.total = s.tim.total ∧
            t.tim.rate.natAbs ≤ clampN 1 1000 (s.f F.TIM_SLEW_MAX_VALUE) * 1000)) ∧
    (∀ t1, s.ptpOn d = false ∨ s.selected m.toNat = false → exec (.ptpSync d m t1) s = .next s ∧
      exec (.ptpDelayResp d m t1) s = .next s) ∧
    (s.ptpOn d = false → ∀ rank, exec (.ptpAnnounce d m rank) s = .next s) ∧
    (s.fb F.TIM_CFG_EN = true → s.tim.sync ≠ none → Runs .ptpDelayReqSend s fun t => s.sameBut t [.tim] ∧
      t.tim = { s.tim with reqSent := some (s.tim.total : Int) }) ∧
    (Runs .announceTimeout s fun t => s.sameBut t [.regs, .cvq, .tim] ∧ t.tim.masters = s.tim.masters.drop 1 ∧
      t.tim.sync = none ∧ (∀ n r l, s.tim.masters.drop 1 = (n, r) :: l → t.tim.master = some n) ∧
      (s.tim.masters.drop 1 = [] → t.tim.master = s.tim.master) ∧ t.tim.st = if s.tim.st = 1 ∨ s.tim.st = 2 then 3 else s.tim.st) ∧
    (∀ ses, s.reaches ses .operator 0x1D000C →
      (s.may ses .installer = true → s.tim.st = 2 → Runs (.timeAccept ses 0xA5) s fun t => s.sameBut t [.cfg, .regs, .tbl, .tim] ∧
        t.tim = { s.tim with st := 1, accept := true, jumpPend := false, good := 0 }) ∧
      (s.may ses .installer = false ∨ s.tim.st ≠ 2 →
        exec (.timeAccept ses 0xA5) s = .next (s.burstCut ses 0x1D000C)) ∧
      (Runs (.clrChg ses 0xA5) s fun t => s.sameBut t [.cfg, .regs, .tbl, .tim] ∧ t.tim.masterChg = false ∧ t.tim.st = s.tim.st ∧
        ∀ k : Fin 4, t.tim.gens[k] = { s.tim.gens[k] with missed := false }) ∧
      ∀ c, c ≠ 0xA5 → exec (.timeAccept ses c) s = .next (s.burstCut ses 0x1D000C) ∧
        exec (.clrChg ses c) s = .next (s.burstCut ses 0x1D000C)) ∧
    (Runs .timeMark s fun t => s.sameBut t [.regs, .cvq, .tbl] ∧ t.tbl.qual = s.tbl.qual.map (fun n => min 0xFFFF (n + 1)) ∧
      t.tbl.idleS = if s.tbl.holder then some 0 else s.tbl.idleS.map (fun n => min 0xFFFFFFFE (n + 1))) ∧
    ∀ k : Fin 4, let g := s.tim.gens[k]
      (∀ n, g.due = some n → Runs (.timePulseDue k) s fun t => s.sameBut t [.tim] ∧ t.tim.gens[k] = { g with
        due := if s.pulsePeriod k = 0 then none else some (n + s.pulsePeriod k), issued := some n, ends := n + s.pulseWidth k
        high := !s.inMode .boot && !s.inMode .frozen }) ∧
      (g.due = none → exec (.timePulseDue k) s = .next s ∧ exec (.timePulseWake k) s = .next s) ∧
      (g.again = false → Runs (.timePulseEnd k) s fun t => s.sameBut t [.tim] ∧ t.tim.gens[k] = { g with high := false }) ∧
      (g.again = true → Runs (.timePulseEnd k) s fun t => s.sameBut t [.tim] ∧ t.tim.gens[k].high = false ∧ t.tim.gens[k].again = false ∧
        t.tim.gens[k].issued = none ∧ t.tim.gens[k].due = (if s.pulseWidth k = 0 then none else s.pulseNext k s.tim.total)) ∧
      (g.due ≠ none → s.inMode .idle = true → s.sys.cold = true → Runs (.timePulseWake k) s fun t => s.sameBut t [.sys] ∧
        t.sys = { s.sys with waking := true })

/-! ### Pins (R339, R348) -/

/-- R24, R26, R261, R266, R290, R296, R339, R348: a low of `ESTOP_N` of 200 ns latches, and in `PRINT` brings the emergency ramp, ends firing
at once and darkens the lamps; in `BOOT`, `FROZEN` and `STANDBY` it only latches; a pulse below 50 ns does nothing.  Request pins of
the holder act as mode requests (shown of a start in `READY` and a stop in `PRINT`), those of another seat only show their level;
a standby takes a general-purpose input from the holder alone, and the holder forwards it to the seat in step. -/
def Obligations.PinsReachTheSeat : Prop :=
  ∀ s : State, s.operates →
    (∀ ns, (ns < 50 ∨ s.pad.estop = false → exec (.estop ns) s = .next s) ∧
      (200 ≤ ns → s.pad.estop = true →
        let low := fun (t : State) => t.pad.estop = false ∧ t.pad.latched = true ∧
          t.f F.PAD_ESTOP_COUNT = min (2 ^ F.PAD_ESTOP_COUNT.w - 1) (s.f F.PAD_ESTOP_COUNT + 1)
        (s.inMode .print = true → s.mot.stop = none → Runs (.estop ns) s fun t => low t ∧ t.sys.mode = .print ∧ t.sys.stopping = true ∧
          t.sys.stops = s.sys.stops ++ [{ kind := .emergency, cause := 6 }] ∧ t.ltm.armed = false ∧ t.mot.stop = some .emergency ∧
          t.lmp.stopped = true ∧ ∀ c : Fin 4, t.lmp.chain[c].dark = true) ∧
        (s.inMode .boot = true ∨ s.inMode .standby = true ∨ s.inMode .frozen = true → Runs (.estop ns) s fun t =>
          s.sameBut t [.regs, .pad] ∧ low t))) ∧
    (s.inMode .standby = false → s.sys.seqStep = .none → Runs .estopRelease s fun t => s.sameBut t [.pad] ∧
      t.pad = { s.pad with estop := true }) ∧
    (∀ pin : Fin 32,
      let high := fun (t : State) => ∀ j : Fin 32, t.pad.gpio.getLsbD j.val = (s.pad.gpio.getLsbD j.val || j == pin)
      (s.pinActs pin 3 = true → s.tbl.holder = true → s.inMode .ready = true → s.sys.flow = .none → s.sys.req = none →
        s.sys.stopping = false → Runs (.runReq pin) s fun t => t.sys.mode = .print ∧ t.ltm.armed = true ∧ high t) ∧
      (s.pinActs pin 4 = true → s.tbl.holder = true → s.inMode .print = true → s.sys.req = none → s.sys.stopping = false →
        Runs (.stopReq pin) s fun t => s.sameBut t [.sys, .pad] ∧ t.sys.mode = .print ∧ t.sys.req = some { code := 6 } ∧ high t) ∧
      (s.pinActs pin 3 = false ∨ s.tbl.holder = false → Runs (.runReq pin) s fun t => s.sameBut t [.pad] ∧ high t) ∧
      (s.pinActs pin 4 = false ∨ s.tbl.holder = false → Runs (.stopReq pin) s fun t => s.sameBut t [.pad] ∧ high t)) ∧
    ∀ (pin : Fin 32) (level : Bool),
      let at_ := fun (t : State) => ∀ j : Fin 32, t.pad.gpio.getLsbD j.val = if j = pin then level else s.pad.gpio.getLsbD j.val
      (s.pinFunc pin.val ≠ 1 → Runs (.gpIn pin level) s fun t => s.sameBut t [.pad] ∧ at_ t) ∧
      (s.pinFunc pin.val = 1 → s.inMode .standby = true → exec (.gpIn pin level) s = .next s) ∧
      (s.pinFunc pin.val = 1 → s.inMode .standby = false → s.tbl.holder = true → s.tbl.inStep = true → s.tbl.replayBytes + 28 ≤ replayCap →
        Runs (.gpIn pin level) s fun t => s.sameBut t [.regs, .tbl, .pad] ∧ at_ t ∧
          t.tbl.tx = s.tbl.tx ++ [.fwd { fseq := s.tbl.txSeq, item := .gpio pin.val level s.ltm.g.toNat }])
end

