-- ==== Sys2Proof/Laws/Keeps.lean ====
section
/-! SUPPORT. What every operation of the model keeps: the queue of waiting commands as it is, the register maps in canonical
form, and every part of the seat outside a mask.  This file holds the relation and the canonical form of sparse maps; the files
beside it show it of each operation, with the operation's own mask. -/

set_option Elab.async false
namespace Sys2Proof.Machine

/-! ### Sparse maps -/

theorem risesFrom_mono {b c : Nat} (h : c ≤ b) : ∀ {m : RegMap}, RisesFrom b m = true → RisesFrom c m = true
  | [], _ => rfl
  | (k, v) :: t, e => by
    simp only [RisesFrom, Bool.and_eq_true, decide_eq_true_eq] at e ⊢
    exact ⟨⟨by omega, e.1.2⟩, e.2⟩

theorem risesFrom_filter (p : Nat → Bool) : ∀ {m : RegMap} {b : Nat}, RisesFrom b m = true → RisesFrom b (rfilter p m) = true
  | [], _, _ => rfl
  | (k, v) :: t, b, e => by
    simp only [RisesFrom, Bool.and_eq_true, decide_eq_true_eq] at e
    have ih := risesFrom_filter p e.2
    simp only [rfilter, List.filter_cons] at ih ⊢
    split
    · simp only [RisesFrom, Bool.and_eq_true, decide_eq_true_eq]; exact ⟨⟨e.1.1, e.1.2⟩, ih⟩
    · exact risesFrom_mono (by omega) ih

/-- Dropping entries keeps the canonical form. -/
theorem rfilter_wf {m : RegMap} (h : RegMap.wf m = true) (p : Nat → Bool) : RegMap.wf (rfilter p m) = true :=
  risesFrom_filter p h

theorem risesFrom_rput {a : Nat} {v : Word} (hv : v ≠ 0) : ∀ {m : RegMap} {b : Nat}, b ≤ a → RisesFrom b m = true →
    RisesFrom b (rput m a v) = true
  | [], b, hb, _ => by
    simp only [rput, RisesFrom, Bool.and_eq_true, decide_eq_true_eq, and_true]; exact ⟨hb, hv⟩
  | (k, w) :: t, b, hb, e => by
    simp only [RisesFrom, Bool.and_eq_true, decide_eq_true_eq] at e
    simp only [rput]
    split
    · simp only [RisesFrom, Bool.and_eq_true, decide_eq_true_eq]
      exact ⟨⟨hb, hv⟩, ⟨by omega, e.1.2⟩, e.2⟩
    · split
      · rename_i h1 h2
        simp only [RisesFrom, Bool.and_eq_true, decide_eq_true_eq]
        exact ⟨⟨hb, hv⟩, by rw [h2]; exact e.2⟩
      · simp only [RisesFrom, Bool.and_eq_true, decide_eq_true_eq]
        exact ⟨⟨e.1.1, e.1.2⟩, risesFrom_rput hv (by omega) e.2⟩

/-- Setting an entry keeps the canonical form. -/
theorem rset_wf {m : RegMap} (h : RegMap.wf m = true) (a : Nat) (v : Word) : RegMap.wf (rset m a v) = true := by
  unfold rset
  split
  · exact rfilter_wf h _
  · exact risesFrom_rput (by assumption) (Nat.zero_le a) h

/-- Writing entries one after the other keeps the canonical form. -/
theorem foldl_rset_wf {α : Type} (k : α → Nat) (v : α → Word) : ∀ (l : List α) {m : RegMap}, RegMap.wf m = true →
    RegMap.wf (l.foldl (fun m e => rset m (k e) (v e)) m) = true
  | [], _, h => h
  | e :: t, _, h => foldl_rset_wf k v t (rset_wf h (k e) (v e))

theorem rmerge_wf {m : RegMap} (h : RegMap.wf m = true) (src : RegMap) : RegMap.wf (rmerge src m) = true :=
  match src with
  | [] => h
  | e :: l => rset_wf (rmerge_wf h l) e.1 e.2

theorem rcopy_wf {m : RegMap} (h : RegMap.wf m = true) (p : Nat → Bool) (src : RegMap) : RegMap.wf (rcopy p src m) = true :=
  rmerge_wf (rfilter_wf h _) _

theorem nil_wf : RegMap.wf [] = true := rfl

/-- The five maps of `Regs.wf`. -/
theorem Regs.wf_iff (r : Regs) : r.wf = true ↔ RegMap.wf r.rw = true ∧ RegMap.wf r.shadow = true ∧ RegMap.wf r.pend = true ∧
    RegMap.wf r.act = true ∧ RegMap.wf r.hw = true := by
  simp only [Regs.wf, Bool.and_eq_true, and_assoc]

/-! ### The relation -/

/-- Every part of mask `a` is one of mask `b`. -/
def Sub (a b : Nat) : Prop := a &&& b = a

theorem Sub.trans {a b c : Nat} (h : Sub a b) (k : Sub b c) : Sub a c := by
  unfold Sub at *
  rw [← h, Nat.and_assoc, k]

theorem Sub.of {a m : Nat} (b : Nat) (e : a &&& b = a) (h : Sub b m) : Sub a m := Sub.trans (b := b) e h

theorem Sub.refl (a : Nat) : Sub a a := Nat.and_self a

theorem Sub.bit {k m : Nat} (h : Sub (2 ^ k) m) : m.testBit k = true := by
  have e := congrArg (fun n => n.testBit k) h
  simpa using e

theorem Sub.off {m : Nat} {p : Part} (b : Nat) (h : Sub b m) (e : 2 ^ p.bit &&& b = 2 ^ p.bit) (hp : m.testBit p.bit = false) :
    False := by
  have := Sub.bit (Sub.of b e h)
  rw [hp] at this
  exact Bool.false_ne_true this

/-- `t` has the queue of `s`, canonical register maps if `s` has them, and every part outside mask `m` as `s` has it. -/
structure Keeps (m : Nat) (s t : State) : Prop where
  pending : t.pending = s.pending
  regs : s.regs.wf = true → t.regs.wf = true
  parts : ∀ p : Part, m.testBit p.bit = false → p.same s t

theorem Keeps.refl (m : Nat) (s : State) : Keeps m s s := ⟨rfl, id, fun p _ => by cases p <;> first | rfl | exact fun _ => rfl⟩

theorem Keeps.foldl {α : Type} {m : Nat} {s0 : State} {f : State → α → State}
    (hf : ∀ x a, Keeps m s0 x → Keeps m s0 (f x a)) : ∀ {l : List α} {s : State}, Keeps m s0 s → Keeps m s0 (l.foldl f s)
  | [], _, h => h
  | a :: t, s, h => Keeps.foldl hf (l := t) (hf s a h)

theorem Keeps.foldlFst {α β : Type} {m : Nat} {s0 : State} {f : State × β → α → State × β}
    (hf : ∀ x a, Keeps m s0 x.1 → Keeps m s0 (f x a).1) :
    ∀ {l : List α} {s : State × β}, Keeps m s0 s.1 → Keeps m s0 (l.foldl f s).1
  | [], _, h => h
  | a :: t, s, h => Keeps.foldlFst hf (l := t) (hf s a h)

theorem Keeps.getD {m : Nat} {s0 s : State} {o : Option State} (h : Keeps m s0 s) (ho : ∀ t, o = some t → Keeps m s0 t) :
    Keeps m s0 (o.getD s) := by
  cases o with
  | none => exact h
  | some t => exact ho t rfl

theorem Keeps.setSys {m : Nat} {s0 s : State} (v : Sys) (hm : Sub 1 m) (h : Keeps m s0 s)
    (hv : m.testBit 20 = false → v.mode = s.sys.mode) : Keeps m s0 { s with sys := v } :=
  ⟨h.pending, h.regs, fun p hp => by
    cases p <;> first
      | exact h.parts _ hp
      | exact absurd (Sub.bit (k := 0) hm) (by rw [show m.testBit 0 = false from hp]; exact Bool.false_ne_true)
      | exact (hv hp).trans (h.parts .mode hp)⟩

theorem Keeps.setCfg {m : Nat} {s0 s : State} (v : Cfg) (hm : Sub 2 m) (h : Keeps m s0 s)
    (hv : m.testBit 21 = false → ∀ n : Fin 5, v.sess[n].role = s.cfg.sess[n].role) : Keeps m s0 { s with cfg := v } :=
  ⟨h.pending, h.regs, fun p hp => by
    cases p <;> first
      | exact h.parts _ hp
      | exact absurd (Sub.bit (k := 1) hm) (by rw [show m.testBit 1 = false from hp]; exact Bool.false_ne_true)
      | exact fun n => (hv hp n).trans (h.parts .roles hp n)⟩

theorem Keeps.setRegs {m : Nat} {s0 s : State} (v : Regs) (hm : Sub 4 m) (h : Keeps m s0 s)
    (hv : s.regs.wf = true → v.wf = true) : Keeps m s0 { s with regs := v } :=
  ⟨h.pending, fun w => hv (h.regs w), fun p hp => by
    cases p <;> first | exact h.parts _ hp | exact absurd (Sub.bit (k := 2) hm) (by rw [show m.testBit 2 = false from hp]; exact Bool.false_ne_true)⟩

theorem Keeps.setCvq {m : Nat} {s0 s : State} (v : Vector Queue 64) (hm : Sub 8 m) (h : Keeps m s0 s) :
    Keeps m s0 { s with cvq := v } :=
  ⟨h.pending, h.regs, fun p hp => by
    cases p <;> first | exact h.parts _ hp | exact absurd (Sub.bit (k := 3) hm) (by rw [show m.testBit 3 = false from hp]; exact Bool.false_ne_true)⟩

theorem Keeps.setIng {m : Nat} {s0 s : State} (v : Ing) (hm : Sub 16 m) (h : Keeps m s0 s) :
    Keeps m s0 { s with ing := v } :=
  ⟨h.pending, h.regs, fun p hp => by
    cases p <;> first | exact h.parts _ hp | exact absurd (Sub.bit (k := 4) hm) (by rw [show m.testBit 4 = false from hp]; exact Bool.false_ne_true)⟩

theorem Keeps.setBars {m : Nat} {s0 s : State} (v : Vector Bar 8) (hm : Sub 32 m) (h : Keeps m s0 s) :
    Keeps m s0 { s with bars := v } :=
  ⟨h.pending, h.regs, fun p hp => by
    cases p <;> first | exact h.parts _ hp | exact absurd (Sub.bit (k := 5) hm) (by rw [show m.testBit 5 = false from hp]; exact Bool.false_ne_true)⟩

theorem Keeps.setEnc {m : Nat} {s0 s : State} (v : Enc) (hm : Sub 64 m) (h : Keeps m s0 s) :
    Keeps m s0 { s with enc := v } :=
  ⟨h.pending, h.regs, fun p hp => by
    cases p <;> first | exact h.parts _ hp | exact absurd (Sub.bit (k := 6) hm) (by rw [show m.testBit 6 = false from hp]; exact Bool.false_ne_true)⟩

theorem Keeps.setLtm {m : Nat} {s0 s : State} (v : Ltm) (hm : Sub 128 m) (h : Keeps m s0 s)
    (hv : m.testBit 22 = false → v.g = s.ltm.g) : Keeps m s0 { s with ltm := v } :=
  ⟨h.pending, h.regs, fun p hp => by
    cases p <;> first
      | exact h.parts _ hp
      | exact absurd (Sub.bit (k := 7) hm) (by rw [show m.testBit 7 = false from hp]; exact Bool.false_ne_true)
      | exact (hv hp).trans (h.parts .grid hp)⟩

theorem Keeps.setLnk {m : Nat} {s0 s : State} (v : Lnk) (hm : Sub 256 m) (h : Keeps m s0 s) :
    Keeps m s0 { s with lnk := v } :=
  ⟨h.pending, h.regs, fun p hp => by
    cases p <;> first | exact h.parts _ hp | exact absurd (Sub.bit (k := 8) hm) (by rw [show m.testBit 8 = false from hp]; exact Bool.false_ne_true)⟩

theorem Keeps.setMem {m : Nat} {s0 s : State} (v : Mem) (hm : Sub 512 m) (h : Keeps m s0 s) :
    Keeps m s0 { s with mem := v } :=
  ⟨h.pending, h.regs, fun p hp => by
    cases p <;> first | exact h.parts _ hp | exact absurd (Sub.bit (k := 9) hm) (by rw [show m.testBit 9 = false from hp]; exact Bool.false_ne_true)⟩

theorem Keeps.setVis {m : Nat} {s0 s : State} (v : Vis) (hm : Sub 1024 m) (h : Keeps m s0 s) :
    Keeps m s0 { s with vis := v } :=
  ⟨h.pending, h.regs, fun p hp => by
    cases p <;> first | exact h.parts _ hp | exact absurd (Sub.bit (k := 10) hm) (by rw [show m.testBit 10 = false from hp]; exact Bool.false_ne_true)⟩

theorem Keeps.setChl {m : Nat} {s0 s : State} (v : Chl) (hm : Sub 2048 m) (h : Keeps m s0 s) :
    Keeps m s0 { s with chl := v } :=
  ⟨h.pending, h.regs, fun p hp => by
    cases p <;> first | exact h.parts _ hp | exact absurd (Sub.bit (k := 11) hm) (by rw [show m.testBit 11 = false from hp]; exact Bool.false_ne_true)⟩

theorem Keeps.setLmp {m : Nat} {s0 s : State} (v : Lmp) (hm : Sub 4096 m) (h : Keeps m s0 s) :
    Keeps m s0 { s with lmp := v } :=
  ⟨h.pending, h.regs, fun p hp => by
    cases p <;> first | exact h.parts _ hp | exact absurd (Sub.bit (k := 12) hm) (by rw [show m.testBit 12 = false from hp]; exact Bool.false_ne_true)⟩

theorem Keeps.setMot {m : Nat} {s0 s : State} (v : Mot) (hm : Sub 8192 m) (h : Keeps m s0 s) :
    Keeps m s0 { s with mot := v } :=
  ⟨h.pending, h.regs, fun p hp => by
    cases p <;> first | exact h.parts _ hp | exact absurd (Sub.bit (k := 13) hm) (by rw [show m.testBit 13 = false from hp]; exact Bool.false_ne_true)⟩

theorem Keeps.setTbl {m : Nat} {s0 s : State} (v : Tbl) (hm : Sub 16384 m) (h : Keeps m s0 s)
    (hv : m.testBit 23 = false → v.holder = s.tbl.holder) : Keeps m s0 { s with tbl := v } :=
  ⟨h.pending, h.regs, fun p hp => by
    cases p <;> first
      | exact h.parts _ hp
      | exact absurd (Sub.bit (k := 14) hm) (by rw [show m.testBit 14 = false from hp]; exact Bool.false_ne_true)
      | exact (hv hp).trans (h.parts .trump hp)⟩

theorem Keeps.setThm {m : Nat} {s0 s : State} (v : Thm) (hm : Sub 32768 m) (h : Keeps m s0 s) :
    Keeps m s0 { s with thm := v } :=
  ⟨h.pending, h.regs, fun p hp => by
    cases p <;> first | exact h.parts _ hp | exact absurd (Sub.bit (k := 15) hm) (by rw [show m.testBit 15 = false from hp]; exact Bool.false_ne_true)⟩

theorem Keeps.setFlt {m : Nat} {s0 s : State} (v : Flt) (hm : Sub 65536 m) (h : Keeps m s0 s)
    (hv : m.testBit 24 = false → v.due = s.flt.due) : Keeps m s0 { s with flt := v } :=
  ⟨h.pending, h.regs, fun p hp => by
    cases p <;> first
      | exact h.parts _ hp
      | exact absurd (Sub.bit (k := 16) hm) (by rw [show m.testBit 16 = false from hp]; exact Bool.false_ne_true)
      | exact (hv hp).trans (h.parts .due hp)⟩

theorem Keeps.setTim {m : Nat} {s0 s : State} (v : Tim) (hm : Sub 131072 m) (h : Keeps m s0 s) :
    Keeps m s0 { s with tim := v } :=
  ⟨h.pending, h.regs, fun p hp => by
    cases p <;> first | exact h.parts _ hp | exact absurd (Sub.bit (k := 17) hm) (by rw [show m.testBit 17 = false from hp]; exact Bool.false_ne_true)⟩

theorem Keeps.setPad {m : Nat} {s0 s : State} (v : Pad) (hm : Sub 262144 m) (h : Keeps m s0 s) :
    Keeps m s0 { s with pad := v } :=
  ⟨h.pending, h.regs, fun p hp => by
    cases p <;> first | exact h.parts _ hp | exact absurd (Sub.bit (k := 18) hm) (by rw [show m.testBit 18 = false from hp]; exact Bool.false_ne_true)⟩

theorem Keeps.setFree {m : Nat} {s0 s : State} (v : Nat) (hm : Sub 524288 m) (h : Keeps m s0 s) :
    Keeps m s0 { s with free := v } :=
  ⟨h.pending, h.regs, fun p hp => by
    cases p <;> first | exact h.parts _ hp | exact absurd (Sub.bit (k := 19) hm) (by rw [show m.testBit 19 = false from hp]; exact Bool.false_ne_true)⟩

end Sys2Proof.Machine
end

