-- ==== Sys2Proof/Laws/KeepsOps.lean ====
section
/-! SUPPORT. What each operation of Machine/Ops.lean keeps: the queue, and the canonical form of the register maps. -/
set_option Elab.async false
namespace Sys2Proof.Machine

theorem State.onSys_keeps {m : Nat} {sb s : State} (f : Sys → Sys) (hm : Sub 1 m) (hK : Keeps m sb s)
    (hv : m.testBit 20 = false → ∀ y, (f y).mode = y.mode) : Keeps m sb (s.onSys f) :=
  Keeps.setSys _ hm hK (fun hb => hv hb _)

theorem State.onCfg_keeps {m : Nat} {sb s : State} (f : Cfg → Cfg) (hm : Sub 2 m) (hK : Keeps m sb s)
    (hv : m.testBit 21 = false → ∀ y (n : Fin 5), (f y).sess[n].role = y.sess[n].role) : Keeps m sb (s.onCfg f) :=
  Keeps.setCfg _ hm hK (fun hb => hv hb _)

theorem State.onRegs_keeps {m : Nat} {sb s : State} {f : Regs → Regs} (hm : Sub 4 m) (hK : Keeps m sb s)
    (hf : ∀ r, r.wf = true → (f r).wf = true) : Keeps m sb (s.onRegs f) := Keeps.setRegs _ hm hK (hf _)

theorem State.onIng_keeps {msk : Nat} {sb s : State} (f : Ing → Ing) (hmsk : Sub 16 msk) (hK : Keeps msk sb s) : Keeps msk sb (State.onIng s f) := by
  unfold State.onIng; (with_reducible repeat' (first | assumption | (refine Sub.of 16 ?_ hmsk; with_unfolding_all rfl) | (dsimp only) | apply Keeps.setIng))

theorem State.onEnc_keeps {msk : Nat} {sb s : State} (f : Enc → Enc) (hmsk : Sub 64 msk) (hK : Keeps msk sb s) : Keeps msk sb (State.onEnc s f) := by
  unfold State.onEnc; (with_reducible repeat' (first | assumption | (refine Sub.of 64 ?_ hmsk; with_unfolding_all rfl) | (dsimp only) | apply Keeps.setEnc))

theorem State.onLtm_keeps {m : Nat} {sb s : State} (f : Ltm → Ltm) (hm : Sub 128 m) (hK : Keeps m sb s)
    (hv : m.testBit 22 = false → ∀ y, (f y).g = y.g) : Keeps m sb (s.onLtm f) :=
  Keeps.setLtm _ hm hK (fun hb => hv hb _)

theorem State.onLnk_keeps {msk : Nat} {sb s : State} (f : Lnk → Lnk) (hmsk : Sub 256 msk) (hK : Keeps msk sb s) : Keeps msk sb (State.onLnk s f) := by
  unfold State.onLnk; (with_reducible repeat' (first | assumption | (refine Sub.of 256 ?_ hmsk; with_unfolding_all rfl) | (dsimp only) | apply Keeps.setLnk))

theorem State.onMem_keeps {msk : Nat} {sb s : State} (f : Mem → Mem) (hmsk : Sub 512 msk) (hK : Keeps msk sb s) : Keeps msk sb (State.onMem s f) := by
  unfold State.onMem; (with_reducible repeat' (first | assumption | (refine Sub.of 512 ?_ hmsk; with_unfolding_all rfl) | (dsimp only) | apply Keeps.setMem))

theorem State.onVis_keeps {msk : Nat} {sb s : State} (f : Vis → Vis) (hmsk : Sub 1024 msk) (hK : Keeps msk sb s) : Keeps msk sb (State.onVis s f) := by
  unfold State.onVis; (with_reducible repeat' (first | assumption | (refine Sub.of 1024 ?_ hmsk; with_unfolding_all rfl) | (dsimp only) | apply Keeps.setVis))

theorem State.onChl_keeps {msk : Nat} {sb s : State} (f : Chl → Chl) (hmsk : Sub 2048 msk) (hK : Keeps msk sb s) : Keeps msk sb (State.onChl s f) := by
  unfold State.onChl; (with_reducible repeat' (first | assumption | (refine Sub.of 2048 ?_ hmsk; with_unfolding_all rfl) | (dsimp only) | apply Keeps.setChl))

theorem State.onLmp_keeps {msk : Nat} {sb s : State} (f : Lmp → Lmp) (hmsk : Sub 4096 msk) (hK : Keeps msk sb s) : Keeps msk sb (State.onLmp s f) := by
  unfold State.onLmp; (with_reducible repeat' (first | assumption | (refine Sub.of 4096 ?_ hmsk; with_unfolding_all rfl) | (dsimp only) | apply Keeps.setLmp))

theorem State.onMot_keeps {msk : Nat} {sb s : State} (f : Mot → Mot) (hmsk : Sub 8192 msk) (hK : Keeps msk sb s) : Keeps msk sb (State.onMot s f) := by
  unfold State.onMot; (with_reducible repeat' (first | assumption | (refine Sub.of 8192 ?_ hmsk; with_unfolding_all rfl) | (dsimp only) | apply Keeps.setMot))

theorem State.onTbl_keeps {m : Nat} {sb s : State} (f : Tbl → Tbl) (hm : Sub 16384 m) (hK : Keeps m sb s)
    (hv : m.testBit 23 = false → ∀ y, (f y).holder = y.holder) : Keeps m sb (s.onTbl f) :=
  Keeps.setTbl _ hm hK (fun hb => hv hb _)

theorem State.onThm_keeps {msk : Nat} {sb s : State} (f : Thm → Thm) (hmsk : Sub 32768 msk) (hK : Keeps msk sb s) : Keeps msk sb (State.onThm s f) := by
  unfold State.onThm; (with_reducible repeat' (first | assumption | (refine Sub.of 32768 ?_ hmsk; with_unfolding_all rfl) | (dsimp only) | apply Keeps.setThm))

theorem State.onFlt_keeps {m : Nat} {sb s : State} (f : Flt → Flt) (hm : Sub 65536 m) (hK : Keeps m sb s)
    (hv : m.testBit 24 = false → ∀ y, (f y).due = y.due) : Keeps m sb (s.onFlt f) :=
  Keeps.setFlt _ hm hK (fun hb => hv hb _)

theorem State.onTim_keeps {msk : Nat} {sb s : State} (f : Tim → Tim) (hmsk : Sub 131072 msk) (hK : Keeps msk sb s) : Keeps msk sb (State.onTim s f) := by
  unfold State.onTim; (with_reducible repeat' (first | assumption | (refine Sub.of 131072 ?_ hmsk; with_unfolding_all rfl) | (dsimp only) | apply Keeps.setTim))

theorem State.onPad_keeps {msk : Nat} {sb s : State} (f : Pad → Pad) (hmsk : Sub 262144 msk) (hK : Keeps msk sb s) : Keeps msk sb (State.onPad s f) := by
  unfold State.onPad; (with_reducible repeat' (first | assumption | (refine Sub.of 262144 ?_ hmsk; with_unfolding_all rfl) | (dsimp only) | apply Keeps.setPad))

theorem State.onBar_keeps {msk : Nat} {sb s : State} (b : Fin 8) (f : Bar → Bar) (hmsk : Sub 32 msk) (hK : Keeps msk sb s) : Keeps msk sb (State.onBar s b f) := by
  unfold State.onBar; (with_reducible repeat' (first | assumption | (refine Sub.of 32 ?_ hmsk; with_unfolding_all rfl) | (dsimp only) | apply Keeps.setBars))

theorem State.onQ_keeps {msk : Nat} {sb s : State} (q : Fin 64) (f : Queue → Queue) (hmsk : Sub 8 msk) (hK : Keeps msk sb s) : Keeps msk sb (State.onQ s q f) := by
  unfold State.onQ; (with_reducible repeat' (first | assumption | (refine Sub.of 8 ?_ hmsk; with_unfolding_all rfl) | (dsimp only) | apply Keeps.setCvq))

theorem State.setF_keeps {m : Nat} {sb s : State} (f : Fld) (v : Nat) (hm : Sub 4 m) (hK : Keeps m sb s) :
    Keeps m sb (s.setF f v) := by
  unfold State.setF
  split <;> refine Keeps.setRegs _ hm hK (fun w => ?_) <;> obtain ⟨h1, h2, h3, h4, h5⟩ := (Regs.wf_iff _).mp w <;>
    exact (Regs.wf_iff _).mpr (by first
      | exact ⟨rset_wf h1 _ _, h2, h3, h4, h5⟩
      | exact ⟨h1, h2, h3, rset_wf h4 _ _, h5⟩
      | exact ⟨h1, h2, h3, h4, rset_wf h5 _ _⟩)

theorem State.bumpBy_keeps {msk : Nat} {sb s : State} (f : Fld) (k : Nat) (hmsk : Sub 4 msk) (hK : Keeps msk sb s) : Keeps msk sb (State.bumpBy s f k) := by
  unfold State.bumpBy; (with_reducible repeat' (first | assumption | (refine Sub.of 4 ?_ hmsk; with_unfolding_all rfl) | apply State.setF_keeps | (dsimp only)))

theorem State.bump_keeps {msk : Nat} {sb s : State} (f : Fld) (hmsk : Sub 4 msk) (hK : Keeps msk sb s) : Keeps msk sb (State.bump s f) := by
  unfold State.bump; (with_reducible repeat' (first | assumption | (refine Sub.of 4 ?_ hmsk; with_unfolding_all rfl) | apply State.bumpBy_keeps | (dsimp only)))

theorem State.peak_keeps {msk : Nat} {sb s : State} (f : Fld) (v : Nat) (hmsk : Sub 4 msk) (hK : Keeps msk sb s) : Keeps msk sb (State.peak s f v) := by
  unfold State.peak; (with_reducible repeat' (first | assumption | (refine Sub.of 4 ?_ hmsk; with_unfolding_all rfl) | apply State.setF_keeps | (dsimp only)))

theorem State.drawn_keeps {msk : Nat} {sb s : State} (hmsk : Sub 524288 msk) (hK : Keeps msk sb s) : Keeps msk sb (State.drawn s) := by
  unfold State.drawn; (with_reducible repeat' (first | assumption | (refine Sub.of 524288 ?_ hmsk; with_unfolding_all rfl) | (dsimp only) | apply Keeps.setFree))

theorem State.drawnN_keeps {msk : Nat} {sb s : State} (n : Nat) (hmsk : Sub 524288 msk) (hK : Keeps msk sb s) : Keeps msk sb (State.drawnN s n) := by
  unfold State.drawnN; (with_reducible repeat' (first | assumption | (refine Sub.of 524288 ?_ hmsk; with_unfolding_all rfl) | (dsimp only) | apply Keeps.setFree))

theorem State.live_keeps {msk : Nat} {sb s : State} (f : State → State) (hf : ∀ x, Keeps msk sb x → Keeps msk sb (f x)) (hmsk : Sub 0 msk) (hK : Keeps msk sb s) : Keeps msk sb (State.live s f) := by
  unfold State.live; (with_reducible repeat' (first | assumption | (refine Sub.of 0 ?_ hmsk; with_unfolding_all rfl) | (apply hf) | intro _ | split | (dsimp only) | (rename_i e; replace e := Option.map_eq_some_iff.mp e; obtain ⟨_, e, rfl⟩ := e) | (rename_i e; cases e; done) | (rename_i e; injection e with e; subst e) | (rename_i e; dsimp only at e) | (rename_i e; split at e)))

theorem State.when_keeps {msk : Nat} {sb s : State} (c : Bool) (f : State → State) (hf : ∀ x, Keeps msk sb x → Keeps msk sb (f x)) (hmsk : Sub 0 msk) (hK : Keeps msk sb s) : Keeps msk sb (State.when s c f) := by
  unfold State.when; (with_reducible repeat' (first | assumption | (refine Sub.of 0 ?_ hmsk; with_unfolding_all rfl) | (apply hf) | split | (dsimp only) | (rename_i e; replace e := Option.map_eq_some_iff.mp e; obtain ⟨_, e, rfl⟩ := e) | (rename_i e; cases e; done) | (rename_i e; injection e with e; subst e) | (rename_i e; dsimp only at e) | (rename_i e; split at e)))

theorem State.moveOne_keeps {msk : Nat} {sb s : State} (q : Fin 64) (hmsk : Sub 8 msk) (hK : Keeps msk sb s) : Keeps msk sb (State.moveOne s q) := by
  unfold State.moveOne; (with_reducible repeat' (first | assumption | (refine Sub.of 8 ?_ hmsk; with_unfolding_all rfl) | (dsimp only) | apply Keeps.setCvq))

theorem State.settle_keeps {msk : Nat} {sb s : State} (q : Fin 64) (hmsk : Sub 8 msk) (hK : Keeps msk sb s) : Keeps msk sb (State.settle s q) := by
  unfold State.settle; (with_reducible repeat' (first | assumption | (refine Sub.of 8 ?_ hmsk; with_unfolding_all rfl) | (dsimp only) | apply Keeps.setCvq))

theorem State.levelCross_keeps {msk : Nat} {sb s : State} (q : Fin 64) (before after : Nat) (hmsk : Sub 12 msk) (hK : Keeps msk sb s) : Keeps msk sb (State.levelCross s q before after) := by
  unfold State.levelCross; (with_reducible repeat' (first | assumption | (refine Sub.of 12 ?_ hmsk; with_unfolding_all rfl) | apply State.setF_keeps | apply State.onQ_keeps | intro _ | split | (dsimp only)))

theorem State.qPut_keeps {msk : Nat} {sb s : State} (q : Fin 64) (e : Entry) (hmsk : Sub 12 msk) (hK : Keeps msk sb s) : Keeps msk sb (State.qPut s q e) := by
  unfold State.qPut; (with_reducible repeat' (first | assumption | (refine Sub.of 12 ?_ hmsk; with_unfolding_all rfl) | apply State.levelCross_keeps | apply State.peak_keeps | (dsimp only) | apply Keeps.setCvq))

theorem State.evtStore_keeps {msk : Nat} {sb s : State} (i : Fin 4) (e : EventRec) (hmsk : Sub 12 msk) (hK : Keeps msk sb s) : Keeps msk sb (State.evtStore s i e) := by
  unfold State.evtStore; (with_reducible repeat' (first | assumption | (refine Sub.of 12 ?_ hmsk; with_unfolding_all rfl) | apply State.onQ_keeps | apply State.levelCross_keeps | apply State.peak_keeps | intro _ | (dsimp only)))

theorem State.evqLost_keeps {msk : Nat} {sb s : State} (i : Fin 4) (hmsk : Sub 12 msk) (hK : Keeps msk sb s) : Keeps msk sb (State.evqLost s i) := by
  unfold State.evqLost; (with_reducible repeat' (first | assumption | (refine Sub.of 12 ?_ hmsk; with_unfolding_all rfl) | apply State.onQ_keeps | apply State.levelCross_keeps | apply State.peak_keeps | intro _ | split | (dsimp only)))

theorem State.evtPut_keeps {msk : Nat} {sb s : State} (i : Fin 4) (e : EventRec) (hmsk : Sub 12 msk) (hK : Keeps msk sb s) : Keeps msk sb (State.evtPut s i e) := by
  unfold State.evtPut; (with_reducible repeat' (first | assumption | (refine Sub.of 12 ?_ hmsk; with_unfolding_all rfl) | apply State.settle_keeps | apply State.evqLost_keeps | apply State.onQ_keeps | apply State.bump_keeps | apply State.evtStore_keeps | intro _ | split | (dsimp only)))

theorem State.raise_keeps {msk : Nat} {sb s : State} (code bar arg : Nat) (hmsk : Sub 12 msk) (hK : Keeps msk sb s) : Keeps msk sb (State.raise s code bar arg) := by
  unfold State.raise; (with_reducible repeat' (first | assumption | (refine Sub.of 12 ?_ hmsk; with_unfolding_all rfl) | apply State.evtPut_keeps | (dsimp only)))

theorem State.event_keeps {msk : Nat} {sb s : State} (code arg : Nat) (hmsk : Sub 12 msk) (hK : Keeps msk sb s) : Keeps msk sb (State.event s code arg) := by
  unfold State.event; (with_reducible repeat' (first | assumption | (refine Sub.of 12 ?_ hmsk; with_unfolding_all rfl) | apply State.raise_keeps | (dsimp only)))

theorem State.forward_keeps {msk : Nat} {sb s : State} (i : FwdItem) (hmsk : Sub 16388 msk) (hK : Keeps msk sb s) : Keeps msk sb (State.forward s i) := by
  unfold State.forward; (with_reducible repeat' (first | assumption | (refine Sub.of 16388 ?_ hmsk; with_unfolding_all rfl) | (refine fun (hb : msk.testBit 23 = false) => ?_; intro _; first | rfl | (dsimp only; split <;> rfl)) | (intro _; rfl) | (intro _ _; rfl) | apply State.onTbl_keeps | apply State.peak_keeps | intro _ | split | (dsimp only) | apply Keeps.setTbl))

theorem State.audit_keeps {msk : Nat} {sb s : State} (kind who addr a b : Nat) (hmsk : Sub 2 msk) (hK : Keeps msk sb s) : Keeps msk sb (State.audit s kind who addr a b) := by
  unfold State.audit; (with_reducible repeat' (first | assumption | (refine Sub.of 2 ?_ hmsk; with_unfolding_all rfl) | (intro _; rfl) | (intro _ _; rfl) | split | (dsimp only) | apply Keeps.setCfg))

theorem State.modJob_keeps {msk : Nat} {sb s : State} (tag : Nat) (f : Job → Job) (hmsk : Sub 16 msk) (hK : Keeps msk sb s) : Keeps msk sb (State.modJob s tag f) := by
  unfold State.modJob; (with_reducible repeat' (first | assumption | (refine Sub.of 16 ?_ hmsk; with_unfolding_all rfl) | intro _ | split | (dsimp only) | apply Keeps.setIng))

theorem State.onJobs_keeps {msk : Nat} {sb s : State} (f : List BJob → List BJob) (hmsk : Sub 1 msk) (hK : Keeps msk sb s) : Keeps msk sb (State.onJobs s f) := by
  unfold State.onJobs; (with_reducible repeat' (first | assumption | (refine Sub.of 1 ?_ hmsk; with_unfolding_all rfl) | (intro _; rfl) | (intro _ _; rfl) | (dsimp only) | apply Keeps.setSys))

end Sys2Proof.Machine
end

