-- ==== Sys2Proof/Laws/KeepsAccess.lean ====
section
/-! SUPPORT. What each operation of Machine/Access.lean keeps: the queue, and the canonical form of the register maps. -/
set_option Elab.async false
namespace Sys2Proof.Machine

theorem role_vmod (v : Vector Session 5) (i : Fin 5) {f : Session → Session} (n : Fin 5) (hf : ∀ x, (f x).role = x.role) :
    (vmod v i f)[n].role = v[n].role := by
  unfold vmod
  rw [Fin.getElem_fin, Vector.getElem_set]
  split
  · rename_i h
    have e : i = n := Fin.ext h
    subst e; exact hf _
  · rfl

theorem State.endBurst_keeps {msk : Nat} {sb s : State} (ses : Fin 5) (hmsk : Sub 2 msk) (hK : Keeps msk sb s) : Keeps msk sb (State.endBurst s ses) := by
  unfold State.endBurst; (with_reducible repeat' (first | assumption | (refine Sub.of 2 ?_ hmsk; with_unfolding_all rfl) | (refine fun (hb : msk.testBit 21 = false) => ?_; intro _ n; first | rfl | exact role_vmod _ _ n (fun _ => rfl) | (dsimp only; split <;> rfl)) | apply State.onCfg_keeps | apply State.audit_keeps | intro _ | split | (dsimp only)))

theorem State.auditBy_keeps {msk : Nat} {sb s : State} (kind : Nat) (r : Role) (ses a old new : Nat) (hmsk : Sub 2 msk) (hK : Keeps msk sb s) : Keeps msk sb (State.auditBy s kind r ses a old new) := by
  unfold State.auditBy; (with_reducible repeat' (first | assumption | (refine Sub.of 2 ?_ hmsk; with_unfolding_all rfl) | apply State.audit_keeps | split | (dsimp only)))

theorem State.auditWrite_keeps {msk : Nat} {sb s : State} (ses : Fin 5) (a old new : Nat) (hmsk : Sub 2 msk) (hK : Keeps msk sb s) : Keeps msk sb (State.auditWrite s ses a old new) := by
  unfold State.auditWrite; (with_reducible repeat' (first | assumption | (refine Sub.of 2 ?_ hmsk; with_unfolding_all rfl) | apply State.auditBy_keeps | apply Keeps.getD | intro _ | (dsimp only) | (rename_i e; replace e := Option.map_eq_some_iff.mp e; obtain ⟨_, e, rfl⟩ := e) | (rename_i e; cases e; done) | (rename_i e; injection e with e; subst e) | (rename_i e; dsimp only at e) | (rename_i e; split at e)))

theorem State.fwdBy_keeps {msk : Nat} {sb s : State} (w : Writer) (a : Nat) (data : Word) (line : Nat) (hmsk : Sub 16388 msk) (hK : Keeps msk sb s) : Keeps msk sb (State.fwdBy s w a data line) := by
  unfold State.fwdBy; (with_reducible repeat' (first | assumption | (refine Sub.of 16388 ?_ hmsk; with_unfolding_all rfl) | apply State.forward_keeps | (dsimp only)))

theorem State.wake_keeps {msk : Nat} {sb s : State} (hmsk : Sub 1 msk) (hK : Keeps msk sb s) : Keeps msk sb (State.wake s) := by
  unfold State.wake; (with_reducible repeat' (first | assumption | (refine Sub.of 1 ?_ hmsk; with_unfolding_all rfl) | (refine fun (hb : msk.testBit 20 = false) => ?_; intro _; first | rfl | (dsimp only; split <;> rfl)) | apply State.onSys_keeps | intro _ | split | (dsimp only)))

theorem State.burstCut_keeps {msk : Nat} {sb s : State} (ses : Fin 5) (a : Nat) (hmsk : Sub 2 msk) (hK : Keeps msk sb s) : Keeps msk sb (State.burstCut s ses a) := by
  unfold State.burstCut; (with_reducible repeat' (first | assumption | (refine Sub.of 2 ?_ hmsk; with_unfolding_all rfl) | apply State.endBurst_keeps | split | (dsimp only)))

theorem State.sesReach_keeps {msk : Nat} {sb s : State} (ses : Fin 5) (need : Role) (a : Nat) (data : Word) (f : State → State) (hf : ∀ x, Keeps msk sb x → Keeps msk sb (f x)) (hmsk : Sub 3 msk) (hK : Keeps msk sb s) : Keeps msk sb (State.sesReach s ses need a data f) := by
  unfold State.sesReach; (with_reducible repeat' (first | assumption | (refine Sub.of 3 ?_ hmsk; with_unfolding_all rfl) | (refine fun (hb : msk.testBit 20 = false) => ?_; intro _; first | rfl | (dsimp only; split <;> rfl)) | (refine fun (hb : msk.testBit 21 = false) => ?_; intro _ n; first | rfl | exact role_vmod _ _ n (fun _ => rfl) | (dsimp only; split <;> rfl)) | apply State.live_keeps | apply State.burstCut_keeps | apply State.wake_keeps | apply State.onSys_keeps | apply State.onCfg_keeps | (apply hf) | intro _ | split | (dsimp only) | (rename_i e; replace e := Option.map_eq_some_iff.mp e; obtain ⟨_, e, rfl⟩ := e) | (rename_i e; cases e; done) | (rename_i e; injection e with e; subst e) | (rename_i e; dsimp only at e) | (rename_i e; split at e)))

theorem State.sesWriteBy_keeps {msk : Nat} {sb s : State} (ses : Fin 5) (need : Role) (a : Nat) (data : Word) (f : State → Option State) (hf : ∀ x t, Keeps msk sb x → f x = some t → Keeps msk sb t) (hmsk : Sub 3 msk) (hK : Keeps msk sb s) : Keeps msk sb (State.sesWriteBy s ses need a data f) := by
  unfold State.sesWriteBy; (with_reducible repeat' (first | assumption | (refine Sub.of 3 ?_ hmsk; with_unfolding_all rfl) | apply State.sesReach_keeps | (refine hf _ _ ?_ (by assumption)) | intro _ | split | (dsimp only) | (rename_i e; replace e := Option.map_eq_some_iff.mp e; obtain ⟨_, e, rfl⟩ := e) | (rename_i e; cases e; done) | (rename_i e; injection e with e; subst e) | (rename_i e; dsimp only at e) | (rename_i e; split at e)))

theorem State.burstWrite_keeps {msk : Nat} {sb s : State} (ses : Fin 5) (a : Nat) (data : Word) (hmsk : Sub 2 msk) (hK : Keeps msk sb s) : Keeps msk sb (State.burstWrite s ses a data) := by
  unfold State.burstWrite; (with_reducible repeat' (first | assumption | (refine Sub.of 2 ?_ hmsk; with_unfolding_all rfl) | (refine fun (hb : msk.testBit 21 = false) => ?_; intro _ n; first | rfl | exact role_vmod _ _ n (fun _ => rfl) | (dsimp only; split <;> rfl)) | apply State.burstCut_keeps | apply State.onCfg_keeps | apply Keeps.getD | intro _ | split | (dsimp only) | (rename_i e; replace e := Option.map_eq_some_iff.mp e; obtain ⟨_, e, rfl⟩ := e) | (rename_i e; cases e; done) | (rename_i e; injection e with e; subst e) | (rename_i e; dsimp only at e) | (rename_i e; split at e)))

theorem State.winWrite_keeps {msk : Nat} {sb s : State} (ses : Fin 5) (need : Role) (a : Nat) (data : Word) (f : State → Option State) (hf : ∀ x t, Keeps msk sb x → f x = some t → Keeps msk sb t) (hmsk : Sub 3 msk) (hK : Keeps msk sb s) : Keeps msk sb (State.winWrite s ses need a data f) := by
  unfold State.winWrite; (with_reducible repeat' (first | assumption | (refine Sub.of 3 ?_ hmsk; with_unfolding_all rfl) | apply State.sesReach_keeps | apply State.burstWrite_keeps | (refine hf _ _ ?_ (by assumption)) | intro _ | split | (dsimp only) | (rename_i e; replace e := Option.map_eq_some_iff.mp e; obtain ⟨_, e, rfl⟩ := e) | (rename_i e; cases e; done) | (rename_i e; injection e with e; subst e) | (rename_i e; dsimp only at e) | (rename_i e; split at e)))

theorem State.sesCmd_keeps {msk : Nat} {sb s : State} (ses : Fin 5) (need : Role) (a : Nat) (data : Word) (f : State → Option State) (hf : ∀ x t, Keeps msk sb x → f x = some t → Keeps msk sb t) (hmsk : Sub 3 msk) (hK : Keeps msk sb s) : Keeps msk sb (State.sesCmd s ses need a data f) := by
  unfold State.sesCmd; (with_reducible repeat' (first | assumption | (refine Sub.of 3 ?_ hmsk; with_unfolding_all rfl) | apply State.sesWriteBy_keeps | apply State.auditWrite_keeps | (refine hf _ _ ?_ (by assumption)) | intro _ | (dsimp only) | (rename_i e; replace e := Option.map_eq_some_iff.mp e; obtain ⟨_, e, rfl⟩ := e) | (rename_i e; cases e; done) | (rename_i e; injection e with e; subst e) | (rename_i e; dsimp only at e) | (rename_i e; split at e)))

end Sys2Proof.Machine
end

