-- ==== Sys2Proof/Laws/KeepsCommit.lean ====
section
/-! SUPPORT. What each operation of Machine/Commit.lean keeps: the queue, and the canonical form of the register maps. -/
set_option Elab.async false
namespace Sys2Proof.Machine

theorem State.stage_keeps {msk : Nat} {sb s : State} (g : Group) (hmsk : Sub 4 msk) (hK : Keeps msk sb s) : Keeps msk sb (State.stage s g) := by
  unfold State.stage; (with_reducible repeat' (first | assumption | (refine Sub.of 4 ?_ hmsk; with_unfolding_all rfl) | apply State.onRegs_keeps | (refine (Regs.wf_iff _).mpr ⟨?_, ?_, ?_, ?_, ?_⟩) | apply rset_wf | apply rcopy_wf | apply rfilter_wf | apply rmerge_wf | apply foldl_rset_wf | exact nil_wf | exact ((Regs.wf_iff _).mp ‹_›).1 | exact ((Regs.wf_iff _).mp ‹_›).2.1 | exact ((Regs.wf_iff _).mp ‹_›).2.2.1 | exact ((Regs.wf_iff _).mp ‹_›).2.2.2.1 | exact ((Regs.wf_iff _).mp ‹_›).2.2.2.2 | intro _ | split | (dsimp only) | (rename_i e; replace e := Option.map_eq_some_iff.mp e; obtain ⟨_, e, rfl⟩ := e) | (rename_i e; cases e; done) | (rename_i e; injection e with e; subst e) | (rename_i e; dsimp only at e) | (rename_i e; split at e)))

theorem State.unstage_keeps {msk : Nat} {sb s : State} (g : Group) (hmsk : Sub 4 msk) (hK : Keeps msk sb s) : Keeps msk sb (State.unstage s g) := by
  unfold State.unstage; (with_reducible repeat' (first | assumption | (refine Sub.of 4 ?_ hmsk; with_unfolding_all rfl) | apply State.onRegs_keeps | (refine (Regs.wf_iff _).mpr ⟨?_, ?_, ?_, ?_, ?_⟩) | apply rset_wf | apply rcopy_wf | apply rfilter_wf | apply rmerge_wf | apply foldl_rset_wf | exact nil_wf | exact ((Regs.wf_iff _).mp ‹_›).1 | exact ((Regs.wf_iff _).mp ‹_›).2.1 | exact ((Regs.wf_iff _).mp ‹_›).2.2.1 | exact ((Regs.wf_iff _).mp ‹_›).2.2.2.1 | exact ((Regs.wf_iff _).mp ‹_›).2.2.2.2 | intro _ | (dsimp only)))

theorem State.activate_keeps {msk : Nat} {sb s : State} (g : Group) (last : Nat) (hmsk : Sub 4 msk) (hK : Keeps msk sb s) : Keeps msk sb (State.activate s g last) := by
  unfold State.activate; (with_reducible repeat' (first | assumption | (refine Sub.of 4 ?_ hmsk; with_unfolding_all rfl) | apply State.onRegs_keeps | (refine (Regs.wf_iff _).mpr ⟨?_, ?_, ?_, ?_, ?_⟩) | apply rset_wf | apply rcopy_wf | apply rfilter_wf | apply rmerge_wf | apply foldl_rset_wf | exact nil_wf | exact ((Regs.wf_iff _).mp ‹_›).1 | exact ((Regs.wf_iff _).mp ‹_›).2.1 | exact ((Regs.wf_iff _).mp ‹_›).2.2.1 | exact ((Regs.wf_iff _).mp ‹_›).2.2.2.1 | exact ((Regs.wf_iff _).mp ‹_›).2.2.2.2 | intro _ | (dsimp only)))

theorem State.takes_keeps {msk : Nat} {sb s : State} (g : Group) (last line : Nat) (hmsk : Sub 16388 msk) (hK : Keeps msk sb s) : Keeps msk sb (State.takes s g last line) := by
  unfold State.takes; (with_reducible repeat' (first | assumption | (refine Sub.of 16388 ?_ hmsk; with_unfolding_all rfl) | apply State.activate_keeps | apply State.forward_keeps | split | (dsimp only)))

theorem State.toneCleared_keeps {msk : Nat} {sb s : State} (b : Fin 8) (hmsk : Sub 2080 msk) (hK : Keeps msk sb s) : Keeps msk sb (State.toneCleared s b) := by
  unfold State.toneCleared; (with_reducible repeat' (first | assumption | (refine Sub.of 2080 ?_ hmsk; with_unfolding_all rfl) | apply State.onChl_keeps | apply State.onBar_keeps | intro _ | (dsimp only)))

theorem State.barCommits_keeps {msk : Nat} {sb s : State} (b : Fin 8) (line : Nat) (hmsk : Sub 18468 msk) (hK : Keeps msk sb s) : Keeps msk sb (State.barCommits s b line) := by
  unfold State.barCommits; (with_reducible repeat' (first | assumption | (refine Sub.of 18468 ?_ hmsk; with_unfolding_all rfl) | apply State.takes_keeps | apply State.toneCleared_keeps | apply Keeps.foldl | apply Keeps.foldlFst | intro _ | split | (dsimp only)))

end Sys2Proof.Machine
end

