-- ==== Sys2Proof/Laws/KeepsMot.lean ====
section
/-! SUPPORT. What each operation of Machine/Mot.lean keeps: the queue, and the canonical form of the register maps. -/
set_option Elab.async false
namespace Sys2Proof.Machine

theorem State.onAxis_keeps {msk : Nat} {sb s : State} (a : Fin 16) (f : Axis → Axis) (hmsk : Sub 8192 msk) (hK : Keeps msk sb s) : Keeps msk sb (State.onAxis s a f) := by
  unfold State.onAxis; (with_reducible repeat' (first | assumption | (refine Sub.of 8192 ?_ hmsk; with_unfolding_all rfl) | apply State.onMot_keeps | intro _ | (dsimp only)))

theorem State.webStop_keeps {msk : Nat} {sb s : State} (k : StopKind) (hmsk : Sub 8192 msk) (hK : Keeps msk sb s) : Keeps msk sb (State.webStop s k) := by
  unfold State.webStop; (with_reducible repeat' (first | assumption | (refine Sub.of 8192 ?_ hmsk; with_unfolding_all rfl) | apply State.onMot_keeps | intro _ | split | (dsimp only)))

theorem State.onSeq_keeps {msk : Nat} {sb s : State} (i : Fin 5) (f : Seq → Seq) (hmsk : Sub 8192 msk) (hK : Keeps msk sb s) : Keeps msk sb (State.onSeq s i f) := by
  unfold State.onSeq; (with_reducible repeat' (first | assumption | (refine Sub.of 8192 ?_ hmsk; with_unfolding_all rfl) | apply State.onMot_keeps | intro _ | (dsimp only)))

theorem State.seqDrop_keeps {msk : Nat} {sb s : State} (i : Fin 5) (hmsk : Sub 8192 msk) (hK : Keeps msk sb s) : Keeps msk sb (State.seqDrop s i) := by
  unfold State.seqDrop; (with_reducible repeat' (first | assumption | (refine Sub.of 8192 ?_ hmsk; with_unfolding_all rfl) | apply State.onMot_keeps | apply State.onSeq_keeps | intro _ | split | (dsimp only)))

theorem State.seqFail_keeps {msk : Nat} {sb s : State} (i : Fin 5) (hmsk : Sub 8204 msk) (hK : Keeps msk sb s) : Keeps msk sb (State.seqFail s i) := by
  unfold State.seqFail; (with_reducible repeat' (first | assumption | (refine Sub.of 8204 ?_ hmsk; with_unfolding_all rfl) | apply State.seqDrop_keeps | apply State.onSeq_keeps | apply State.event_keeps | intro _ | (dsimp only)))

theorem State.seqBegin_keeps {msk : Nat} {sb s : State} (i : Fin 5) (hmsk : Sub 8192 msk) (hK : Keeps msk sb s) : Keeps msk sb (State.seqBegin s i) := by
  unfold State.seqBegin; (with_reducible repeat' (first | assumption | (refine Sub.of 8192 ?_ hmsk; with_unfolding_all rfl) | apply State.onMot_keeps | apply State.onSeq_keeps | intro _ | split | (dsimp only)))

theorem State.seqRefuse_keeps {msk : Nat} {sb s : State} (i : Fin 5) (hmsk : Sub 4 msk) (hK : Keeps msk sb s) : Keeps msk sb (State.seqRefuse s i) := by
  unfold State.seqRefuse; (with_reducible repeat' (first | assumption | (refine Sub.of 4 ?_ hmsk; with_unfolding_all rfl) | apply State.setF_keeps | (dsimp only)))

theorem State.seqAxisStart_keeps {msk : Nat} {sb s : State} (i : Fin 5) (a : Fin 16) (hmsk : Sub 8204 msk) (hK : Keeps msk sb s) : Keeps msk sb (State.seqAxisStart s i a) := by
  unfold State.seqAxisStart; (with_reducible repeat' (first | assumption | (refine Sub.of 8204 ?_ hmsk; with_unfolding_all rfl) | apply State.seqFail_keeps | apply State.onAxis_keeps | apply State.onSeq_keeps | apply State.setF_keeps | intro _ | split | (dsimp only)))

theorem State.seqStarts_keeps {msk : Nat} {sb s : State} (i : Fin 5) (hmsk : Sub 8204 msk) (hK : Keeps msk sb s) : Keeps msk sb (State.seqStarts s i) := by
  unfold State.seqStarts; (with_reducible repeat' (first | assumption | (refine Sub.of 8204 ?_ hmsk; with_unfolding_all rfl) | apply State.seqAxisStart_keeps | apply Keeps.foldl | apply Keeps.foldlFst | intro _ | split | (dsimp only)))

theorem State.tickOne_keeps {msk : Nat} {sb s : State} (w : Nat) (a : Fin 16) (hmsk : Sub 8204 msk) (hK : Keeps msk sb s) : Keeps msk sb (State.tickOne s w a) := by
  unfold State.tickOne; (with_reducible repeat' (first | assumption | (refine Sub.of 8204 ?_ hmsk; with_unfolding_all rfl) | apply State.onAxis_keeps | apply State.setF_keeps | apply State.event_keeps | apply State.onSeq_keeps | intro _ | split | (dsimp only)))

theorem State.genTick_keeps {msk : Nat} {sb s : State} (hmsk : Sub 8204 msk) (hK : Keeps msk sb s) : Keeps msk sb (State.genTick s) := by
  unfold State.genTick; (with_reducible repeat' (first | assumption | (refine Sub.of 8204 ?_ hmsk; with_unfolding_all rfl) | apply State.seqStarts_keeps | apply State.tickOne_keeps | apply State.onMot_keeps | apply Keeps.foldl | apply Keeps.foldlFst | intro _ | split | (dsimp only)))

theorem execParkSelect_keeps {msk : Nat} {sb s : State} (a : Fin 12) (hmsk : Sub 8192 msk) (hK : Keeps msk sb s) : ∀ t, execParkSelect a s = .next t → Keeps msk sb t := by
  intro t e; unfold execParkSelect at e
  repeat' (first | (cases e; done) | (injection e with e; subst e) | split at e)
  all_goals (with_reducible repeat' (first | assumption | (refine Sub.of 8192 ?_ hmsk; with_unfolding_all rfl) | apply State.live_keeps | apply State.when_keeps | apply State.onAxis_keeps | intro _ | (dsimp only)))

theorem State.motGo_keeps {msk : Nat} {sb s : State} (a : Fin 16) (hmsk : Sub 8196 msk) (hK : Keeps msk sb s) : ∀ t, State.motGo s a = some t → Keeps msk sb t := by
  intro t e; unfold State.motGo at e; (try dsimp only at e)
  repeat' (first | (cases e; done) | (injection e with e; subst e) | split at e)
  all_goals (with_reducible repeat' (first | assumption | (refine Sub.of 8196 ?_ hmsk; with_unfolding_all rfl) | apply State.onAxis_keeps | apply State.setF_keeps | intro _ | split | (dsimp only)))

theorem State.fwdWrite_keeps {msk : Nat} {sb s : State} (ses : Fin 5) (a : Nat) (data : Word) (hmsk : Sub 16388 msk) (hK : Keeps msk sb s) : Keeps msk sb (State.fwdWrite s ses a data) := by
  unfold State.fwdWrite; (with_reducible repeat' (first | assumption | (refine Sub.of 16388 ?_ hmsk; with_unfolding_all rfl) | apply State.forward_keeps | apply Keeps.getD | intro _ | (dsimp only) | (rename_i e; replace e := Option.map_eq_some_iff.mp e; obtain ⟨_, e, rfl⟩ := e) | (rename_i e; cases e; done) | (rename_i e; injection e with e; subst e) | (rename_i e; dsimp only at e) | (rename_i e; split at e)))

theorem State.cmdGo_keeps {msk : Nat} {sb s : State} (ses : Fin 5) (a : Fin 16) (hmsk : Sub 24583 msk) (hK : Keeps msk sb s) : Keeps msk sb (State.cmdGo s ses a) := by
  unfold State.cmdGo; (with_reducible repeat' (first | assumption | (refine Sub.of 24583 ?_ hmsk; with_unfolding_all rfl) | (refine State.motGo_keeps _ (Sub.of 24583 (by with_unfolding_all rfl) hmsk) ?_ _ (by assumption)) | apply State.sesCmd_keeps | apply State.fwdWrite_keeps | intro _ | (dsimp only) | (rename_i e; replace e := Option.map_eq_some_iff.mp e; obtain ⟨_, e, rfl⟩ := e) | (rename_i e; cases e; done) | (rename_i e; injection e with e; subst e) | (rename_i e; dsimp only at e) | (rename_i e; split at e)))

theorem execMotGo_keeps {msk : Nat} {sb s : State} (ses : Fin 5) (a : Fin 16) (hmsk : Sub 24583 msk) (hK : Keeps msk sb s) : ∀ t, execMotGo ses a s = .next t → Keeps msk sb t := by
  intro t e; unfold execMotGo at e
  repeat' (first | (cases e; done) | (injection e with e; subst e) | split at e)
  all_goals (with_reducible repeat' (first | assumption | (refine Sub.of 24583 ?_ hmsk; with_unfolding_all rfl) | apply State.cmdGo_keeps | (dsimp only)))

theorem State.motStop_keeps {msk : Nat} {sb s : State} (a : Fin 16) (hmsk : Sub 8192 msk) (hK : Keeps msk sb s) : ∀ t, State.motStop s a = some t → Keeps msk sb t := by
  intro t e; unfold State.motStop at e; (try dsimp only at e)
  repeat' (first | (cases e; done) | (injection e with e; subst e) | split at e)
  all_goals (with_reducible repeat' (first | assumption | (refine Sub.of 8192 ?_ hmsk; with_unfolding_all rfl) | apply State.onAxis_keeps | split | (dsimp only)))

theorem State.cmdStop_keeps {msk : Nat} {sb s : State} (ses : Fin 5) (a : Fin 16) (hmsk : Sub 24583 msk) (hK : Keeps msk sb s) : Keeps msk sb (State.cmdStop s ses a) := by
  unfold State.cmdStop; (with_reducible repeat' (first | assumption | (refine Sub.of 24583 ?_ hmsk; with_unfolding_all rfl) | (refine State.motStop_keeps _ (Sub.of 24583 (by with_unfolding_all rfl) hmsk) ?_ _ (by assumption)) | apply State.sesCmd_keeps | apply State.fwdWrite_keeps | intro _ | (dsimp only) | (rename_i e; replace e := Option.map_eq_some_iff.mp e; obtain ⟨_, e, rfl⟩ := e) | (rename_i e; cases e; done) | (rename_i e; injection e with e; subst e) | (rename_i e; dsimp only at e) | (rename_i e; split at e)))

theorem execMotStop_keeps {msk : Nat} {sb s : State} (ses : Fin 5) (a : Fin 16) (hmsk : Sub 24583 msk) (hK : Keeps msk sb s) : ∀ t, execMotStop ses a s = .next t → Keeps msk sb t := by
  intro t e; unfold execMotStop at e
  repeat' (first | (cases e; done) | (injection e with e; subst e) | split at e)
  all_goals (with_reducible repeat' (first | assumption | (refine Sub.of 24583 ?_ hmsk; with_unfolding_all rfl) | apply State.cmdStop_keeps | (dsimp only)))

theorem State.targetFx_keeps {msk : Nat} {sb s : State} (a : Fin 16) (hi : Nat) (hmsk : Sub 8196 msk) (hK : Keeps msk sb s) : Keeps msk sb (State.targetFx s a hi) := by
  unfold State.targetFx; (with_reducible repeat' (first | assumption | (refine Sub.of 8196 ?_ hmsk; with_unfolding_all rfl) | apply State.setF_keeps | apply State.onAxis_keeps | intro _ | split | (dsimp only)))

theorem State.setTarget_keeps {msk : Nat} {sb s : State} (ses : Fin 5) (a : Fin 16) (hi : Nat) (hmsk : Sub 24582 msk) (hK : Keeps msk sb s) : ∀ t, State.setTarget s ses a hi = some t → Keeps msk sb t := by
  intro t e; unfold State.setTarget at e; (try dsimp only at e)
  repeat' (first | (cases e; done) | (injection e with e; subst e) | split at e)
  all_goals (with_reducible repeat' (first | assumption | (refine Sub.of 24582 ?_ hmsk; with_unfolding_all rfl) | apply State.targetFx_keeps | apply State.auditWrite_keeps | apply State.fwdWrite_keeps | split | (dsimp only)))

theorem State.cmdTarget_keeps {msk : Nat} {sb s : State} (ses : Fin 5) (a : Fin 16) (hi : Nat) (hmsk : Sub 24583 msk) (hK : Keeps msk sb s) : Keeps msk sb (State.cmdTarget s ses a hi) := by
  unfold State.cmdTarget; (with_reducible repeat' (first | assumption | (refine Sub.of 24583 ?_ hmsk; with_unfolding_all rfl) | (refine State.setTarget_keeps _ _ _ (Sub.of 24583 (by with_unfolding_all rfl) hmsk) ?_ _ (by assumption)) | apply State.sesWriteBy_keeps | intro _ | (dsimp only) | (rename_i e; replace e := Option.map_eq_some_iff.mp e; obtain ⟨_, e, rfl⟩ := e) | (rename_i e; cases e; done) | (rename_i e; injection e with e; subst e) | (rename_i e; dsimp only at e) | (rename_i e; split at e)))

theorem execTargetWrite_keeps {msk : Nat} {sb s : State} (ses : Fin 5) (a : Fin 16) (hi : BitVec 16) (hmsk : Sub 24583 msk) (hK : Keeps msk sb s) : ∀ t, execTargetWrite ses a hi s = .next t → Keeps msk sb t := by
  intro t e; unfold execTargetWrite at e
  repeat' (first | (cases e; done) | (injection e with e; subst e) | split at e)
  all_goals (with_reducible repeat' (first | assumption | (refine Sub.of 24583 ?_ hmsk; with_unfolding_all rfl) | apply State.cmdTarget_keeps | (dsimp only)))

theorem State.onPhase_keeps {msk : Nat} {sb s : State} (a : Fin 16) (phaseB : Bool) (f : Phase → Phase) (hmsk : Sub 8192 msk) (hK : Keeps msk sb s) : Keeps msk sb (State.onPhase s a phaseB f) := by
  unfold State.onPhase; (with_reducible repeat' (first | assumption | (refine Sub.of 8192 ?_ hmsk; with_unfolding_all rfl) | apply State.onAxis_keeps | intro _ | split | (dsimp only)))

theorem execChopperOffEnd_keeps {msk : Nat} {sb s : State} (a : Fin 12) (phaseB : Bool) (hmsk : Sub 8192 msk) (hK : Keeps msk sb s) : ∀ t, execChopperOffEnd a phaseB s = .next t → Keeps msk sb t := by
  intro t e; unfold execChopperOffEnd at e
  repeat' (first | (cases e; done) | (injection e with e; subst e) | split at e)
  all_goals (with_reducible repeat' (first | assumption | (refine Sub.of 8192 ?_ hmsk; with_unfolding_all rfl) | apply State.live_keeps | apply State.when_keeps | apply State.onPhase_keeps | apply State.onAxis_keeps | intro _ | split | (dsimp only)))

theorem execShortHoldEnd_keeps {msk : Nat} {sb s : State} (a : Fin 12) (phaseB : Bool) (hmsk : Sub 8192 msk) (hK : Keeps msk sb s) : ∀ t, execShortHoldEnd a phaseB s = .next t → Keeps msk sb t := by
  intro t e; unfold execShortHoldEnd at e
  repeat' (first | (cases e; done) | (injection e with e; subst e) | split at e)
  all_goals (with_reducible repeat' (first | assumption | (refine Sub.of 8192 ?_ hmsk; with_unfolding_all rfl) | apply State.live_keeps | apply State.onAxis_keeps | intro _ | split | (dsimp only)))

end Sys2Proof.Machine
end

