-- ==== Sys2Proof/Laws/KeepsFlt.lean ====
section
/-! SUPPORT. What each operation of Machine/Flt.lean keeps: the queue, and the canonical form of the register maps. -/
set_option Elab.async false
namespace Sys2Proof.Machine

theorem State.onBoard_keeps {msk : Nat} {sb s : State} (j : Nat) (f : Board → Board) (hmsk : Sub 65536 msk) (hK : Keeps msk sb s) : Keeps msk sb (State.onBoard s j f) := by
  unfold State.onBoard; (with_reducible repeat' (first | assumption | (refine Sub.of 65536 ?_ hmsk; with_unfolding_all rfl) | (refine fun (hb : msk.testBit 24 = false) => ?_; intro _; first | rfl | (dsimp only; split <;> rfl)) | apply State.onFlt_keeps | intro _ | (dsimp only)))

theorem State.retireDue_keeps {msk : Nat} {sb s : State} (j : Nat) (hmsk : Sub 16842752 msk) (hK : Keeps msk sb s) : Keeps msk sb (State.retireDue s j) := by
  unfold State.retireDue; (with_reducible repeat' (first | assumption | (refine Sub.of 16842752 ?_ hmsk; with_unfolding_all rfl) | (refine fun (hb : msk.testBit 24 = false) => ?_; with_unfolding_all exact (Sub.off (p := .due) 16842752 hmsk rfl hb).elim) | apply State.onFlt_keeps | intro _ | split | (dsimp only)))

theorem State.classed_keeps {msk : Nat} {sb s : State} (j : Nat) (hmsk : Sub 16842764 msk) (hK : Keeps msk sb s) : Keeps msk sb (State.classed s j) := by
  unfold State.classed; (with_reducible repeat' (first | assumption | (refine Sub.of 16842764 ?_ hmsk; with_unfolding_all rfl) | apply State.onBoard_keeps | apply State.event_keeps | apply State.retireDue_keeps | intro _ | split | (dsimp only)))

theorem State.upset_keeps {msk : Nat} {sb s : State} (j : Nat) (hmsk : Sub 16842764 msk) (hK : Keeps msk sb s) : Keeps msk sb (State.upset s j) := by
  unfold State.upset; (with_reducible repeat' (first | assumption | (refine Sub.of 16842764 ?_ hmsk; with_unfolding_all rfl) | (refine fun (hb : msk.testBit 24 = false) => ?_; with_unfolding_all exact (Sub.off (p := .due) 16842764 hmsk rfl hb).elim) | apply State.onBoard_keeps | apply State.bump_keeps | apply State.onFlt_keeps | apply State.classed_keeps | intro _ | split | (dsimp only)))

theorem State.markRetired_keeps {msk : Nat} {sb s : State} (j : Nat) (hmsk : Sub 16842752 msk) (hK : Keeps msk sb s) : Keeps msk sb (State.markRetired s j) := by
  unfold State.markRetired; (with_reducible repeat' (first | assumption | (refine Sub.of 16842752 ?_ hmsk; with_unfolding_all rfl) | (refine fun (hb : msk.testBit 24 = false) => ?_; with_unfolding_all exact (Sub.off (p := .due) 16842752 hmsk rfl hb).elim) | apply State.onBoard_keeps | apply State.onFlt_keeps | intro _ | (dsimp only)))

theorem State.clearBoards_keeps {msk : Nat} {sb s : State} (all : Bool) (p : Nat → Bool) (hmsk : Sub 16842752 msk) (hK : Keeps msk sb s) : Keeps msk sb (State.clearBoards s all p) := by
  unfold State.clearBoards; (with_reducible repeat' (first | assumption | (refine Sub.of 16842752 ?_ hmsk; with_unfolding_all rfl) | (refine fun (hb : msk.testBit 24 = false) => ?_; with_unfolding_all exact (Sub.off (p := .due) 16842752 hmsk rfl hb).elim) | apply State.onFlt_keeps | intro _ | split | (dsimp only)))

theorem execScoreboardBucket_keeps {msk : Nat} {sb s : State} (kind : Fin 7) (hmsk : Sub 65536 msk) (hK : Keeps msk sb s) : ∀ t, execScoreboardBucket kind s = .next t → Keeps msk sb t := by
  intro t e; unfold execScoreboardBucket at e
  repeat' (first | (cases e; done) | (injection e with e; subst e) | split at e)
  all_goals (with_reducible repeat' (first | assumption | (refine Sub.of 65536 ?_ hmsk; with_unfolding_all rfl) | (refine fun (hb : msk.testBit 24 = false) => ?_; intro _; first | rfl | (dsimp only; split <;> rfl)) | apply State.live_keeps | apply State.when_keeps | apply State.onFlt_keeps | intro _ | split | (dsimp only)))

theorem Flt.countHead_due (t : Flt) (b : Nat) (h : Head) (l : List Byte) : (t.countHead b h l).due = t.due := by
  unfold Flt.countHead
  generalize upto (h.n / 64) = gs
  induction gs generalizing t with
  | nil => rfl
  | cons g gs ih => exact ih (t.addDrops (nozKey b h.h g) (h.drops l g))

theorem Flt.countRec_due (b : Nat) : ∀ (hs : List Head) (t : Flt) (l : List Byte), (t.countRec b hs l).due = t.due
  | [], _, _ => rfl
  | h :: hs, t, l => (Flt.countRec_due b hs _ _).trans (t.countHead_due b h _)

theorem State.countDrops_keeps {m : Nat} {sb s : State} (n : Nat) (l : List Byte) (hm : Sub 65536 m) (hK : Keeps m sb s) :
    Keeps m sb (State.countDrops s n l) :=
  State.onFlt_keeps _ (Sub.of 65536 rfl hm) hK (fun _ _ => Flt.countRec_due _ _ _ _)

end Sys2Proof.Machine
end

