-- ==== Sys2Proof/Laws/KeepsEncode.lean ====
section
/-! SUPPORT. What each operation of Machine/Encode.lean keeps: the queue, and the canonical form of the register maps. -/
set_option Elab.async false
namespace Sys2Proof.Machine

theorem State.onCh_keeps {msk : Nat} {sb s : State} (ch : Fin 4) (f : EncCh → EncCh) (hmsk : Sub 64 msk) (hK : Keeps msk sb s) : Keeps msk sb (State.onCh s ch f) := by
  unfold State.onCh; (with_reducible repeat' (first | assumption | (refine Sub.of 64 ?_ hmsk; with_unfolding_all rfl) | apply State.onEnc_keeps | intro _ | (dsimp only)))

theorem State.useAlt_keeps {msk : Nat} {sb s : State} (hmsk : Sub 64 msk) (hK : Keeps msk sb s) : Keeps msk sb (State.useAlt s) := by
  unfold State.useAlt; (with_reducible repeat' (first | assumption | (refine Sub.of 64 ?_ hmsk; with_unfolding_all rfl) | apply State.onEnc_keeps | intro _ | (dsimp only)))

theorem State.judgeSource_keeps {msk : Nat} {sb s : State} (hmsk : Sub 64 msk) (hK : Keeps msk sb s) : Keeps msk sb (State.judgeSource s) := by
  unfold State.judgeSource; (with_reducible repeat' (first | assumption | (refine Sub.of 64 ?_ hmsk; with_unfolding_all rfl) | apply State.onEnc_keeps | apply State.useAlt_keeps | intro _ | split | (dsimp only)))

theorem State.moveWeb_keeps {msk : Nat} {sb s : State} (d : Int) (hmsk : Sub 64 msk) (hK : Keeps msk sb s) : Keeps msk sb (State.moveWeb s d) := by
  unfold State.moveWeb; (with_reducible repeat' (first | assumption | (refine Sub.of 64 ?_ hmsk; with_unfolding_all rfl) | apply State.onEnc_keeps | intro _ | split | (dsimp only)))

theorem State.webJump_keeps {msk : Nat} {sb s : State} (ch : Fin 4) (d : Int) (hmsk : Sub 64 msk) (hK : Keeps msk sb s) : Keeps msk sb (State.webJump s ch d) := by
  unfold State.webJump; (with_reducible repeat' (first | assumption | (refine Sub.of 64 ?_ hmsk; with_unfolding_all rfl) | apply State.onEnc_keeps | intro _ | split | (dsimp only)))

theorem State.passSample_keeps {msk : Nat} {sb s : State} (t : Nat) (hmsk : Sub 64 msk) (hK : Keeps msk sb s) : Keeps msk sb (State.passSample s t) := by
  unfold State.passSample; (with_reducible repeat' (first | assumption | (refine Sub.of 64 ?_ hmsk; with_unfolding_all rfl) | apply State.onEnc_keeps | intro _ | (dsimp only)))

theorem State.restCheck_keeps {msk : Nat} {sb s : State} (ch : Fin 4) (hmsk : Sub 64 msk) (hK : Keeps msk sb s) : Keeps msk sb (State.restCheck s ch) := by
  unfold State.restCheck; (with_reducible repeat' (first | assumption | (refine Sub.of 64 ?_ hmsk; with_unfolding_all rfl) | apply State.onCh_keeps | intro _ | (dsimp only)))

theorem State.sampleFx_keeps {msk : Nat} {sb s : State} (ch : Fin 4) (o : SampleOut) (hmsk : Sub 16842828 msk) (hK : Keeps msk sb s) : Keeps msk sb (State.sampleFx s ch o) := by
  unfold State.sampleFx; (with_reducible repeat' (first | assumption | (refine Sub.of 16842828 ?_ hmsk; with_unfolding_all rfl) | apply State.when_keeps | apply State.setF_keeps | apply State.bump_keeps | apply State.upset_keeps | apply State.event_keeps | apply State.webJump_keeps | intro _ | split | (dsimp only)))

theorem State.slewTick_keeps {msk : Nat} {sb s : State} (ch : Fin 4) (hmsk : Sub 68 msk) (hK : Keeps msk sb s) : Keeps msk sb (State.slewTick s ch) := by
  unfold State.slewTick; (with_reducible repeat' (first | assumption | (refine Sub.of 68 ?_ hmsk; with_unfolding_all rfl) | apply State.onCh_keeps | apply State.setF_keeps | intro _ | split | (dsimp only)))

theorem State.encSample_keeps {msk : Nat} {sb s : State} (ch : Fin 4) (sin cos idx : BitVec 14) (hmsk : Sub 16842828 msk) (hK : Keeps msk sb s) : Keeps msk sb (State.encSample s ch sin cos idx) := by
  unfold State.encSample; (with_reducible repeat' (first | assumption | (refine Sub.of 16842828 ?_ hmsk; with_unfolding_all rfl) | apply State.onEnc_keeps | apply State.onCh_keeps | apply State.moveWeb_keeps | apply State.sampleFx_keeps | apply State.slewTick_keeps | apply State.passSample_keeps | intro _ | split | (dsimp only)))

theorem State.posSet_keeps {msk : Nat} {sb s : State} (ch : Fin 4) (hmsk : Sub 64 msk) (hK : Keeps msk sb s) : Keeps msk sb (State.posSet s ch) := by
  unfold State.posSet; (with_reducible repeat' (first | assumption | (refine Sub.of 64 ?_ hmsk; with_unfolding_all rfl) | apply State.onCh_keeps | apply State.webJump_keeps | intro _ | (dsimp only)))

theorem State.encFx_keeps {msk : Nat} {sb s : State} (ch : Fin 4) (w : Word) (hmsk : Sub 64 msk) (hK : Keeps msk sb s) : Keeps msk sb (State.encFx s ch w) := by
  unfold State.encFx; (with_reducible repeat' (first | assumption | (refine Sub.of 64 ?_ hmsk; with_unfolding_all rfl) | apply State.when_keeps | apply State.onCh_keeps | apply State.posSet_keeps | intro _ | (dsimp only)))

theorem State.encCmd_keeps {msk : Nat} {sb s : State} (ses : Fin 5) (ch : Fin 4) (w : Word) (hmsk : Sub 16455 msk) (hK : Keeps msk sb s) : Keeps msk sb (State.encCmd s ses ch w) := by
  unfold State.encCmd; (with_reducible repeat' (first | assumption | (refine Sub.of 16455 ?_ hmsk; with_unfolding_all rfl) | apply State.sesCmd_keeps | apply State.when_keeps | apply State.encFx_keeps | apply State.onCh_keeps | apply State.fwdWrite_keeps | intro _ | split | (dsimp only) | (rename_i e; replace e := Option.map_eq_some_iff.mp e; obtain ⟨_, e, rfl⟩ := e) | (rename_i e; cases e; done) | (rename_i e; injection e with e; subst e) | (rename_i e; dsimp only at e) | (rename_i e; split at e)))

theorem execEncArm_keeps {msk : Nat} {sb s : State} (ses : Fin 5) (ch : Fin 4) (hmsk : Sub 16455 msk) (hK : Keeps msk sb s) : ∀ t, execEncArm ses ch s = .next t → Keeps msk sb t := by
  intro t e; unfold execEncArm at e
  repeat' (first | (cases e; done) | (injection e with e; subst e) | split at e)
  all_goals (with_reducible repeat' (first | assumption | (refine Sub.of 16455 ?_ hmsk; with_unfolding_all rfl) | apply State.encCmd_keeps | (dsimp only)))

theorem execEncPosSet_keeps {msk : Nat} {sb s : State} (ses : Fin 5) (ch : Fin 4) (hmsk : Sub 16455 msk) (hK : Keeps msk sb s) : ∀ t, execEncPosSet ses ch s = .next t → Keeps msk sb t := by
  intro t e; unfold execEncPosSet at e
  repeat' (first | (cases e; done) | (injection e with e; subst e) | split at e)
  all_goals (with_reducible repeat' (first | assumption | (refine Sub.of 16455 ?_ hmsk; with_unfolding_all rfl) | apply State.encCmd_keeps | (dsimp only)))

theorem execEncCal_keeps {msk : Nat} {sb s : State} (ses : Fin 5) (ch : Fin 4) (hmsk : Sub 16455 msk) (hK : Keeps msk sb s) : ∀ t, execEncCal ses ch s = .next t → Keeps msk sb t := by
  intro t e; unfold execEncCal at e
  repeat' (first | (cases e; done) | (injection e with e; subst e) | split at e)
  all_goals (with_reducible repeat' (first | assumption | (refine Sub.of 16455 ?_ hmsk; with_unfolding_all rfl) | apply State.encCmd_keeps | (dsimp only)))

theorem State.encCalDone_keeps {msk : Nat} {sb s : State} (ch : Fin 4) (hmsk : Sub 524356 msk) (hK : Keeps msk sb s) : Keeps msk sb (State.encCalDone s ch) := by
  unfold State.encCalDone; (with_reducible repeat' (first | assumption | (refine Sub.of 524356 ?_ hmsk; with_unfolding_all rfl) | apply State.drawn_keeps | apply State.onCh_keeps | apply State.setF_keeps | intro _ | split | (dsimp only)))

theorem execEncCalComplete_keeps {msk : Nat} {sb s : State} (ch : Fin 4) (hmsk : Sub 524356 msk) (hK : Keeps msk sb s) : ∀ t, execEncCalComplete ch s = .next t → Keeps msk sb t := by
  intro t e; unfold execEncCalComplete at e
  repeat' (first | (cases e; done) | (injection e with e; subst e) | split at e)
  all_goals (with_reducible repeat' (first | assumption | (refine Sub.of 524356 ?_ hmsk; with_unfolding_all rfl) | apply State.live_keeps | apply State.encCalDone_keeps | intro _ | (dsimp only)))

theorem State.encCalDrop_keeps {msk : Nat} {sb s : State} (ch : Fin 4) (hmsk : Sub 2112 msk) (hK : Keeps msk sb s) : Keeps msk sb (State.encCalDrop s ch) := by
  unfold State.encCalDrop; (with_reducible repeat' (first | assumption | (refine Sub.of 2112 ?_ hmsk; with_unfolding_all rfl) | apply State.onCh_keeps | apply State.onChl_keeps | intro _ | split | (dsimp only)))

theorem execEncCalTimeout_keeps {msk : Nat} {sb s : State} (ch : Fin 4) (hmsk : Sub 2112 msk) (hK : Keeps msk sb s) : ∀ t, execEncCalTimeout ch s = .next t → Keeps msk sb t := by
  intro t e; unfold execEncCalTimeout at e
  repeat' (first | (cases e; done) | (injection e with e; subst e) | split at e)
  all_goals (with_reducible repeat' (first | assumption | (refine Sub.of 2112 ?_ hmsk; with_unfolding_all rfl) | apply State.live_keeps | apply State.encCalDrop_keeps | intro _ | split | (dsimp only)))

theorem execEncStillTimeout_keeps {msk : Nat} {sb s : State} (ch : Fin 4) (hmsk : Sub 64 msk) (hK : Keeps msk sb s) : ∀ t, execEncStillTimeout ch s = .next t → Keeps msk sb t := by
  intro t e; unfold execEncStillTimeout at e
  repeat' (first | (cases e; done) | (injection e with e; subst e) | split at e)
  all_goals (with_reducible repeat' (first | assumption | (refine Sub.of 64 ?_ hmsk; with_unfolding_all rfl) | apply State.live_keeps | apply State.restCheck_keeps | intro _ | (dsimp only)))

theorem State.sourceRestart_keeps {msk : Nat} {sb s : State} (hmsk : Sub 64 msk) (hK : Keeps msk sb s) : Keeps msk sb (State.sourceRestart s) := by
  unfold State.sourceRestart; (with_reducible repeat' (first | assumption | (refine Sub.of 64 ?_ hmsk; with_unfolding_all rfl) | apply State.onEnc_keeps | apply State.useAlt_keeps | intro _ | split | (dsimp only)))

theorem State.encRestart_keeps {msk : Nat} {sb s : State} (hmsk : Sub 64 msk) (hK : Keeps msk sb s) : Keeps msk sb (State.encRestart s) := by
  unfold State.encRestart; (with_reducible repeat' (first | assumption | (refine Sub.of 64 ?_ hmsk; with_unfolding_all rfl) | apply State.onEnc_keeps | apply State.sourceRestart_keeps | intro _ | (dsimp only)))

theorem State.encWake_keeps {msk : Nat} {sb s : State} (hmsk : Sub 64 msk) (hK : Keeps msk sb s) : Keeps msk sb (State.encWake s) := by
  unfold State.encWake; (with_reducible repeat' (first | assumption | (refine Sub.of 64 ?_ hmsk; with_unfolding_all rfl) | apply State.onEnc_keeps | intro _ | (dsimp only)))

theorem State.encOff_keeps {msk : Nat} {sb s : State} (ch : Fin 4) (hmsk : Sub 64 msk) (hK : Keeps msk sb s) : Keeps msk sb (State.encOff s ch) := by
  unfold State.encOff; (with_reducible repeat' (first | assumption | (refine Sub.of 64 ?_ hmsk; with_unfolding_all rfl) | apply State.onCh_keeps | intro _ | (dsimp only)))

end Sys2Proof.Machine
end

