-- ==== Sys2Proof/Laws/KeepsFine.lean ====
section
/-! SUPPORT. What each operation of Machine/Fine.lean keeps: the queue, and the canonical form of the register maps. -/
set_option Elab.async false
namespace Sys2Proof.Machine

theorem State.onLHead_keeps {msk : Nat} {sb s : State} (i : Nat) (f : LHead → LHead) (hmsk : Sub 128 msk) (hK : Keeps msk sb s) : Keeps msk sb (State.onLHead s i f) := by
  unfold State.onLHead; (with_reducible repeat' (first | assumption | (refine Sub.of 128 ?_ hmsk; with_unfolding_all rfl) | (refine fun (hb : msk.testBit 22 = false) => ?_; intro _; first | rfl | (dsimp only; split <;> rfl)) | apply State.onLtm_keeps | intro _ | (dsimp only)))

theorem State.fineOne_keeps {msk : Nat} {sb s : State} (b : Fin 8) (h : Nat) (hmsk : Sub 140 msk) (hK : Keeps msk sb s) : Keeps msk sb (State.fineOne s b h) := by
  unfold State.fineOne; (with_reducible repeat' (first | assumption | (refine Sub.of 140 ?_ hmsk; with_unfolding_all rfl) | apply State.when_keeps | apply State.raise_keeps | apply State.onLHead_keeps | intro _ | (dsimp only)))

theorem State.fineScan_keeps {msk : Nat} {sb s : State} (hmsk : Sub 140 msk) (hK : Keeps msk sb s) : Keeps msk sb (State.fineScan s) := by
  unfold State.fineScan; (with_reducible repeat' (first | assumption | (refine Sub.of 140 ?_ hmsk; with_unfolding_all rfl) | apply State.fineOne_keeps | apply Keeps.foldl | apply Keeps.foldlFst | intro _ | (dsimp only)))

theorem State.fineStart_keeps {msk : Nat} {sb s : State} (hmsk : Sub 140 msk) (hK : Keeps msk sb s) : Keeps msk sb (State.fineStart s) := by
  unfold State.fineStart; (with_reducible repeat' (first | assumption | (refine Sub.of 140 ?_ hmsk; with_unfolding_all rfl) | apply State.fineOne_keeps | apply State.onLHead_keeps | apply Keeps.foldl | apply Keeps.foldlFst | intro _ | (dsimp only)))

theorem State.fineSteps_keeps {msk : Nat} {sb s : State} (dec : Bool) (hmsk : Sub 140 msk) (hK : Keeps msk sb s) : Keeps msk sb (State.fineSteps s dec) := by
  unfold State.fineSteps; (with_reducible repeat' (first | assumption | (refine Sub.of 140 ?_ hmsk; with_unfolding_all rfl) | (refine fun (hb : msk.testBit 22 = false) => ?_; intro _; first | rfl | (dsimp only; split <;> rfl)) | apply State.fineScan_keeps | apply State.onLHead_keeps | apply State.onLtm_keeps | apply Keeps.foldl | apply Keeps.foldlFst | intro _ | (dsimp only)))

theorem State.headsNew_keeps {msk : Nat} {sb s : State} (b : Fin 8) (was : List Nat) (hmsk : Sub 140 msk) (hK : Keeps msk sb s) : Keeps msk sb (State.headsNew s b was) := by
  unfold State.headsNew; (with_reducible repeat' (first | assumption | (refine Sub.of 140 ?_ hmsk; with_unfolding_all rfl) | apply State.onLHead_keeps | apply State.fineOne_keeps | apply Keeps.foldl | apply Keeps.foldlFst | intro _ | split | (dsimp only)))

end Sys2Proof.Machine
end

