-- ==== Sys2Proof/Laws/KeepsCaravan.lean ====
section
/-! SUPPORT. What each operation of Machine/Caravan.lean keeps: the queue, and the canonical form of the register maps. -/
set_option Elab.async false
namespace Sys2Proof.Machine

theorem State.qOffer_keeps {msk : Nat} {sb s : State} (q : Fin 64) (e : Entry) (hmsk : Sub 12 msk) (hK : Keeps msk sb s) : Keeps msk sb (State.qOffer s q e) := by
  unfold State.qOffer; (with_reducible repeat' (first | assumption | (refine Sub.of 12 ?_ hmsk; with_unfolding_all rfl) | apply State.evtPut_keeps | apply State.settle_keeps | apply State.qPut_keeps | apply State.onQ_keeps | intro _ | split | (dsimp only)))

theorem State.qFree_keeps {msk : Nat} {sb s : State} (q : Fin 64) (hmsk : Sub 8 msk) (hK : Keeps msk sb s) : Keeps msk sb (State.qFree s q) := by
  unfold State.qFree; (with_reducible repeat' (first | assumption | (refine Sub.of 8 ?_ hmsk; with_unfolding_all rfl) | apply State.onQ_keeps | intro _ | (dsimp only)))

theorem State.qFlush_keeps {msk : Nat} {sb s : State} (q : Fin 64) (hmsk : Sub 8 msk) (hK : Keeps msk sb s) : Keeps msk sb (State.qFlush s q) := by
  unfold State.qFlush; (with_reducible repeat' (first | assumption | (refine Sub.of 8 ?_ hmsk; with_unfolding_all rfl) | apply State.onQ_keeps | intro _ | (dsimp only)))

theorem State.markLost_keeps {msk : Nat} {sb s : State} (hmsk : Sub 16 msk) (hK : Keeps msk sb s) : ∀ (z0 : List ArchPiece), Keeps msk sb (State.markLost s z0) := by
  intro z0
  induction z0 generalizing s with
  | nil => (unfold State.markLost); (with_reducible repeat' (first | assumption | (refine Sub.of 16 ?_ hmsk; with_unfolding_all rfl) | apply State.modJob_keeps | intro _ | split | (dsimp only)))
  | cons c k ih => (unfold State.markLost); (with_reducible repeat' (first | assumption | (refine Sub.of 16 ?_ hmsk; with_unfolding_all rfl) | apply ih | apply State.modJob_keeps | intro _ | split | (dsimp only)))

theorem execMoverTransfer_keeps {msk : Nat} {sb s : State} (q : Fin 64) (hmsk : Sub 8 msk) (hK : Keeps msk sb s) : ∀ t, execMoverTransfer q s = .next t → Keeps msk sb t := by
  intro t e; unfold execMoverTransfer at e
  repeat' (first | (cases e; done) | (injection e with e; subst e) | split at e)
  all_goals (with_reducible repeat' (first | assumption | (refine Sub.of 8 ?_ hmsk; with_unfolding_all rfl) | apply State.live_keeps | apply State.moveOne_keeps | intro _ | (dsimp only)))

theorem State.resume_keeps {msk : Nat} {sb s : State} (q : Fin 64) (hmsk : Sub 28 msk) (hK : Keeps msk sb s) : Keeps msk sb (State.resume s q) := by
  unfold State.resume; (with_reducible repeat' (first | assumption | (refine Sub.of 28 ?_ hmsk; with_unfolding_all rfl) | apply State.onQ_keeps | apply State.qPut_keeps | apply State.onIng_keeps | intro _ | split | (dsimp only)))

theorem execEvqLostInsert_keeps {msk : Nat} {sb s : State} (i : Fin 4) (hmsk : Sub 12 msk) (hK : Keeps msk sb s) : ∀ t, execEvqLostInsert i s = .next t → Keeps msk sb t := by
  intro t e; unfold execEvqLostInsert at e
  repeat' (first | (cases e; done) | (injection e with e; subst e) | split at e)
  all_goals (with_reducible repeat' (first | assumption | (refine Sub.of 12 ?_ hmsk; with_unfolding_all rfl) | apply State.live_keeps | apply State.evqLost_keeps | intro _ | (dsimp only)))

theorem State.ringTest_keeps {msk : Nat} {sb s : State} (q : Fin 64) (hmsk : Sub 8 msk) (hK : Keeps msk sb s) : Keeps msk sb (State.ringTest s q) := by
  unfold State.ringTest; (with_reducible repeat' (first | assumption | (refine Sub.of 8 ?_ hmsk; with_unfolding_all rfl) | apply State.onQ_keeps | intro _ | (dsimp only)))

theorem State.duneFx_keeps {msk : Nat} {sb s : State} (q : Fin 64) (size : Bool) (data : Word) (hmsk : Sub 12 msk) (hK : Keeps msk sb s) : Keeps msk sb (State.duneFx s q size data) := by
  unfold State.duneFx; (with_reducible repeat' (first | assumption | (refine Sub.of 12 ?_ hmsk; with_unfolding_all rfl) | apply State.setF_keeps | apply State.ringTest_keeps | (dsimp only)))

theorem State.duneWrite_keeps {msk : Nat} {sb s : State} (ses : Fin 5) (q : Fin 64) (size : Bool) (data : Word) (hmsk : Sub 16399 msk) (hK : Keeps msk sb s) : Keeps msk sb (State.duneWrite s ses q size data) := by
  unfold State.duneWrite; (with_reducible repeat' (first | assumption | (refine Sub.of 16399 ?_ hmsk; with_unfolding_all rfl) | apply State.sesWriteBy_keeps | apply State.duneFx_keeps | apply State.auditWrite_keeps | apply State.forward_keeps | apply Keeps.getD | intro _ | split | (dsimp only) | (rename_i e; replace e := Option.map_eq_some_iff.mp e; obtain ⟨_, e, rfl⟩ := e) | (rename_i e; cases e; done) | (rename_i e; injection e with e; subst e) | (rename_i e; dsimp only at e) | (rename_i e; split at e)))

theorem execDuneRingWrite_keeps {msk : Nat} {sb s : State} (ses : Fin 5) (q : Fin 64) (size : Bool) (data : Word) (hmsk : Sub 16399 msk) (hK : Keeps msk sb s) : ∀ t, execDuneRingWrite ses q size data s = .next t → Keeps msk sb t := by
  intro t e; unfold execDuneRingWrite at e
  repeat' (first | (cases e; done) | (injection e with e; subst e) | split at e)
  all_goals (with_reducible repeat' (first | assumption | (refine Sub.of 16399 ?_ hmsk; with_unfolding_all rfl) | apply State.duneWrite_keeps | (dsimp only)))

end Sys2Proof.Machine
end

