-- ==== Sys2Proof/Laws/KeepsRaster.lean ====
section
/-! SUPPORT. What each operation of Machine/Raster.lean keeps: the queue, and the canonical form of the register maps. -/
set_option Elab.async false
namespace Sys2Proof.Machine

theorem State.settleStarts_keeps {msk : Nat} {sb s : State} (hmsk : Sub 1 msk) (hK : Keeps msk sb s) : Keeps msk sb (State.settleStarts s) := by
  unfold State.settleStarts; (with_reducible repeat' (first | assumption | (refine Sub.of 1 ?_ hmsk; with_unfolding_all rfl) | apply State.onJobs_keeps | (dsimp only)))

theorem State.pumpOne_keeps {msk : Nat} {sb s : State} (e : Nat × Entry) (hmsk : Sub 12 msk) (hK : Keeps msk sb s) : Keeps msk sb (State.pumpOne s e).1 := by
  unfold State.pumpOne; (with_reducible repeat' (first | assumption | (refine Sub.of 12 ?_ hmsk; with_unfolding_all rfl) | apply State.settle_keeps | apply State.qPut_keeps | split | (dsimp only)))

theorem State.pumpList_keeps {msk : Nat} {sb s : State} (hmsk : Sub 12 msk) (hK : Keeps msk sb s) : ∀ (z0 : List (Nat × Entry)) (z1 : List Nat), Keeps msk sb (State.pumpList s z0 z1).1 := by
  intro z0 z1
  induction z0 generalizing s z1 with
  | nil => (unfold State.pumpList); (with_reducible repeat' (first | assumption | (refine Sub.of 12 ?_ hmsk; with_unfolding_all rfl) | apply State.pumpOne_keeps | split | (dsimp only)))
  | cons c k ih => (unfold State.pumpList); (with_reducible repeat' (first | assumption | (refine Sub.of 12 ?_ hmsk; with_unfolding_all rfl) | apply ih | apply State.pumpOne_keeps | split | (dsimp only)))

theorem State.pump_keeps {msk : Nat} {sb s : State} (b : Fin 8) (hmsk : Sub 44 msk) (hK : Keeps msk sb s) : Keeps msk sb (State.pump s b) := by
  unfold State.pump; (with_reducible repeat' (first | assumption | (refine Sub.of 44 ?_ hmsk; with_unfolding_all rfl) | apply State.pumpList_keeps | apply State.onBar_keeps | intro _ | (dsimp only)))

theorem State.slotStat_keeps {msk : Nat} {sb s : State} (b : Fin 8) (objs : Bool) (ns : List SlotNeed) (hmsk : Sub 4 msk) (hK : Keeps msk sb s) : Keeps msk sb (State.slotStat s b objs ns) := by
  unfold State.slotStat; (with_reducible repeat' (first | assumption | (refine Sub.of 4 ?_ hmsk; with_unfolding_all rfl) | apply State.setF_keeps | apply Keeps.foldl | apply Keeps.foldlFst | intro _ | split | (dsimp only)))

theorem State.lineStat_keeps {msk : Nat} {sb s : State} (b : Fin 8) (h : BitVec 16) (l rep : Nat) (hmsk : Sub 36 msk) (hK : Keeps msk sb s) : Keeps msk sb (State.lineStat s b h l rep) := by
  unfold State.lineStat; (with_reducible repeat' (first | assumption | (refine Sub.of 36 ?_ hmsk; with_unfolding_all rfl) | apply State.setF_keeps | apply State.onBar_keeps | intro _ | (dsimp only)))

theorem State.layerWait_keeps {msk : Nat} {sb s : State} (b : Fin 8) (n obj : Nat) (hmsk : Sub 44 msk) (hK : Keeps msk sb s) : Keeps msk sb (State.layerWait s b n obj) := by
  unfold State.layerWait; (with_reducible repeat' (first | assumption | (refine Sub.of 44 ?_ hmsk; with_unfolding_all rfl) | apply State.bump_keeps | apply State.raise_keeps | apply State.onBar_keeps | intro _ | split | (dsimp only)))

theorem State.badRefs_keeps {msk : Nat} {sb s : State} (b : Fin 8) (ns : List SlotNeed) (hmsk : Sub 44 msk) (hK : Keeps msk sb s) : Keeps msk sb (State.badRefs s b ns) := by
  unfold State.badRefs; (with_reducible repeat' (first | assumption | (refine Sub.of 44 ?_ hmsk; with_unfolding_all rfl) | apply State.raise_keeps | apply State.bump_keeps | apply State.onBar_keeps | apply Keeps.foldl | apply Keeps.foldlFst | apply Keeps.getD | intro _ | split | (dsimp only) | (rename_i e; replace e := Option.map_eq_some_iff.mp e; obtain ⟨_, e, rfl⟩ := e) | (rename_i e; cases e; done) | (rename_i e; injection e with e; subst e) | (rename_i e; dsimp only at e) | (rename_i e; split at e)))

theorem State.knotsOn_keeps {msk : Nat} {sb s : State} (b : Fin 8) (n : Nat) (hmsk : Sub 16420 msk) (hK : Keeps msk sb s) : Keeps msk sb (State.knotsOn s b n) := by
  unfold State.knotsOn; (with_reducible repeat' (first | assumption | (refine Sub.of 16420 ?_ hmsk; with_unfolding_all rfl) | apply State.setF_keeps | apply State.forward_keeps | apply State.onBar_keeps | apply Keeps.foldl | apply Keeps.foldlFst | intro _ | (dsimp only)))

theorem State.knotsFree_keeps {msk : Nat} {sb s : State} (b : Fin 8) (hmsk : Sub 32 msk) (hK : Keeps msk sb s) : Keeps msk sb (State.knotsFree s b) := by
  unfold State.knotsFree; (with_reducible repeat' (first | assumption | (refine Sub.of 32 ?_ hmsk; with_unfolding_all rfl) | apply State.onBar_keeps | intro _ | (dsimp only)))

theorem State.columnWritten_keeps {msk : Nat} {sb s : State} (b : Fin 8) (col : Nat) (hmsk : Sub 2048 msk) (hK : Keeps msk sb s) : Keeps msk sb (State.columnWritten s b col) := by
  unfold State.columnWritten; (with_reducible repeat' (first | assumption | (refine Sub.of 2048 ?_ hmsk; with_unfolding_all rfl) | apply State.onChl_keeps | intro _ | split | (dsimp only)))

theorem State.targetsOn_keeps {msk : Nat} {sb s : State} (b : Fin 8) (n : Nat) (hmsk : Sub 18468 msk) (hK : Keeps msk sb s) : Keeps msk sb (State.targetsOn s b n) := by
  unfold State.targetsOn; (with_reducible repeat' (first | assumption | (refine Sub.of 18468 ?_ hmsk; with_unfolding_all rfl) | apply State.onBar_keeps | apply State.forward_keeps | apply State.columnWritten_keeps | apply Keeps.foldl | apply Keeps.foldlFst | intro _ | (dsimp only)))

theorem State.countFetch_keeps {msk : Nat} {sb s : State} (b : Fin 8) (got skip : Nat) (hmsk : Sub 65572 msk) (hK : Keeps msk sb s) : Keeps msk sb (State.countFetch s b got skip) := by
  unfold State.countFetch; (with_reducible repeat' (first | assumption | (refine Sub.of 65572 ?_ hmsk; with_unfolding_all rfl) | (refine fun (hb : msk.testBit 24 = false) => ?_; intro _; first | rfl | (dsimp only; split <;> rfl)) | apply State.bumpBy_keeps | apply State.onBar_keeps | apply State.onFlt_keeps | apply State.peak_keeps | intro _ | (dsimp only)))

theorem State.beginLine_keeps {msk : Nat} {sb s : State} (b : Fin 8) (bj : BJob) (j : Job) (d : OBytes) (l n : Nat) (hmsk : Sub 84004 msk) (hK : Keeps msk sb s) : Keeps msk sb (State.beginLine s b bj j d l n) := by
  unfold State.beginLine; (with_reducible repeat' (first | assumption | (refine Sub.of 84004 ?_ hmsk; with_unfolding_all rfl) | apply State.targetsOn_keeps | apply State.knotsOn_keeps | apply State.onBar_keeps | apply State.countFetch_keeps | apply Keeps.getD | intro _ | split | (dsimp only) | (rename_i e; replace e := Option.map_eq_some_iff.mp e; obtain ⟨_, e, rfl⟩ := e) | (rename_i e; cases e; done) | (rename_i e; injection e with e; subst e) | (rename_i e; dsimp only at e) | (rename_i e; split at e)))

theorem State.lineComposed_keeps {msk : Nat} {sb s : State} (b : Fin 8) (h : BitVec 16) (hmsk : Sub 17 msk) (hK : Keeps msk sb s) : Keeps msk sb (State.lineComposed s b h) := by
  unfold State.lineComposed; (with_reducible repeat' (first | assumption | (refine Sub.of 17 ?_ hmsk; with_unfolding_all rfl) | apply State.onJobs_keeps | apply State.modJob_keeps | intro _ | split | (dsimp only)))

theorem State.finishLine_keeps {msk : Nat} {sb s : State} (b : Fin 8) (m : MidLine) (hmsk : Sub 61 msk) (hK : Keeps msk sb s) : Keeps msk sb (State.finishLine s b m) := by
  unfold State.finishLine; (with_reducible repeat' (first | assumption | (refine Sub.of 61 ?_ hmsk; with_unfolding_all rfl) | apply State.onBar_keeps | apply State.lineComposed_keeps | apply State.pump_keeps | apply Keeps.foldl | apply Keeps.foldlFst | apply Keeps.getD | intro _ | split | (dsimp only) | (rename_i e; replace e := Option.map_eq_some_iff.mp e; obtain ⟨_, e, rfl⟩ := e) | (rename_i e; cases e; done) | (rename_i e; injection e with e; subst e) | (rename_i e; dsimp only at e) | (rename_i e; split at e)))

theorem State.goOn_keeps {msk : Nat} {sb s : State} (b : Fin 8) (m : MidLine) (hmsk : Sub 61 msk) (hK : Keeps msk sb s) : Keeps msk sb (State.goOn s b m) := by
  unfold State.goOn; (with_reducible repeat' (first | assumption | (refine Sub.of 61 ?_ hmsk; with_unfolding_all rfl) | apply State.finishLine_keeps | apply State.onBar_keeps | apply State.bump_keeps | intro _ | split | (dsimp only)))

theorem State.slewHold_keeps {msk : Nat} {sb s : State} (b : Fin 8) (n : Nat) (hmsk : Sub 36 msk) (hK : Keeps msk sb s) : Keeps msk sb (State.slewHold s b n) := by
  unfold State.slewHold; (with_reducible repeat' (first | assumption | (refine Sub.of 36 ?_ hmsk; with_unfolding_all rfl) | apply State.onBar_keeps | apply State.bump_keeps | intro _ | split | (dsimp only)))

theorem State.tryLine_keeps {msk : Nat} {sb s : State} (b : Fin 8) (bj : BJob) (hmsk : Sub 84029 msk) (hK : Keeps msk sb s) : Keeps msk sb (State.tryLine s b bj) := by
  unfold State.tryLine; (with_reducible repeat' (first | assumption | (refine Sub.of 84029 ?_ hmsk; with_unfolding_all rfl) | apply State.layerWait_keeps | apply State.slewHold_keeps | apply State.lineStat_keeps | apply State.slotStat_keeps | apply State.badRefs_keeps | apply State.when_keeps | apply State.barCommits_keeps | apply State.beginLine_keeps | apply State.goOn_keeps | intro _ | split | (dsimp only)))

theorem State.composeLine_keeps {msk : Nat} {sb s : State} (b : Fin 8) (hmsk : Sub 84029 msk) (hK : Keeps msk sb s) : Keeps msk sb (State.composeLine s b) := by
  unfold State.composeLine; (with_reducible repeat' (first | assumption | (refine Sub.of 84029 ?_ hmsk; with_unfolding_all rfl) | apply State.settleStarts_keeps | apply State.pump_keeps | apply State.goOn_keeps | apply State.tryLine_keeps | split | (dsimp only)))

theorem State.slewerWriteback_keeps {msk : Nat} {sb s : State} (b : Fin 8) (hmsk : Sub 32 msk) (hK : Keeps msk sb s) : Keeps msk sb (State.slewerWriteback s b) := by
  unfold State.slewerWriteback; (with_reducible repeat' (first | assumption | (refine Sub.of 32 ?_ hmsk; with_unfolding_all rfl) | apply State.onBar_keeps | intro _ | split | (dsimp only)))

end Sys2Proof.Machine
end

