-- ==== Sys2Proof/Laws/KeepsLanes.lean ====
section
/-! SUPPORT. What each operation of Machine/Lanes.lean keeps: the queue, and the canonical form of the register maps. -/
set_option Elab.async false
namespace Sys2Proof.Machine

theorem State.onLane_keeps {msk : Nat} {sb s : State} (n : Fin 52) (f : Lane → Lane) (hmsk : Sub 256 msk) (hK : Keeps msk sb s) : Keeps msk sb (State.onLane s n f) := by
  unfold State.onLane; (with_reducible repeat' (first | assumption | (refine Sub.of 256 ?_ hmsk; with_unfolding_all rfl) | apply State.onLnk_keeps | intro _ | (dsimp only)))

theorem State.laneRoles_keeps {msk : Nat} {sb s : State} (f : Block → Lane → Lane) (hmsk : Sub 256 msk) (hK : Keeps msk sb s) : Keeps msk sb (State.laneRoles s f) := by
  unfold State.laneRoles; (with_reducible repeat' (first | assumption | (refine Sub.of 256 ?_ hmsk; with_unfolding_all rfl) | apply State.onLane_keeps | apply Keeps.foldl | apply Keeps.foldlFst | intro _ | split | (dsimp only)))

theorem State.laneRun_keeps {msk : Nat} {sb s : State} (n : Fin 40) (t : Rat) (hmsk : Sub 256 msk) (hK : Keeps msk sb s) : Keeps msk sb (State.laneRun s n t) := by
  unfold State.laneRun; (with_reducible repeat' (first | assumption | (refine Sub.of 256 ?_ hmsk; with_unfolding_all rfl) | apply State.onLane_keeps | intro _ | (dsimp only)))

theorem State.laneStart_keeps {msk : Nat} {sb s : State} (n : Fin 52) (hmsk : Sub 256 msk) (hK : Keeps msk sb s) : Keeps msk sb (State.laneStart s n) := by
  unfold State.laneStart; (with_reducible repeat' (first | assumption | (refine Sub.of 256 ?_ hmsk; with_unfolding_all rfl) | apply State.onLane_keeps | intro _ | split | (dsimp only)))

theorem State.lanesStart_keeps {msk : Nat} {sb s : State} (p : Fin 52 → Bool) (hmsk : Sub 256 msk) (hK : Keeps msk sb s) : Keeps msk sb (State.lanesStart s p) := by
  unfold State.lanesStart; (with_reducible repeat' (first | assumption | (refine Sub.of 256 ?_ hmsk; with_unfolding_all rfl) | apply State.laneStart_keeps | apply Keeps.foldl | apply Keeps.foldlFst | intro _ | split | (dsimp only)))

theorem State.toTrain_keeps {msk : Nat} {sb s : State} (n : Fin 52) (relock : Bool) (hmsk : Sub 256 msk) (hK : Keeps msk sb s) : Keeps msk sb (State.toTrain s n relock) := by
  unfold State.toTrain; (with_reducible repeat' (first | assumption | (refine Sub.of 256 ?_ hmsk; with_unfolding_all rfl) | apply State.onLane_keeps | intro _ | (dsimp only)))

theorem State.capNote_keeps {msk : Nat} {sb s : State} (n : Fin 52) (e : Nat) (hmsk : Sub 256 msk) (hK : Keeps msk sb s) : Keeps msk sb (State.capNote s n e) := by
  unfold State.capNote; (with_reducible repeat' (first | assumption | (refine Sub.of 256 ?_ hmsk; with_unfolding_all rfl) | apply State.onLane_keeps | intro _ | (dsimp only)))

theorem State.laneUp_keeps {msk : Nat} {sb s : State} (n : Fin 40) (hmsk : Sub 268 msk) (hK : Keeps msk sb s) : Keeps msk sb (State.laneUp s n) := by
  unfold State.laneUp; (with_reducible repeat' (first | assumption | (refine Sub.of 268 ?_ hmsk; with_unfolding_all rfl) | apply State.onLane_keeps | apply State.event_keeps | intro _ | split | (dsimp only)))

theorem State.capRecheck_keeps {msk : Nat} {sb s : State} (n : Fin 40) (hmsk : Sub 268 msk) (hK : Keeps msk sb s) : Keeps msk sb (State.capRecheck s n) := by
  unfold State.capRecheck; (with_reducible repeat' (first | assumption | (refine Sub.of 268 ?_ hmsk; with_unfolding_all rfl) | apply State.capNote_keeps | apply State.laneUp_keeps | split | (dsimp only)))

theorem State.bringUpFailed_keeps {msk : Nat} {sb s : State} (n : Fin 52) (hmsk : Sub 16843020 msk) (hK : Keeps msk sb s) : Keeps msk sb (State.bringUpFailed s n) := by
  unfold State.bringUpFailed; (with_reducible repeat' (first | assumption | (refine Sub.of 16843020 ?_ hmsk; with_unfolding_all rfl) | apply State.onLane_keeps | apply State.bump_keeps | apply State.upset_keeps | intro _ | split | (dsimp only)))

theorem State.voidLine_keeps {msk : Nat} {sb s : State} (b line : Nat) (hmsk : Sub 16 msk) (hK : Keeps msk sb s) : Keeps msk sb (State.voidLine s b line) := by
  unfold State.voidLine; (with_reducible repeat' (first | assumption | (refine Sub.of 16 ?_ hmsk; with_unfolding_all rfl) | apply State.modJob_keeps | intro _ | split | (dsimp only)))

theorem State.digestOf_keeps {msk : Nat} {sb s : State} (n line : Nat) (v : Option Nat) (hmsk : Sub 16384 msk) (hK : Keeps msk sb s) : Keeps msk sb (State.digestOf s n line v) := by
  unfold State.digestOf; (with_reducible repeat' (first | assumption | (refine Sub.of 16384 ?_ hmsk; with_unfolding_all rfl) | (refine fun (hb : msk.testBit 23 = false) => ?_; intro _; first | rfl | (dsimp only; split <;> rfl)) | apply State.onTbl_keeps | intro _ | split | (dsimp only)))

theorem State.dropOlder_keeps {msk : Nat} {sb s : State} (n : Fin 40) (line : Nat) (hmsk : Sub 16408 msk) (hK : Keeps msk sb s) : ∀ (z0 : Nat), Keeps msk sb (State.dropOlder s n line z0) := by
  intro z0
  induction z0 generalizing s with
  | zero => (unfold State.dropOlder); (with_reducible repeat' (first | assumption | (refine Sub.of 16408 ?_ hmsk; with_unfolding_all rfl) | apply State.settle_keeps | apply State.qFree_keeps | apply State.digestOf_keeps | apply State.when_keeps | apply State.voidLine_keeps | intro _ | split | (dsimp only)))
  | succ k ih => (unfold State.dropOlder); (with_reducible repeat' (first | assumption | (refine Sub.of 16408 ?_ hmsk; with_unfolding_all rfl) | apply ih | apply State.settle_keeps | apply State.qFree_keeps | apply State.digestOf_keeps | apply State.when_keeps | apply State.voidLine_keeps | intro _ | split | (dsimp only)))

theorem State.sendRecord_keeps {msk : Nat} {sb s : State} (n : Fin 40) (r : LaneRec) (hmsk : Sub 65792 msk) (hK : Keeps msk sb s) : Keeps msk sb (State.sendRecord s n r) := by
  unfold State.sendRecord; (with_reducible repeat' (first | assumption | (refine Sub.of 65792 ?_ hmsk; with_unfolding_all rfl) | apply State.onLane_keeps | apply State.countDrops_keeps | intro _ | (dsimp only)))

theorem State.missed_keeps {msk : Nat} {sb s : State} (b n line : Nat) (hmsk : Sub 28 msk) (hK : Keeps msk sb s) : Keeps msk sb (State.missed s b n line) := by
  unfold State.missed; (with_reducible repeat' (first | assumption | (refine Sub.of 28 ?_ hmsk; with_unfolding_all rfl) | apply State.bump_keeps | apply State.raise_keeps | apply State.voidLine_keeps | split | (dsimp only)))

theorem State.takeRecord_keeps {msk : Nat} {sb s : State} (n : Fin 40) (line : Nat) (hmsk : Sub 82204 msk) (hK : Keeps msk sb s) : Keeps msk sb (State.takeRecord s n line) := by
  unfold State.takeRecord; (with_reducible repeat' (first | assumption | (refine Sub.of 82204 ?_ hmsk; with_unfolding_all rfl) | apply State.dropOlder_keeps | apply State.qFree_keeps | apply State.digestOf_keeps | apply State.bump_keeps | apply State.voidLine_keeps | apply State.sendRecord_keeps | apply State.missed_keeps | split | (dsimp only)))

theorem State.standbyTake_keeps {msk : Nat} {sb s : State} (n : Fin 40) (hmsk : Sub 81928 msk) (hK : Keeps msk sb s) : ∀ (z0 : Nat), Keeps msk sb (State.standbyTake s n z0) := by
  intro z0
  induction z0 generalizing s with
  | zero => (unfold State.standbyTake); (with_reducible repeat' (first | assumption | (refine Sub.of 81928 ?_ hmsk; with_unfolding_all rfl) | apply State.settle_keeps | apply State.qFree_keeps | apply State.digestOf_keeps | apply State.when_keeps | apply State.countDrops_keeps | intro _ | split | (dsimp only)))
  | succ k ih => (unfold State.standbyTake); (with_reducible repeat' (first | assumption | (refine Sub.of 81928 ?_ hmsk; with_unfolding_all rfl) | apply ih | apply State.settle_keeps | apply State.qFree_keeps | apply State.digestOf_keeps | apply State.when_keeps | apply State.countDrops_keeps | intro _ | split | (dsimp only)))

end Sys2Proof.Machine
end

