-- ==== Sys2Proof/Laws/KeepsEffects.lean ====
section
/-! SUPPORT. What each operation of Machine/Effects.lean keeps: the queue, and the canonical form of the register maps. -/
set_option Elab.async false
namespace Sys2Proof.Machine

theorem State.onChain_keeps {msk : Nat} {sb s : State} (c : Fin 4) (f : LampChain → LampChain) (hmsk : Sub 4096 msk) (hK : Keeps msk sb s) : Keeps msk sb (State.onChain s c f) := by
  unfold State.onChain; (with_reducible repeat' (first | assumption | (refine Sub.of 4096 ?_ hmsk; with_unfolding_all rfl) | apply State.onLmp_keeps | intro _ | (dsimp only)))

theorem State.lampCommit_keeps {msk : Nat} {sb s : State} (hmsk : Sub 4096 msk) (hK : Keeps msk sb s) : Keeps msk sb (State.lampCommit s) := by
  unfold State.lampCommit; (with_reducible repeat' (first | assumption | (refine Sub.of 4096 ?_ hmsk; with_unfolding_all rfl) | apply State.onLmp_keeps | apply State.onChain_keeps | apply Keeps.foldl | apply Keeps.foldlFst | intro _ | split | (dsimp only)))

theorem State.laneReview_keeps {msk : Nat} {sb s : State} (n : Fin 52) (hmsk : Sub 256 msk) (hK : Keeps msk sb s) : Keeps msk sb (State.laneReview s n) := by
  unfold State.laneReview; (with_reducible repeat' (first | assumption | (refine Sub.of 256 ?_ hmsk; with_unfolding_all rfl) | apply State.laneStart_keeps | split | (dsimp only)))

theorem State.laneCfg_keeps {msk : Nat} {sb s : State} (n : Fin 40) (oldRate : Nat) (hmsk : Sub 256 msk) (hK : Keeps msk sb s) : Keeps msk sb (State.laneCfg s n oldRate) := by
  unfold State.laneCfg; (with_reducible repeat' (first | assumption | (refine Sub.of 256 ?_ hmsk; with_unfolding_all rfl) | apply State.laneReview_keeps | apply State.laneStart_keeps | split | (dsimp only)))

theorem State.takeEffect_keeps {msk : Nat} {sb s : State} (g : Group) (last line : Nat) (hmsk : Sub 23020 msk) (hK : Keeps msk sb s) : Keeps msk sb (State.takeEffect s g last line) := by
  unfold State.takeEffect; (with_reducible repeat' (first | assumption | (refine Sub.of 23020 ?_ hmsk; with_unfolding_all rfl) | apply State.takes_keeps | apply State.toneCleared_keeps | apply State.laneReview_keeps | apply State.headsNew_keeps | apply State.judgeSource_keeps | apply State.encOff_keeps | apply State.laneCfg_keeps | apply State.lampCommit_keeps | apply Keeps.foldl | apply Keeps.foldlFst | intro _ | split | (dsimp only)))

theorem State.lineCommits_keeps {msk : Nat} {sb s : State} (hmsk : Sub 23020 msk) (hK : Keeps msk sb s) : Keeps msk sb (State.lineCommits s) := by
  unfold State.lineCommits; (with_reducible repeat' (first | assumption | (refine Sub.of 23020 ?_ hmsk; with_unfolding_all rfl) | apply State.takeEffect_keeps | apply Keeps.foldl | apply Keeps.foldlFst | intro _ | split | (dsimp only)))

end Sys2Proof.Machine
end

