-- ==== Sys2Proof/Laws/KeepsIngest.lean ====
section
/-! SUPPORT. What each operation of Machine/Ingest.lean keeps: the queue, and the canonical form of the register maps. -/
set_option Elab.async false
namespace Sys2Proof.Machine

theorem State.onRing_keeps {msk : Nat} {sb s : State} (r : Fin 8) (f : Ring → Ring) (hmsk : Sub 16 msk) (hK : Keeps msk sb s) : Keeps msk sb (State.onRing s r f) := by
  unfold State.onRing; (with_reducible repeat' (first | assumption | (refine Sub.of 16 ?_ hmsk; with_unfolding_all rfl) | apply State.onIng_keeps | intro _ | (dsimp only)))

theorem State.payOwed_keeps {msk : Nat} {sb s : State} (r : Fin 8) (hmsk : Sub 16 msk) (hK : Keeps msk sb s) : Keeps msk sb (State.payOwed s r) := by
  unfold State.payOwed; (with_reducible repeat' (first | assumption | (refine Sub.of 16 ?_ hmsk; with_unfolding_all rfl) | apply State.onRing_keeps | intro _ | split | (dsimp only)))

theorem State.complete_keeps {msk : Nat} {sb s : State} (r : Fin 8) (c : Cpl) (hmsk : Sub 28 msk) (hK : Keeps msk sb s) : Keeps msk sb (State.complete s r c) := by
  unfold State.complete; (with_reducible repeat' (first | assumption | (refine Sub.of 28 ?_ hmsk; with_unfolding_all rfl) | apply State.onRing_keeps | apply State.payOwed_keeps | apply State.event_keeps | intro _ | split | (dsimp only)))

theorem State.drainRing_keeps {msk : Nat} {sb s : State} (r : Fin 8) (hmsk : Sub 28 msk) (hK : Keeps msk sb s) : ∀ (z0 : Nat), Keeps msk sb (State.drainRing s r z0) := by
  intro z0
  induction z0 generalizing s with
  | zero => (unfold State.drainRing); (with_reducible repeat' (first | assumption | (refine Sub.of 28 ?_ hmsk; with_unfolding_all rfl) | apply State.onRing_keeps | apply State.complete_keeps | apply State.onIng_keeps | apply Keeps.foldl | apply Keeps.foldlFst | intro _ | split | (dsimp only)))
  | succ k ih => (unfold State.drainRing); (with_reducible repeat' (first | assumption | (refine Sub.of 28 ?_ hmsk; with_unfolding_all rfl) | apply ih | apply State.onRing_keeps | apply State.complete_keeps | apply State.onIng_keeps | apply Keeps.foldl | apply Keeps.foldlFst | intro _ | split | (dsimp only)))

theorem State.drain_keeps {msk : Nat} {sb s : State} (r : Fin 8) (hmsk : Sub 28 msk) (hK : Keeps msk sb s) : Keeps msk sb (State.drain s r) := by
  unfold State.drain; (with_reducible repeat' (first | assumption | (refine Sub.of 28 ?_ hmsk; with_unfolding_all rfl) | apply State.drainRing_keeps | (dsimp only)))

theorem State.fetched_keeps {msk : Nat} {sb s : State} (r : Fin 8) (x : Fetched) (hmsk : Sub 16 msk) (hK : Keeps msk sb s) : Keeps msk sb (State.fetched s r x) := by
  unfold State.fetched; (with_reducible repeat' (first | assumption | (refine Sub.of 16 ?_ hmsk; with_unfolding_all rfl) | apply State.onRing_keeps | apply Keeps.foldl | apply Keeps.foldlFst | intro _ | split | (dsimp only)))

theorem State.finish_keeps {msk : Nat} {sb s : State} (r : Fin 8) (d : Desc) (handle : BitVec 16) (status detail : Nat) (hmsk : Sub 28 msk) (hK : Keeps msk sb s) : Keeps msk sb (State.finish s r d handle status detail) := by
  unfold State.finish; (with_reducible repeat' (first | assumption | (refine Sub.of 28 ?_ hmsk; with_unfolding_all rfl) | apply State.fetched_keeps | apply State.drain_keeps | (dsimp only)))

theorem State.jobEntry_keeps {msk : Nat} {sb s : State} (j : Job) (kind status detail : Nat) (hmsk : Sub 28 msk) (hK : Keeps msk sb s) : Keeps msk sb (State.jobEntry s j kind status detail) := by
  unfold State.jobEntry; (with_reducible repeat' (first | assumption | (refine Sub.of 28 ?_ hmsk; with_unfolding_all rfl) | apply State.complete_keeps | split | (dsimp only)))

theorem State.failJob_keeps {msk : Nat} {sb s : State} (tag status detail : Nat) (hmsk : Sub 28 msk) (hK : Keeps msk sb s) : Keeps msk sb (State.failJob s tag status detail) := by
  unfold State.failJob; (with_reducible repeat' (first | assumption | (refine Sub.of 28 ?_ hmsk; with_unfolding_all rfl) | apply State.modJob_keeps | apply State.jobEntry_keeps | intro _ | split | (dsimp only)))

theorem State.retireJob_keeps {msk : Nat} {sb s : State} (tag : Nat) (hmsk : Sub 28 msk) (hK : Keeps msk sb s) : Keeps msk sb (State.retireJob s tag) := by
  unfold State.retireJob; (with_reducible repeat' (first | assumption | (refine Sub.of 28 ?_ hmsk; with_unfolding_all rfl) | apply State.onIng_keeps | apply State.jobEntry_keeps | apply State.event_keeps | intro _ | split | (dsimp only)))

theorem State.modObj_keeps {msk : Nat} {sb s : State} (tag num : Nat) (f : Obj → Obj) (hmsk : Sub 16 msk) (hK : Keeps msk sb s) : Keeps msk sb (State.modObj s tag num f) := by
  unfold State.modObj; (with_reducible repeat' (first | assumption | (refine Sub.of 16 ?_ hmsk; with_unfolding_all rfl) | apply State.modJob_keeps | intro _ | split | (dsimp only)))

theorem State.stale_keeps {msk : Nat} {sb s : State} (hmsk : Sub 4 msk) (hK : Keeps msk sb s) : Keeps msk sb (State.stale s) := by
  unfold State.stale; (with_reducible repeat' (first | assumption | (refine Sub.of 4 ?_ hmsk; with_unfolding_all rfl) | apply State.bump_keeps | (dsimp only)))

theorem State.objFail_keeps {msk : Nat} {sb s : State} (r : Fin 8) (tag num status code : Nat) (hmsk : Sub 28 msk) (hK : Keeps msk sb s) : Keeps msk sb (State.objFail s r tag num status code) := by
  unfold State.objFail; (with_reducible repeat' (first | assumption | (refine Sub.of 28 ?_ hmsk; with_unfolding_all rfl) | apply State.modObj_keeps | apply State.onRing_keeps | apply State.complete_keeps | apply State.bump_keeps | apply State.event_keeps | intro _ | split | (dsimp only)))

theorem State.openJob_keeps {msk : Nat} {sb s : State} (r : Fin 8) (d : Desc) (p : List Byte) (hmsk : Sub 16412 msk) (hK : Keeps msk sb s) : Keeps msk sb (State.openJob s r d p) := by
  unfold State.openJob; (with_reducible repeat' (first | assumption | (refine Sub.of 16412 ?_ hmsk; with_unfolding_all rfl) | apply State.finish_keeps | apply State.onIng_keeps | apply State.forward_keeps | intro _ | split | (dsimp only)))

theorem State.fetchDesc_keeps {msk : Nat} {sb s : State} (r : Fin 8) (d0 : Desc) (p : List Byte) (f : State → Desc → List Byte → State) (hf : ∀ x d p, Keeps msk sb x → Keeps msk sb (f x d p)) (hmsk : Sub 524288 msk) (hK : Keeps msk sb s) : Keeps msk sb (State.fetchDesc s r d0 p f) := by
  unfold State.fetchDesc; (with_reducible repeat' (first | assumption | (refine Sub.of 524288 ?_ hmsk; with_unfolding_all rfl) | apply State.live_keeps | apply State.when_keeps | apply State.drawnN_keeps | (apply hf) | intro _ | (dsimp only)))

theorem execOpen_keeps {msk : Nat} {sb s : State} (r : Fin 8) (d : Desc) (p : List Byte) (hmsk : Sub 540700 msk) (hK : Keeps msk sb s) : ∀ t, execOpen r d p s = .next t → Keeps msk sb t := by
  intro t e; unfold execOpen at e
  repeat' (first | (cases e; done) | (injection e with e; subst e) | split at e)
  all_goals (with_reducible repeat' (first | assumption | (refine Sub.of 540700 ?_ hmsk; with_unfolding_all rfl) | apply State.fetchDesc_keeps | apply State.openJob_keeps | intro _ | (dsimp only)))

theorem State.pullIn_keeps {msk : Nat} {sb s : State} (r : Fin 8) (hmsk : Sub 28 msk) (hK : Keeps msk sb s) : ∀ (z0 : Nat), Keeps msk sb (State.pullIn s r z0) := by
  intro z0
  induction z0 generalizing s with
  | zero => (unfold State.pullIn); (with_reducible repeat' (first | assumption | (refine Sub.of 28 ?_ hmsk; with_unfolding_all rfl) | apply State.settle_keeps | apply State.onRing_keeps | apply State.qPut_keeps | intro _ | split | (dsimp only)))
  | succ k ih => (unfold State.pullIn); (with_reducible repeat' (first | assumption | (refine Sub.of 28 ?_ hmsk; with_unfolding_all rfl) | apply ih | apply State.settle_keeps | apply State.onRing_keeps | apply State.qPut_keeps | intro _ | split | (dsimp only)))

theorem State.objLost_keeps {msk : Nat} {sb s : State} (tag num : Nat) (hmsk : Sub 16404 msk) (hK : Keeps msk sb s) : Keeps msk sb (State.objLost s tag num) := by
  unfold State.objLost; (with_reducible repeat' (first | assumption | (refine Sub.of 16404 ?_ hmsk; with_unfolding_all rfl) | apply State.modObj_keeps | apply State.forward_keeps | intro _ | split | (dsimp only)))

theorem State.dataDesc_keeps {msk : Nat} {sb s : State} (r : Fin 8) (d : Desc) (p : List Byte) (hmsk : Sub 540701 msk) (hK : Keeps msk sb s) : Keeps msk sb (State.dataDesc s r d p) := by
  unfold State.dataDesc; (with_reducible repeat' (first | assumption | (refine Sub.of 540701 ?_ hmsk; with_unfolding_all rfl) | apply State.finish_keeps | apply State.stale_keeps | apply State.objLost_keeps | apply State.modJob_keeps | apply State.drawn_keeps | apply State.bind_keeps | apply State.fetched_keeps | apply State.onRing_keeps | apply State.pullIn_keeps | apply State.forward_keeps | intro _ | split | (dsimp only)))

theorem execData_keeps {msk : Nat} {sb s : State} (r : Fin 8) (d : Desc) (p : List Byte) (hmsk : Sub 540701 msk) (hK : Keeps msk sb s) : ∀ t, execData r d p s = .next t → Keeps msk sb t := by
  intro t e; unfold execData at e
  repeat' (first | (cases e; done) | (injection e with e; subst e) | split at e)
  all_goals (with_reducible repeat' (first | assumption | (refine Sub.of 540701 ?_ hmsk; with_unfolding_all rfl) | apply State.fetchDesc_keeps | apply State.dataDesc_keeps | intro _ | (dsimp only)))

theorem State.streamBegins_keeps {msk : Nat} {sb s : State} (r : Fin 8) (f : Fetched) (hmsk : Sub 524304 msk) (hK : Keeps msk sb s) : Keeps msk sb (State.streamBegins s r f).1 := by
  unfold State.streamBegins; (with_reducible repeat' (first | assumption | (refine Sub.of 524304 ?_ hmsk; with_unfolding_all rfl) | apply State.onRing_keeps | apply State.modJob_keeps | apply State.drawn_keeps | apply Keeps.foldl | apply Keeps.foldlFst | intro _ | split | (dsimp only)))

theorem State.takeChunk_keeps {msk : Nat} {sb s : State} (r : Fin 8) (hmsk : Sub 524312 msk) (hK : Keeps msk sb s) : Keeps msk sb (State.takeChunk s r) := by
  unfold State.takeChunk; (with_reducible repeat' (first | assumption | (refine Sub.of 524312 ?_ hmsk; with_unfolding_all rfl) | apply State.qFree_keeps | apply State.streamBegins_keeps | apply State.onRing_keeps | apply State.modObj_keeps | intro _ | split | (dsimp only)))

theorem State.decodeOne_keeps {msk : Nat} {sb s : State} (r : Fin 8) (hmsk : Sub 524316 msk) (hK : Keeps msk sb s) : Keeps msk sb (State.decodeOne s r) := by
  unfold State.decodeOne; (with_reducible repeat' (first | assumption | (refine Sub.of 524316 ?_ hmsk; with_unfolding_all rfl) | apply State.streamBegins_keeps | apply State.objFail_keeps | apply State.modObj_keeps | apply State.onIng_keeps | apply State.failJob_keeps | intro _ | split | (dsimp only)))

theorem execDuneBlockDecode_keeps {msk : Nat} {sb s : State} (r : Fin 8) (hmsk : Sub 524316 msk) (hK : Keeps msk sb s) : ∀ t, execDuneBlockDecode r s = .next t → Keeps msk sb t := by
  intro t e; unfold execDuneBlockDecode at e
  repeat' (first | (cases e; done) | (injection e with e; subst e) | split at e)
  all_goals (with_reducible repeat' (first | assumption | (refine Sub.of 524316 ?_ hmsk; with_unfolding_all rfl) | apply State.live_keeps | apply State.decodeOne_keeps | intro _ | (dsimp only)))

theorem State.descAgain_keeps {msk : Nat} {sb s : State} (r : Fin 8) (tag : Nat) (hmsk : Sub 28 msk) (hK : Keeps msk sb s) : Keeps msk sb (State.descAgain s r tag) := by
  unfold State.descAgain; (with_reducible repeat' (first | assumption | (refine Sub.of 28 ?_ hmsk; with_unfolding_all rfl) | apply State.objFail_keeps | split | (dsimp only)))

theorem State.endVerify_keeps {msk : Nat} {sb s : State} (r : Fin 8) (hmsk : Sub 28 msk) (hK : Keeps msk sb s) : Keeps msk sb (State.endVerify s r) := by
  unfold State.endVerify; (with_reducible repeat' (first | assumption | (refine Sub.of 28 ?_ hmsk; with_unfolding_all rfl) | apply State.modObj_keeps | apply State.descAgain_keeps | apply State.objFail_keeps | intro _ | split | (dsimp only)))

theorem execObjectEndVerify_keeps {msk : Nat} {sb s : State} (r : Fin 8) (hmsk : Sub 28 msk) (hK : Keeps msk sb s) : ∀ t, execObjectEndVerify r s = .next t → Keeps msk sb t := by
  intro t e; unfold execObjectEndVerify at e
  repeat' (first | (cases e; done) | (injection e with e; subst e) | split at e)
  all_goals (with_reducible repeat' (first | assumption | (refine Sub.of 28 ?_ hmsk; with_unfolding_all rfl) | apply State.live_keeps | apply State.endVerify_keeps | intro _ | (dsimp only)))

theorem State.dataComplete_keeps {msk : Nat} {sb s : State} (r : Fin 8) (hmsk : Sub 28 msk) (hK : Keeps msk sb s) : Keeps msk sb (State.dataComplete s r) := by
  unfold State.dataComplete; (with_reducible repeat' (first | assumption | (refine Sub.of 28 ?_ hmsk; with_unfolding_all rfl) | apply State.onRing_keeps | apply State.drain_keeps | intro _ | split | (dsimp only)))

theorem execDataDescriptorComplete_keeps {msk : Nat} {sb s : State} (r : Fin 8) (hmsk : Sub 28 msk) (hK : Keeps msk sb s) : ∀ t, execDataDescriptorComplete r s = .next t → Keeps msk sb t := by
  intro t e; unfold execDataDescriptorComplete at e
  repeat' (first | (cases e; done) | (injection e with e; subst e) | split at e)
  all_goals (with_reducible repeat' (first | assumption | (refine Sub.of 28 ?_ hmsk; with_unfolding_all rfl) | apply State.live_keeps | apply State.dataComplete_keeps | intro _ | (dsimp only)))

theorem State.decompressResume_keeps {msk : Nat} {sb s : State} (r : Fin 8) (hmsk : Sub 16 msk) (hK : Keeps msk sb s) : Keeps msk sb (State.decompressResume s r) := by
  unfold State.decompressResume; (with_reducible repeat' (first | assumption | (refine Sub.of 16 ?_ hmsk; with_unfolding_all rfl) | apply State.modObj_keeps | intro _ | split | (dsimp only)))

theorem execDecompressResume_keeps {msk : Nat} {sb s : State} (r : Fin 8) (hmsk : Sub 16 msk) (hK : Keeps msk sb s) : ∀ t, execDecompressResume r s = .next t → Keeps msk sb t := by
  intro t e; unfold execDecompressResume at e
  repeat' (first | (cases e; done) | (injection e with e; subst e) | split at e)
  all_goals (with_reducible repeat' (first | assumption | (refine Sub.of 16 ?_ hmsk; with_unfolding_all rfl) | apply State.live_keeps | apply State.decompressResume_keeps | intro _ | (dsimp only)))

theorem State.doorbell_keeps {msk : Nat} {sb s : State} (r : Fin 8) (prod : BitVec 16) (hmsk : Sub 29 msk) (hK : Keeps msk sb s) : Keeps msk sb (State.doorbell s r prod) := by
  unfold State.doorbell; (with_reducible repeat' (first | assumption | (refine Sub.of 29 ?_ hmsk; with_unfolding_all rfl) | apply State.wake_keeps | apply State.onRing_keeps | apply State.event_keeps | intro _ | split | (dsimp only)))

theorem execRingDoorbell_keeps {msk : Nat} {sb s : State} (r : Fin 8) (prod : BitVec 16) (hmsk : Sub 29 msk) (hK : Keeps msk sb s) : ∀ t, execRingDoorbell r prod s = .next t → Keeps msk sb t := by
  intro t e; unfold execRingDoorbell at e
  repeat' (first | (cases e; done) | (injection e with e; subst e) | split at e)
  all_goals (with_reducible repeat' (first | assumption | (refine Sub.of 29 ?_ hmsk; with_unfolding_all rfl) | apply State.live_keeps | apply State.doorbell_keeps | intro _ | (dsimp only)))

theorem State.hostLive_keeps {msk : Nat} {sb s : State} (f : State → State) (hf : ∀ x, Keeps msk sb x → Keeps msk sb (f x)) (hmsk : Sub 0 msk) (hK : Keeps msk sb s) : Keeps msk sb (State.hostLive s f) := by
  unfold State.hostLive; (with_reducible repeat' (first | assumption | (refine Sub.of 0 ?_ hmsk; with_unfolding_all rfl) | apply State.live_keeps | apply State.when_keeps | (apply hf) | intro _ | (dsimp only)))

theorem execRingEnable_keeps {msk : Nat} {sb s : State} (r : Fin 8) (en : Bool) (hmsk : Sub 16 msk) (hK : Keeps msk sb s) : ∀ t, execRingEnable r en s = .next t → Keeps msk sb t := by
  intro t e; unfold execRingEnable at e
  repeat' (first | (cases e; done) | (injection e with e; subst e) | split at e)
  all_goals (with_reducible repeat' (first | assumption | (refine Sub.of 16 ?_ hmsk; with_unfolding_all rfl) | apply State.hostLive_keeps | apply State.onRing_keeps | intro _ | (dsimp only)))

theorem execPostResetCompletions_keeps {msk : Nat} {sb s : State} (r : Fin 8) (hmsk : Sub 16 msk) (hK : Keeps msk sb s) : ∀ t, execPostResetCompletions r s = .next t → Keeps msk sb t := by
  intro t e; unfold execPostResetCompletions at e
  repeat' (first | (cases e; done) | (injection e with e; subst e) | split at e)
  all_goals (with_reducible repeat' (first | assumption | (refine Sub.of 16 ?_ hmsk; with_unfolding_all rfl) | apply State.hostLive_keeps | apply State.when_keeps | apply State.payOwed_keeps | intro _ | (dsimp only)))

theorem State.spoil_keeps {msk : Nat} {sb s : State} (hmsk : Sub 16404 msk) (hK : Keeps msk sb s) : ∀ (z0 : List Fetched), Keeps msk sb (State.spoil s z0) := by
  intro z0
  induction z0 generalizing s with
  | nil => (unfold State.spoil); (with_reducible repeat' (first | assumption | (refine Sub.of 16404 ?_ hmsk; with_unfolding_all rfl) | apply State.when_keeps | apply State.objLost_keeps | apply State.modObj_keeps | intro _ | split | (dsimp only)))
  | cons c k ih => (unfold State.spoil); (with_reducible repeat' (first | assumption | (refine Sub.of 16404 ?_ hmsk; with_unfolding_all rfl) | apply ih | apply State.when_keeps | apply State.objLost_keeps | apply State.modObj_keeps | intro _ | split | (dsimp only)))

theorem State.discardRing_keeps {msk : Nat} {sb s : State} (r : Fin 8) (hmsk : Sub 16412 msk) (hK : Keeps msk sb s) : Keeps msk sb (State.discardRing s r) := by
  unfold State.discardRing; (with_reducible repeat' (first | assumption | (refine Sub.of 16412 ?_ hmsk; with_unfolding_all rfl) | apply State.spoil_keeps | apply State.qFlush_keeps | apply State.onRing_keeps | intro _ | split | (dsimp only)))

theorem State.ringReset_keeps {msk : Nat} {sb s : State} (r : Fin 8) (hmsk : Sub 16412 msk) (hK : Keeps msk sb s) : Keeps msk sb (State.ringReset s r) := by
  unfold State.ringReset; (with_reducible repeat' (first | assumption | (refine Sub.of 16412 ?_ hmsk; with_unfolding_all rfl) | apply State.discardRing_keeps | apply State.onRing_keeps | apply State.payOwed_keeps | intro _ | split | (dsimp only)))

theorem execRingReset_keeps {msk : Nat} {sb s : State} (r : Fin 8) (hmsk : Sub 16412 msk) (hK : Keeps msk sb s) : ∀ t, execRingReset r s = .next t → Keeps msk sb t := by
  intro t e; unfold execRingReset at e
  repeat' (first | (cases e; done) | (injection e with e; subst e) | split at e)
  all_goals (with_reducible repeat' (first | assumption | (refine Sub.of 16412 ?_ hmsk; with_unfolding_all rfl) | apply State.hostLive_keeps | apply State.ringReset_keeps | intro _ | (dsimp only)))

theorem State.cplAck_keeps {msk : Nat} {sb s : State} (r : Fin 8) (ack : BitVec 16) (hmsk : Sub 16 msk) (hK : Keeps msk sb s) : Keeps msk sb (State.cplAck s r ack) := by
  unfold State.cplAck; (with_reducible repeat' (first | assumption | (refine Sub.of 16 ?_ hmsk; with_unfolding_all rfl) | apply State.onRing_keeps | apply State.payOwed_keeps | intro _ | split | (dsimp only)))

theorem execCplAckWrite_keeps {msk : Nat} {sb s : State} (r : Fin 8) (ack : BitVec 16) (hmsk : Sub 16 msk) (hK : Keeps msk sb s) : ∀ t, execCplAckWrite r ack s = .next t → Keeps msk sb t := by
  intro t e; unfold execCplAckWrite at e
  repeat' (first | (cases e; done) | (injection e with e; subst e) | split at e)
  all_goals (with_reducible repeat' (first | assumption | (refine Sub.of 16 ?_ hmsk; with_unfolding_all rfl) | apply State.hostLive_keeps | apply State.cplAck_keeps | intro _ | (dsimp only)))

theorem State.flr_keeps {msk : Nat} {sb s : State} (hmsk : Sub 16412 msk) (hK : Keeps msk sb s) : Keeps msk sb (State.flr s) := by
  unfold State.flr; (with_reducible repeat' (first | assumption | (refine Sub.of 16412 ?_ hmsk; with_unfolding_all rfl) | apply State.discardRing_keeps | apply State.onRing_keeps | apply Keeps.foldl | apply Keeps.foldlFst | intro _ | (dsimp only)))

theorem execFunctionLevelReset_keeps {msk : Nat} {sb s : State} (hmsk : Sub 16412 msk) (hK : Keeps msk sb s) : ∀ t, execFunctionLevelReset s = .next t → Keeps msk sb t := by
  intro t e; unfold execFunctionLevelReset at e
  repeat' (first | (cases e; done) | (injection e with e; subst e) | split at e)
  all_goals (with_reducible repeat' (first | assumption | (refine Sub.of 16412 ?_ hmsk; with_unfolding_all rfl) | apply State.live_keeps | apply State.flr_keeps | apply State.onIng_keeps | intro _ | (dsimp only)))

theorem execBusMasterDisable_keeps {msk : Nat} {sb s : State} (hmsk : Sub 16 msk) (hK : Keeps msk sb s) : ∀ t, execBusMasterDisable s = .next t → Keeps msk sb t := by
  intro t e; unfold execBusMasterDisable at e
  repeat' (first | (cases e; done) | (injection e with e; subst e) | split at e)
  all_goals (with_reducible repeat' (first | assumption | (refine Sub.of 16 ?_ hmsk; with_unfolding_all rfl) | apply State.live_keeps | apply State.onIng_keeps | intro _ | (dsimp only)))

theorem execBusMasterEnable_keeps {msk : Nat} {sb s : State} (hmsk : Sub 16 msk) (hK : Keeps msk sb s) : ∀ t, execBusMasterEnable s = .next t → Keeps msk sb t := by
  intro t e; unfold execBusMasterEnable at e
  repeat' (first | (cases e; done) | (injection e with e; subst e) | split at e)
  all_goals (with_reducible repeat' (first | assumption | (refine Sub.of 16 ?_ hmsk; with_unfolding_all rfl) | apply State.live_keeps | apply State.onIng_keeps | intro _ | (dsimp only)))

theorem State.pcieError_keeps {msk : Nat} {sb s : State} (r : Fin 8) (hmsk : Sub 16412 msk) (hK : Keeps msk sb s) : Keeps msk sb (State.pcieError s r) := by
  unfold State.pcieError; (with_reducible repeat' (first | assumption | (refine Sub.of 16412 ?_ hmsk; with_unfolding_all rfl) | apply State.onRing_keeps | apply State.event_keeps | apply State.objLost_keeps | apply State.modObj_keeps | apply Keeps.foldl | apply Keeps.foldlFst | intro _ | split | (dsimp only)))

theorem execPcieReadError_keeps {msk : Nat} {sb s : State} (r : Fin 8) (hmsk : Sub 16412 msk) (hK : Keeps msk sb s) : ∀ t, execPcieReadError r s = .next t → Keeps msk sb t := by
  intro t e; unfold execPcieReadError at e
  repeat' (first | (cases e; done) | (injection e with e; subst e) | split at e)
  all_goals (with_reducible repeat' (first | assumption | (refine Sub.of 16412 ?_ hmsk; with_unfolding_all rfl) | apply State.live_keeps | apply State.when_keeps | apply State.pcieError_keeps | intro _ | (dsimp only)))

end Sys2Proof.Machine
end

