-- ==== Sys2Proof/Laws/KeepsCmp.lean ====
section
/-! SUPPORT. What each operation of Machine/Cmp.lean keeps: the queue, and the canonical form of the register maps. -/
set_option Elab.async false
namespace Sys2Proof.Machine

theorem State.onCtx_keeps {msk : Nat} {sb s : State} (c : Fin 6) (f : CmpCtx → CmpCtx) (hmsk : Sub 16 msk) (hK : Keeps msk sb s) : Keeps msk sb (State.onCtx s c f) := by
  unfold State.onCtx; (with_reducible repeat' (first | assumption | (refine Sub.of 16 ?_ hmsk; with_unfolding_all rfl) | apply State.onIng_keeps | intro _ | (dsimp only)))

theorem State.cmpIn_keeps {msk : Nat} {sb s : State} (c : Fin 6) (n : Nat) (hmsk : Sub 20 msk) (hK : Keeps msk sb s) : Keeps msk sb (State.cmpIn s c n) := by
  unfold State.cmpIn; (with_reducible repeat' (first | assumption | (refine Sub.of 20 ?_ hmsk; with_unfolding_all rfl) | apply State.onCtx_keeps | apply State.bumpBy_keeps | intro _ | (dsimp only)))

theorem State.cmpOut_keeps {msk : Nat} {sb s : State} (c : Fin 6) (n : Nat) (hmsk : Sub 20 msk) (hK : Keeps msk sb s) : Keeps msk sb (State.cmpOut s c n) := by
  unfold State.cmpOut; (with_reducible repeat' (first | assumption | (refine Sub.of 20 ?_ hmsk; with_unfolding_all rfl) | apply State.onCtx_keeps | apply State.bumpBy_keeps | apply State.modJob_keeps | intro _ | (dsimp only)))

theorem State.putBlock_keeps {msk : Nat} {sb s : State} (c : Fin 6) (b : ArchBlock) (hmsk : Sub 20 msk) (hK : Keeps msk sb s) : Keeps msk sb (State.putBlock s c b) := by
  unfold State.putBlock; (with_reducible repeat' (first | assumption | (refine Sub.of 20 ?_ hmsk; with_unfolding_all rfl) | apply State.onCtx_keeps | apply State.cmpOut_keeps | intro _ | (dsimp only)))

theorem State.blockOut_keeps {msk : Nat} {sb s : State} (c : Fin 6) (flush lastSeg : Bool) (hmsk : Sub 524316 msk) (hK : Keeps msk sb s) : Keeps msk sb (State.blockOut s c flush lastSeg) := by
  unfold State.blockOut; (with_reducible repeat' (first | assumption | (refine Sub.of 524316 ?_ hmsk; with_unfolding_all rfl) | apply State.drawn_keeps | apply State.onCtx_keeps | apply State.putBlock_keeps | apply State.bump_keeps | apply State.event_keeps | intro _ | split | (dsimp only)))

theorem State.ctxEnd_keeps {msk : Nat} {sb s : State} (c : Fin 6) (hmsk : Sub 524316 msk) (hK : Keeps msk sb s) : Keeps msk sb (State.ctxEnd s c) := by
  unfold State.ctxEnd; (with_reducible repeat' (first | assumption | (refine Sub.of 524316 ?_ hmsk; with_unfolding_all rfl) | apply State.blockOut_keeps | apply State.putBlock_keeps | apply State.onCtx_keeps | intro _ | split | (dsimp only)))

theorem State.ctxStart_keeps {msk : Nat} {sb s : State} (c : Fin 6) (tag : Nat) (hmsk : Sub 16 msk) (hK : Keeps msk sb s) : Keeps msk sb (State.ctxStart s c tag) := by
  unfold State.ctxStart; (with_reducible repeat' (first | assumption | (refine Sub.of 16 ?_ hmsk; with_unfolding_all rfl) | apply State.onCtx_keeps | intro _ | (dsimp only)))

theorem State.ctxPut_keeps {msk : Nat} {sb s : State} (c : Fin 6) (l : List Byte) (hmsk : Sub 20 msk) (hK : Keeps msk sb s) : Keeps msk sb (State.ctxPut s c l) := by
  unfold State.ctxPut; (with_reducible repeat' (first | assumption | (refine Sub.of 20 ?_ hmsk; with_unfolding_all rfl) | apply State.onCtx_keeps | apply State.cmpIn_keeps | intro _ | (dsimp only)))

theorem State.ctxFill_keeps {msk : Nat} {sb s : State} (c : Fin 6) (l : List Byte) (hmsk : Sub 524316 msk) (hK : Keeps msk sb s) : Keeps msk sb (State.ctxFill s c l) := by
  unfold State.ctxFill; (with_reducible repeat' (first | assumption | (refine Sub.of 524316 ?_ hmsk; with_unfolding_all rfl) | apply State.ctxPut_keeps | apply State.blockOut_keeps | split | (dsimp only)))

theorem State.ctxTake_keeps {msk : Nat} {sb s : State} (c : Fin 6) (tag : Nat) (l : List Byte) (last : Bool) (hmsk : Sub 524316 msk) (hK : Keeps msk sb s) : Keeps msk sb (State.ctxTake s c tag l last) := by
  unfold State.ctxTake; (with_reducible repeat' (first | assumption | (refine Sub.of 524316 ?_ hmsk; with_unfolding_all rfl) | apply State.ctxEnd_keeps | apply State.ctxStart_keeps | apply State.ctxFill_keeps | apply State.blockOut_keeps | split | (dsimp only)))

theorem State.archTake_keeps {msk : Nat} {sb s : State} (q : Fin 64) (p : ArchPiece) (hmsk : Sub 524316 msk) (hK : Keeps msk sb s) : Keeps msk sb (State.archTake s q p) := by
  unfold State.archTake; (with_reducible repeat' (first | assumption | (refine Sub.of 524316 ?_ hmsk; with_unfolding_all rfl) | apply State.ctxTake_keeps | split | (dsimp only)))

theorem State.dropArch_keeps {msk : Nat} {sb s : State} (tag : Nat) (hmsk : Sub 8 msk) (hK : Keeps msk sb s) : Keeps msk sb (State.dropArch s tag) := by
  unfold State.dropArch; (with_reducible repeat' (first | assumption | (refine Sub.of 8 ?_ hmsk; with_unfolding_all rfl) | apply State.onQ_keeps | apply Keeps.foldl | apply Keeps.foldlFst | intro _ | split | (dsimp only)))

theorem State.archRest_keeps {msk : Nat} {sb s : State} (tag upTo : Nat) (hmsk : Sub 524316 msk) (hK : Keeps msk sb s) : Keeps msk sb (State.archRest s tag upTo) := by
  unfold State.archRest; (with_reducible repeat' (first | assumption | (refine Sub.of 524316 ?_ hmsk; with_unfolding_all rfl) | apply State.archTake_keeps | apply Keeps.foldl | apply Keeps.foldlFst | intro _ | split | (dsimp only)))

theorem State.ctxDrop_keeps {msk : Nat} {sb s : State} (tag : Nat) (hmsk : Sub 24 msk) (hK : Keeps msk sb s) : Keeps msk sb (State.ctxDrop s tag) := by
  unfold State.ctxDrop; (with_reducible repeat' (first | assumption | (refine Sub.of 24 ?_ hmsk; with_unfolding_all rfl) | apply State.dropArch_keeps | apply State.onIng_keeps | intro _ | split | (dsimp only)))

theorem State.endBlocks_keeps {msk : Nat} {sb s : State} (tag : Nat) (hmsk : Sub 524316 msk) (hK : Keeps msk sb s) : Keeps msk sb (State.endBlocks s tag) := by
  unfold State.endBlocks; (with_reducible repeat' (first | assumption | (refine Sub.of 524316 ?_ hmsk; with_unfolding_all rfl) | apply State.ctxEnd_keeps | apply Keeps.foldl | apply Keeps.foldlFst | intro _ | split | (dsimp only)))

theorem State.flushTimeout_keeps {msk : Nat} {sb s : State} (c : Fin 6) (hmsk : Sub 524316 msk) (hK : Keeps msk sb s) : Keeps msk sb (State.flushTimeout s c) := by
  unfold State.flushTimeout; (with_reducible repeat' (first | assumption | (refine Sub.of 524316 ?_ hmsk; with_unfolding_all rfl) | apply State.blockOut_keeps | split | (dsimp only)))

theorem execCompressFlushTimeout_keeps {msk : Nat} {sb s : State} (c : Fin 6) (hmsk : Sub 524316 msk) (hK : Keeps msk sb s) : ∀ t, execCompressFlushTimeout c s = .next t → Keeps msk sb t := by
  intro t e; unfold execCompressFlushTimeout at e
  repeat' (first | (cases e; done) | (injection e with e; subst e) | split at e)
  all_goals (with_reducible repeat' (first | assumption | (refine Sub.of 524316 ?_ hmsk; with_unfolding_all rfl) | apply State.live_keeps | apply State.flushTimeout_keeps | intro _ | (dsimp only)))

end Sys2Proof.Machine
end

