-- ==== Sys2Proof/Laws/KeepsMemory.lean ====
section
/-! SUPPORT. What each operation of Machine/Memory.lean keeps: the queue, and the canonical form of the register maps. -/
set_option Elab.async false
namespace Sys2Proof.Machine

theorem State.onMemCh_keeps {msk : Nat} {sb s : State} (c : Fin 8) (f : MemCh → MemCh) (hmsk : Sub 512 msk) (hK : Keeps msk sb s) : Keeps msk sb (State.onMemCh s c f) := by
  unfold State.onMemCh; (with_reducible repeat' (first | assumption | (refine Sub.of 512 ?_ hmsk; with_unfolding_all rfl) | apply State.onMem_keeps | intro _ | (dsimp only)))

theorem State.memPush_keeps {msk : Nat} {sb s : State} (c : Fin 8) (r : MemReq) (hmsk : Sub 516 msk) (hK : Keeps msk sb s) : Keeps msk sb (State.memPush s c r) := by
  unfold State.memPush; (with_reducible repeat' (first | assumption | (refine Sub.of 516 ?_ hmsk; with_unfolding_all rfl) | apply State.bump_keeps | apply State.onMemCh_keeps | intro _ | split | (dsimp only)))

theorem State.memAccess_keeps {msk : Nat} {sb s : State} (c : Fin 8) (d : DramAddr) (t : Nat) (hmsk : Sub 524804 msk) (hK : Keeps msk sb s) : Keeps msk sb (State.memAccess s c d t) := by
  unfold State.memAccess; (with_reducible repeat' (first | assumption | (refine Sub.of 524804 ?_ hmsk; with_unfolding_all rfl) | apply State.onMemCh_keeps | apply State.bumpBy_keeps | apply State.drawn_keeps | intro _ | split | (dsimp only)))

theorem State.memServe_keeps {msk : Nat} {sb s : State} (c : Fin 8) (hmsk : Sub 524804 msk) (hK : Keeps msk sb s) : Keeps msk sb (State.memServe s c) := by
  unfold State.memServe; (with_reducible repeat' (first | assumption | (refine Sub.of 524804 ?_ hmsk; with_unfolding_all rfl) | apply State.onMemCh_keeps | apply State.memAccess_keeps | intro _ | split | (dsimp only)))

theorem State.memTick_keeps {msk : Nat} {sb s : State} (hmsk : Sub 524804 msk) (hK : Keeps msk sb s) : Keeps msk sb (State.memTick s) := by
  unfold State.memTick; (with_reducible repeat' (first | assumption | (refine Sub.of 524804 ?_ hmsk; with_unfolding_all rfl) | apply State.memServe_keeps | apply Keeps.foldl | apply Keeps.foldlFst | intro _ | (dsimp only)))

theorem State.refreshDue_keeps {msk : Nat} {sb s : State} (c : Fin 8) (busy : Bool) (hmsk : Sub 512 msk) (hK : Keeps msk sb s) : Keeps msk sb (State.refreshDue s c busy) := by
  unfold State.refreshDue; (with_reducible repeat' (first | assumption | (refine Sub.of 512 ?_ hmsk; with_unfolding_all rfl) | apply State.onMemCh_keeps | intro _ | split | (dsimp only)))

theorem execRefreshDue_keeps {msk : Nat} {sb s : State} (c : Fin 8) (busy : Bool) (hmsk : Sub 512 msk) (hK : Keeps msk sb s) : ∀ t, execRefreshDue c busy s = .next t → Keeps msk sb t := by
  intro t e; unfold execRefreshDue at e
  repeat' (first | (cases e; done) | (injection e with e; subst e) | split at e)
  all_goals (with_reducible repeat' (first | assumption | (refine Sub.of 512 ?_ hmsk; with_unfolding_all rfl) | apply State.live_keeps | apply State.refreshDue_keeps | intro _ | (dsimp only)))

theorem State.mr4Poll_keeps {msk : Nat} {sb s : State} (c : Fin 8) (rate : Fin 4) (hmsk : Sub 524 msk) (hK : Keeps msk sb s) : Keeps msk sb (State.mr4Poll s c rate) := by
  unfold State.mr4Poll; (with_reducible repeat' (first | assumption | (refine Sub.of 524 ?_ hmsk; with_unfolding_all rfl) | apply State.onMemCh_keeps | apply State.event_keeps | intro _ | split | (dsimp only)))

theorem execMr4Poll_keeps {msk : Nat} {sb s : State} (c : Fin 8) (rate : Fin 4) (hmsk : Sub 524 msk) (hK : Keeps msk sb s) : ∀ t, execMr4Poll c rate s = .next t → Keeps msk sb t := by
  intro t e; unfold execMr4Poll at e
  repeat' (first | (cases e; done) | (injection e with e; subst e) | split at e)
  all_goals (with_reducible repeat' (first | assumption | (refine Sub.of 524 ?_ hmsk; with_unfolding_all rfl) | apply State.live_keeps | apply State.mr4Poll_keeps | intro _ | (dsimp only)))

theorem State.quiesceNext_keeps {msk : Nat} {sb s : State} (from_ : Nat) (hmsk : Sub 512 msk) (hK : Keeps msk sb s) : Keeps msk sb (State.quiesceNext s from_) := by
  unfold State.quiesceNext; (with_reducible repeat' (first | assumption | (refine Sub.of 512 ?_ hmsk; with_unfolding_all rfl) | apply State.onMemCh_keeps | intro _ | split | (dsimp only)))

theorem State.bandSettled_keeps {msk : Nat} {sb s : State} (hmsk : Sub 512 msk) (hK : Keeps msk sb s) : Keeps msk sb (State.bandSettled s) := by
  unfold State.bandSettled; (with_reducible repeat' (first | assumption | (refine Sub.of 512 ?_ hmsk; with_unfolding_all rfl) | apply State.onMem_keeps | intro _ | split | (dsimp only)))

theorem State.memBand_keeps {msk : Nat} {sb s : State} (hmsk : Sub 512 msk) (hK : Keeps msk sb s) : Keeps msk sb (State.memBand s) := by
  unfold State.memBand; (with_reducible repeat' (first | assumption | (refine Sub.of 512 ?_ hmsk; with_unfolding_all rfl) | apply State.quiesceNext_keeps | (dsimp only)))

theorem State.delayLoaded_keeps {msk : Nat} {sb s : State} (hmsk : Sub 512 msk) (hK : Keeps msk sb s) : Keeps msk sb (State.delayLoaded s) := by
  unfold State.delayLoaded; (with_reducible repeat' (first | assumption | (refine Sub.of 512 ?_ hmsk; with_unfolding_all rfl) | apply State.onMemCh_keeps | apply State.quiesceNext_keeps | apply State.bandSettled_keeps | intro _ | split | (dsimp only)))

theorem execDelaySetLoadDone_keeps {msk : Nat} {sb s : State} (hmsk : Sub 512 msk) (hK : Keeps msk sb s) : ∀ t, execDelaySetLoadDone s = .next t → Keeps msk sb t := by
  intro t e; unfold execDelaySetLoadDone at e
  repeat' (first | (cases e; done) | (injection e with e; subst e) | split at e)
  all_goals (with_reducible repeat' (first | assumption | (refine Sub.of 512 ?_ hmsk; with_unfolding_all rfl) | apply State.live_keeps | apply State.delayLoaded_keeps | intro _ | (dsimp only)))

theorem State.writeback_keeps {msk : Nat} {sb s : State} (c : Fin 8) (l : Nat) (hmsk : Sub 516 msk) (hK : Keeps msk sb s) : Keeps msk sb (State.writeback s c l) := by
  unfold State.writeback; (with_reducible repeat' (first | assumption | (refine Sub.of 516 ?_ hmsk; with_unfolding_all rfl) | apply State.memPush_keeps | intro _ | split | (dsimp only)))

theorem State.ceRecord_keeps {msk : Nat} {sb s : State} (c : Fin 8) (l src : Nat) (k : Fin 20) (e : BitVec 80) (beats : Nat) (hmsk : Sub 524 msk) (hK : Keeps msk sb s) : Keeps msk sb (State.ceRecord s c l src k e beats) := by
  unfold State.ceRecord; (with_reducible repeat' (first | assumption | (refine Sub.of 524 ?_ hmsk; with_unfolding_all rfl) | apply State.bump_keeps | apply State.setF_keeps | apply State.event_keeps | apply State.onMemCh_keeps | intro _ | split | (dsimp only)))

theorem State.correctedAt_keeps {msk : Nat} {sb s : State} (c : Fin 8) (l src : Nat) (k : Fin 20) (e : BitVec 80) (beats : Nat) (hmsk : Sub 16843276 msk) (hK : Keeps msk sb s) : Keeps msk sb (State.correctedAt s c l src k e beats) := by
  unfold State.correctedAt; (with_reducible repeat' (first | assumption | (refine Sub.of 16843276 ?_ hmsk; with_unfolding_all rfl) | apply State.ceRecord_keeps | apply State.writeback_keeps | apply State.upset_keeps | (dsimp only)))

theorem State.ueRecord_keeps {msk : Nat} {sb s : State} (c : Fin 8) (l kind subch src synd cmd : Nat) (hmsk : Sub 524 msk) (hK : Keeps msk sb s) : Keeps msk sb (State.ueRecord s c l kind subch src synd cmd) := by
  unfold State.ueRecord; (with_reducible repeat' (first | assumption | (refine Sub.of 524 ?_ hmsk; with_unfolding_all rfl) | apply State.setF_keeps | apply State.onMemCh_keeps | apply State.event_keeps | intro _ | (dsimp only)))

theorem State.othersRest_keeps {msk : Nat} {sb s : State} (hmsk : Sub 512 msk) (hK : Keeps msk sb s) : Keeps msk sb (State.othersRest s) := by
  unfold State.othersRest; (with_reducible repeat' (first | assumption | (refine Sub.of 512 ?_ hmsk; with_unfolding_all rfl) | apply State.onMem_keeps | intro _ | split | (dsimp only)))

theorem State.diagBeat_keeps {msk : Nat} {sb s : State} (data : BitVec 64) (check : BitVec 16) (hmsk : Sub 4 msk) (hK : Keeps msk sb s) : ∀ t, State.diagBeat s data check = some t → Keeps msk sb t := by
  intro t e; unfold State.diagBeat at e; (try dsimp only at e)
  repeat' (first | (cases e; done) | (injection e with e; subst e) | split at e)
  all_goals (with_reducible repeat' (first | assumption | (refine Sub.of 4 ?_ hmsk; with_unfolding_all rfl) | apply State.setF_keeps | split | (dsimp only)))

theorem State.diagRead_keeps {msk : Nat} {sb s : State} (ses : Fin 5) (data : BitVec 64) (check : BitVec 16) (hmsk : Sub 7 msk) (hK : Keeps msk sb s) : Keeps msk sb (State.diagRead s ses data check) := by
  unfold State.diagRead; (with_reducible repeat' (first | assumption | (refine Sub.of 7 ?_ hmsk; with_unfolding_all rfl) | (refine State.diagBeat_keeps _ _ (Sub.of 7 (by with_unfolding_all rfl) hmsk) ?_ _ (by assumption)) | apply State.sesCmd_keeps | intro _ | (dsimp only) | (rename_i e; replace e := Option.map_eq_some_iff.mp e; obtain ⟨_, e, rfl⟩ := e) | (rename_i e; cases e; done) | (rename_i e; injection e with e; subst e) | (rename_i e; dsimp only at e) | (rename_i e; split at e)))

theorem execDiagRead_keeps {msk : Nat} {sb s : State} (ses : Fin 5) (data : BitVec 64) (check : BitVec 16) (hmsk : Sub 7 msk) (hK : Keeps msk sb s) : ∀ t, execDiagRead ses data check s = .next t → Keeps msk sb t := by
  intro t e; unfold execDiagRead at e
  repeat' (first | (cases e; done) | (injection e with e; subst e) | split at e)
  all_goals (with_reducible repeat' (first | assumption | (refine Sub.of 7 ?_ hmsk; with_unfolding_all rfl) | apply State.diagRead_keeps | (dsimp only)))

theorem State.scrubRead_keeps {msk : Nat} {sb s : State} (c : Fin 8) (hmsk : Sub 516 msk) (hK : Keeps msk sb s) : Keeps msk sb (State.scrubRead s c) := by
  unfold State.scrubRead; (with_reducible repeat' (first | assumption | (refine Sub.of 516 ?_ hmsk; with_unfolding_all rfl) | apply State.memPush_keeps | apply State.onMemCh_keeps | intro _ | split | (dsimp only)))

theorem execScrubRead_keeps {msk : Nat} {sb s : State} (c : Fin 8) (hmsk : Sub 516 msk) (hK : Keeps msk sb s) : ∀ t, execScrubRead c s = .next t → Keeps msk sb t := by
  intro t e; unfold execScrubRead at e
  repeat' (first | (cases e; done) | (injection e with e; subst e) | split at e)
  all_goals (with_reducible repeat' (first | assumption | (refine Sub.of 516 ?_ hmsk; with_unfolding_all rfl) | apply State.live_keeps | apply State.scrubRead_keeps | intro _ | (dsimp only)))

theorem State.capNow_keeps {msk : Nat} {sb s : State} (hmsk : Sub 28 msk) (hK : Keeps msk sb s) : Keeps msk sb (State.capNow s) := by
  unfold State.capNow; (with_reducible repeat' (first | assumption | (refine Sub.of 28 ?_ hmsk; with_unfolding_all rfl) | apply State.setF_keeps | apply State.ringTest_keeps | apply State.onIng_keeps | apply Keeps.foldl | apply Keeps.foldlFst | intro _ | (dsimp only)))

theorem State.leaveList_keeps {msk : Nat} {sb s : State} (l : List (Fin 8)) (hmsk : Sub 540 msk) (hK : Keeps msk sb s) : Keeps msk sb (State.leaveList s l) := by
  unfold State.leaveList; (with_reducible repeat' (first | assumption | (refine Sub.of 540 ?_ hmsk; with_unfolding_all rfl) | apply State.onMemCh_keeps | apply State.onMem_keeps | apply State.quiesceNext_keeps | apply State.bandSettled_keeps | apply State.qFlush_keeps | apply State.capNow_keeps | apply Keeps.foldl | apply Keeps.foldlFst | intro _ | split | (dsimp only)))

theorem State.fillDone_keeps {msk : Nat} {sb s : State} (hmsk : Sub 16843308 msk) (hK : Keeps msk sb s) : Keeps msk sb (State.fillDone s) := by
  unfold State.fillDone; (with_reducible repeat' (first | assumption | (refine Sub.of 16843308 ?_ hmsk; with_unfolding_all rfl) | apply State.onBar_keeps | apply State.markRetired_keeps | apply State.event_keeps | apply State.onMem_keeps | apply Keeps.foldl | apply Keeps.foldlFst | intro _ | (dsimp only)))

end Sys2Proof.Machine
end

