-- ==== Sys2Proof/Laws/KeepsNvm.lean ====
section
/-! SUPPORT. What each operation of Machine/Nvm.lean keeps: the queue, and the canonical form of the register maps. -/
set_option Elab.async false
namespace Sys2Proof.Machine

theorem State.nvmOp_keeps {msk : Nat} {sb s : State} (op : Nat) (busy : Bool) (hmsk : Sub 2 msk) (hK : Keeps msk sb s) : Keeps msk sb (State.nvmOp s op busy) := by
  unfold State.nvmOp; (with_reducible repeat' (first | assumption | (refine Sub.of 2 ?_ hmsk; with_unfolding_all rfl) | (refine fun (hb : msk.testBit 21 = false) => ?_; intro _ n; first | rfl | exact role_vmod _ _ n (fun _ => rfl) | (dsimp only; split <;> rfl)) | apply State.onCfg_keeps | intro _ | (dsimp only)))

theorem State.calWrite_keeps {msk : Nat} {sb s : State} (r : CalRun) (set : CalSet) (hmsk : Sub 2 msk) (hK : Keeps msk sb s) : Keeps msk sb (State.calWrite s r set) := by
  unfold State.calWrite; (with_reducible repeat' (first | assumption | (refine Sub.of 2 ?_ hmsk; with_unfolding_all rfl) | (refine fun (hb : msk.testBit 21 = false) => ?_; intro _ n; first | rfl | exact role_vmod _ _ n (fun _ => rfl) | (dsimp only; split <;> rfl)) | apply State.onCfg_keeps | intro _ | (dsimp only)))

theorem State.calSnap_keeps {msk : Nat} {sb s : State} (hmsk : Sub 2 msk) (hK : Keeps msk sb s) : Keeps msk sb (State.calSnap s) := by
  unfold State.calSnap; (with_reducible repeat' (first | assumption | (refine Sub.of 2 ?_ hmsk; with_unfolding_all rfl) | apply State.calWrite_keeps | split | (dsimp only)))

theorem State.calBegin_keeps {msk : Nat} {sb s : State} (who : Nat) (set : Option CalSet) (hmsk : Sub 2 msk) (hK : Keeps msk sb s) : Keeps msk sb (State.calBegin s who set) := by
  unfold State.calBegin; (with_reducible repeat' (first | assumption | (refine Sub.of 2 ?_ hmsk; with_unfolding_all rfl) | (refine fun (hb : msk.testBit 21 = false) => ?_; intro _ n; first | rfl | exact role_vmod _ _ n (fun _ => rfl) | (dsimp only; split <;> rfl)) | apply State.nvmOp_keeps | apply State.onCfg_keeps | apply State.calWrite_keeps | apply State.calSnap_keeps | intro _ | split | (dsimp only)))

theorem State.calAuto_keeps {msk : Nat} {sb s : State} (retire : Bool) (hmsk : Sub 2 msk) (hK : Keeps msk sb s) : Keeps msk sb (State.calAuto s retire) := by
  unfold State.calAuto; (with_reducible repeat' (first | assumption | (refine Sub.of 2 ?_ hmsk; with_unfolding_all rfl) | apply State.calBegin_keeps | split | (dsimp only)))

theorem State.calAutoDue_keeps {msk : Nat} {sb s : State} (hmsk : Sub 2 msk) (hK : Keeps msk sb s) : Keeps msk sb (State.calAutoDue s) := by
  unfold State.calAutoDue; (with_reducible repeat' (first | assumption | (refine Sub.of 2 ?_ hmsk; with_unfolding_all rfl) | (refine fun (hb : msk.testBit 21 = false) => ?_; intro _ n; first | rfl | exact role_vmod _ _ n (fun _ => rfl) | (dsimp only; split <;> rfl)) | apply State.onCfg_keeps | apply State.calAuto_keeps | intro _ | split | (dsimp only)))

theorem execCalAutoCommit_keeps {msk : Nat} {sb s : State} (hmsk : Sub 2 msk) (hK : Keeps msk sb s) : ∀ t, execCalAutoCommit s = .next t → Keeps msk sb t := by
  intro t e; unfold execCalAutoCommit at e
  repeat' (first | (cases e; done) | (injection e with e; subst e) | split at e)
  all_goals (with_reducible repeat' (first | assumption | (refine Sub.of 2 ?_ hmsk; with_unfolding_all rfl) | apply State.live_keeps | apply State.calAutoDue_keeps | intro _ | (dsimp only)))

theorem State.calVerified_keeps {msk : Nat} {sb s : State} (ok : Bool) (hmsk : Sub 2 msk) (hK : Keeps msk sb s) : Keeps msk sb (State.calVerified s ok) := by
  unfold State.calVerified; (with_reducible repeat' (first | assumption | (refine Sub.of 2 ?_ hmsk; with_unfolding_all rfl) | (refine fun (hb : msk.testBit 21 = false) => ?_; intro _ n; first | rfl | exact role_vmod _ _ n (fun _ => rfl) | (dsimp only; split <;> rfl)) | apply State.calSnap_keeps | apply State.onCfg_keeps | apply State.audit_keeps | intro _ | split | (dsimp only)))

theorem State.calErased_keeps {msk : Nat} {sb s : State} (hmsk : Sub 2 msk) (hK : Keeps msk sb s) : Keeps msk sb (State.calErased s) := by
  unfold State.calErased; (with_reducible repeat' (first | assumption | (refine Sub.of 2 ?_ hmsk; with_unfolding_all rfl) | (refine fun (hb : msk.testBit 21 = false) => ?_; intro _ n; first | rfl | exact role_vmod _ _ n (fun _ => rfl) | (dsimp only; split <;> rfl)) | apply State.onCfg_keeps | intro _ | split | (dsimp only)))

theorem execCalOldCopyErased_keeps {msk : Nat} {sb s : State} (hmsk : Sub 2 msk) (hK : Keeps msk sb s) : ∀ t, execCalOldCopyErased s = .next t → Keeps msk sb t := by
  intro t e; unfold execCalOldCopyErased at e
  repeat' (first | (cases e; done) | (injection e with e; subst e) | split at e)
  all_goals (with_reducible repeat' (first | assumption | (refine Sub.of 2 ?_ hmsk; with_unfolding_all rfl) | apply State.live_keeps | apply State.calErased_keeps | intro _ | (dsimp only)))

theorem State.xferBegin_keeps {msk : Nat} {sb s : State} (i : Image) (hmsk : Sub 2 msk) (hK : Keeps msk sb s) : Keeps msk sb (State.xferBegin s i) := by
  unfold State.xferBegin; (with_reducible repeat' (first | assumption | (refine Sub.of 2 ?_ hmsk; with_unfolding_all rfl) | (refine fun (hb : msk.testBit 21 = false) => ?_; intro _ n; first | rfl | exact role_vmod _ _ n (fun _ => rfl) | (dsimp only; split <;> rfl)) | apply State.nvmOp_keeps | apply State.onCfg_keeps | intro _ | (dsimp only)))

theorem State.imageIn_keeps {msk : Nat} {sb s : State} (ses : Fin 5) (i : Image) (hmsk : Sub 2 msk) (hK : Keeps msk sb s) : Keeps msk sb (State.imageIn s ses i) := by
  unfold State.imageIn; (with_reducible repeat' (first | assumption | (refine Sub.of 2 ?_ hmsk; with_unfolding_all rfl) | (refine fun (hb : msk.testBit 21 = false) => ?_; intro _ n; first | rfl | exact role_vmod _ _ n (fun _ => rfl) | (dsimp only; split <;> rfl)) | apply State.onCfg_keeps | apply State.xferBegin_keeps | intro _ | split | (dsimp only)))

theorem execImageTransfer_keeps {msk : Nat} {sb s : State} (ses : Fin 5) (img : Image) (hmsk : Sub 2 msk) (hK : Keeps msk sb s) : ∀ t, execImageTransfer ses img s = .next t → Keeps msk sb t := by
  intro t e; unfold execImageTransfer at e
  repeat' (first | (cases e; done) | (injection e with e; subst e) | split at e)
  all_goals (with_reducible repeat' (first | assumption | (refine Sub.of 2 ?_ hmsk; with_unfolding_all rfl) | apply State.live_keeps | apply State.imageIn_keeps | intro _ | (dsimp only)))

theorem State.imageNext_keeps {msk : Nat} {sb s : State} (hmsk : Sub 2 msk) (hK : Keeps msk sb s) : Keeps msk sb (State.imageNext s) := by
  unfold State.imageNext; (with_reducible repeat' (first | assumption | (refine Sub.of 2 ?_ hmsk; with_unfolding_all rfl) | apply State.xferBegin_keeps | split | (dsimp only)))

theorem execImageTransferDequeue_keeps {msk : Nat} {sb s : State} (hmsk : Sub 2 msk) (hK : Keeps msk sb s) : ∀ t, execImageTransferDequeue s = .next t → Keeps msk sb t := by
  intro t e; unfold execImageTransferDequeue at e
  repeat' (first | (cases e; done) | (injection e with e; subst e) | split at e)
  all_goals (with_reducible repeat' (first | assumption | (refine Sub.of 2 ?_ hmsk; with_unfolding_all rfl) | apply State.live_keeps | apply State.imageNext_keeps | intro _ | (dsimp only)))

theorem State.imageCheck_keeps {msk : Nat} {sb s : State} (hmsk : Sub 2 msk) (hK : Keeps msk sb s) : Keeps msk sb (State.imageCheck s) := by
  unfold State.imageCheck; (with_reducible repeat' (first | assumption | (refine Sub.of 2 ?_ hmsk; with_unfolding_all rfl) | (refine fun (hb : msk.testBit 21 = false) => ?_; intro _ n; first | rfl | exact role_vmod _ _ n (fun _ => rfl) | (dsimp only; split <;> rfl)) | apply State.onCfg_keeps | apply State.calAuto_keeps | intro _ | split | (dsimp only)))

theorem execImageBankVerify_keeps {msk : Nat} {sb s : State} (hmsk : Sub 2 msk) (hK : Keeps msk sb s) : ∀ t, execImageBankVerify s = .next t → Keeps msk sb t := by
  intro t e; unfold execImageBankVerify at e
  repeat' (first | (cases e; done) | (injection e with e; subst e) | split at e)
  all_goals (with_reducible repeat' (first | assumption | (refine Sub.of 2 ?_ hmsk; with_unfolding_all rfl) | apply State.live_keeps | apply State.imageCheck_keeps | intro _ | (dsimp only)))

theorem State.recWrite_keeps {msk : Nat} {sb s : State} (kind : Nat) (body : RegMap) (hmsk : Sub 2 msk) (hK : Keeps msk sb s) : Keeps msk sb (State.recWrite s kind body) := by
  unfold State.recWrite; (with_reducible repeat' (first | assumption | (refine Sub.of 2 ?_ hmsk; with_unfolding_all rfl) | (refine fun (hb : msk.testBit 21 = false) => ?_; intro _ n; first | rfl | exact role_vmod _ _ n (fun _ => rfl) | (dsimp only; split <;> rfl)) | apply State.nvmOp_keeps | apply State.onCfg_keeps | intro _ | split | (dsimp only)))

theorem State.recCut_keeps {msk : Nat} {sb s : State} (hmsk : Sub 524290 msk) (hK : Keeps msk sb s) : Keeps msk sb (State.recCut s) := by
  unfold State.recCut; (with_reducible repeat' (first | assumption | (refine Sub.of 524290 ?_ hmsk; with_unfolding_all rfl) | (refine fun (hb : msk.testBit 21 = false) => ?_; intro _ n; first | rfl | exact role_vmod _ _ n (fun _ => rfl) | (dsimp only; split <;> rfl)) | apply State.when_keeps | apply State.onCfg_keeps | apply State.drawn_keeps | apply Keeps.foldl | apply Keeps.foldlFst | intro _ | (dsimp only)))

theorem State.useRecords_keeps {msk : Nat} {sb s : State} (hmsk : Sub 2 msk) (hK : Keeps msk sb s) : Keeps msk sb (State.useRecords s) := by
  unfold State.useRecords; (with_reducible repeat' (first | assumption | (refine Sub.of 2 ?_ hmsk; with_unfolding_all rfl) | apply State.recWrite_keeps | apply Keeps.foldl | apply Keeps.foldlFst | apply Keeps.getD | intro _ | split | (dsimp only) | (rename_i e; replace e := Option.map_eq_some_iff.mp e; obtain ⟨_, e, rfl⟩ := e) | (rename_i e; cases e; done) | (rename_i e; injection e with e; subst e) | (rename_i e; dsimp only at e) | (rename_i e; split at e)))

theorem execNozzleUseRecord_keeps {msk : Nat} {sb s : State} (hmsk : Sub 2 msk) (hK : Keeps msk sb s) : ∀ t, execNozzleUseRecord s = .next t → Keeps msk sb t := by
  intro t e; unfold execNozzleUseRecord at e
  repeat' (first | (cases e; done) | (injection e with e; subst e) | split at e)
  all_goals (with_reducible repeat' (first | assumption | (refine Sub.of 2 ?_ hmsk; with_unfolding_all rfl) | apply State.live_keeps | apply State.useRecords_keeps | intro _ | (dsimp only)))

theorem State.blockErase_keeps {msk : Nat} {sb s : State} (i : Nat) (hmsk : Sub 2 msk) (hK : Keeps msk sb s) : Keeps msk sb (State.blockErase s i) := by
  unfold State.blockErase; (with_reducible repeat' (first | assumption | (refine Sub.of 2 ?_ hmsk; with_unfolding_all rfl) | (refine fun (hb : msk.testBit 21 = false) => ?_; intro _ n; first | rfl | exact role_vmod _ _ n (fun _ => rfl) | (dsimp only; split <;> rfl)) | apply State.onCfg_keeps | intro _ | split | (dsimp only)))

theorem execFreeBlockErase_keeps {msk : Nat} {sb s : State} (block : Nat) (hmsk : Sub 2 msk) (hK : Keeps msk sb s) : ∀ t, execFreeBlockErase block s = .next t → Keeps msk sb t := by
  intro t e; unfold execFreeBlockErase at e
  repeat' (first | (cases e; done) | (injection e with e; subst e) | split at e)
  all_goals (with_reducible repeat' (first | assumption | (refine Sub.of 2 ?_ hmsk; with_unfolding_all rfl) | apply State.live_keeps | apply State.blockErase_keeps | intro _ | (dsimp only)))

theorem State.nvmRej_keeps {msk : Nat} {sb s : State} (hmsk : Sub 4 msk) (hK : Keeps msk sb s) : Keeps msk sb (State.nvmRej s) := by
  unfold State.nvmRej; (with_reducible repeat' (first | assumption | (refine Sub.of 4 ?_ hmsk; with_unfolding_all rfl) | apply State.bump_keeps | (dsimp only)))

theorem State.activateBank_keeps {msk : Nat} {sb s : State} (who : Nat) (hmsk : Sub 2 msk) (hK : Keeps msk sb s) : Keeps msk sb (State.activateBank s who) := by
  unfold State.activateBank; (with_reducible repeat' (first | assumption | (refine Sub.of 2 ?_ hmsk; with_unfolding_all rfl) | (refine fun (hb : msk.testBit 21 = false) => ?_; intro _ n; first | rfl | exact role_vmod _ _ n (fun _ => rfl) | (dsimp only; split <;> rfl)) | apply State.nvmOp_keeps | apply State.recWrite_keeps | apply State.onCfg_keeps | apply State.audit_keeps | apply Keeps.getD | intro _ | (dsimp only) | (rename_i e; replace e := Option.map_eq_some_iff.mp e; obtain ⟨_, e, rfl⟩ := e) | (rename_i e; cases e; done) | (rename_i e; injection e with e; subst e) | (rename_i e; dsimp only at e) | (rename_i e; split at e)))

theorem State.nvmFrozen_keeps {msk : Nat} {sb s : State} (ses : Fin 5) (w : Word) (hmsk : Sub 6 msk) (hK : Keeps msk sb s) : Keeps msk sb (State.nvmFrozen s ses w) := by
  unfold State.nvmFrozen; (with_reducible repeat' (first | assumption | (refine Sub.of 6 ?_ hmsk; with_unfolding_all rfl) | apply State.burstCut_keeps | apply State.when_keeps | apply State.nvmRej_keeps | intro _ | (dsimp only)))

theorem State.nvmCmd_keeps {msk : Nat} {sb s : State} (ses : Fin 5) (w : Word) (hmsk : Sub 7 msk) (hK : Keeps msk sb s) : Keeps msk sb (State.nvmCmd s ses w) := by
  unfold State.nvmCmd; (with_reducible repeat' (first | assumption | (refine Sub.of 7 ?_ hmsk; with_unfolding_all rfl) | (refine fun (hb : msk.testBit 21 = false) => ?_; intro _ n; first | rfl | exact role_vmod _ _ n (fun _ => rfl) | (dsimp only; split <;> rfl)) | apply State.live_keeps | apply State.nvmFrozen_keeps | apply State.sesReach_keeps | apply State.auditWrite_keeps | apply State.nvmRej_keeps | apply State.calBegin_keeps | apply State.activateBank_keeps | apply State.onCfg_keeps | apply Keeps.getD | intro _ | split | (dsimp only) | (rename_i e; replace e := Option.map_eq_some_iff.mp e; obtain ⟨_, e, rfl⟩ := e) | (rename_i e; cases e; done) | (rename_i e; injection e with e; subst e) | (rename_i e; dsimp only at e) | (rename_i e; split at e)))

theorem execCalCommit_keeps {msk : Nat} {sb s : State} (ses : Fin 5) (confirm : Byte) (hmsk : Sub 7 msk) (hK : Keeps msk sb s) : ∀ t, execCalCommit ses confirm s = .next t → Keeps msk sb t := by
  intro t e; unfold execCalCommit at e
  repeat' (first | (cases e; done) | (injection e with e; subst e) | split at e)
  all_goals (with_reducible repeat' (first | assumption | (refine Sub.of 7 ?_ hmsk; with_unfolding_all rfl) | apply State.nvmCmd_keeps | (dsimp only)))

theorem execActivateImageBank_keeps {msk : Nat} {sb s : State} (ses : Fin 5) (confirm : Byte) (hmsk : Sub 7 msk) (hK : Keeps msk sb s) : ∀ t, execActivateImageBank ses confirm s = .next t → Keeps msk sb t := by
  intro t e; unfold execActivateImageBank at e
  repeat' (first | (cases e; done) | (injection e with e; subst e) | split at e)
  all_goals (with_reducible repeat' (first | assumption | (refine Sub.of 7 ?_ hmsk; with_unfolding_all rfl) | apply State.nvmCmd_keeps | (dsimp only)))

theorem State.calStaged_keeps {msk : Nat} {sb s : State} (ses : Fin 5) (confirm : Byte) (staged : Option CalSet) (hmsk : Sub 7 msk) (hK : Keeps msk sb s) : Keeps msk sb (State.calStaged s ses confirm staged) := by
  unfold State.calStaged; (with_reducible repeat' (first | assumption | (refine Sub.of 7 ?_ hmsk; with_unfolding_all rfl) | (refine fun (hb : msk.testBit 21 = false) => ?_; intro _ n; first | rfl | exact role_vmod _ _ n (fun _ => rfl) | (dsimp only; split <;> rfl)) | apply State.live_keeps | apply State.onCfg_keeps | apply State.nvmCmd_keeps | intro _ | split | (dsimp only)))

theorem execCommitStagedCalSet_keeps {msk : Nat} {sb s : State} (ses : Fin 5) (confirm : Byte) (staged : Option CalSet) (hmsk : Sub 7 msk) (hK : Keeps msk sb s) : ∀ t, execCommitStagedCalSet ses confirm staged s = .next t → Keeps msk sb t := by
  intro t e; unfold execCommitStagedCalSet at e
  repeat' (first | (cases e; done) | (injection e with e; subst e) | split at e)
  all_goals (with_reducible repeat' (first | assumption | (refine Sub.of 7 ?_ hmsk; with_unfolding_all rfl) | apply State.calStaged_keeps | (dsimp only)))

theorem State.onSes_keeps {m : Nat} {sb s : State} (ses : Fin 5) (f : Session → Session) (hm : Sub 2 m) (hK : Keeps m sb s)
    (hv : m.testBit 21 = false → ∀ x, (f x).role = x.role) : Keeps m sb (s.onSes ses f) :=
  State.onCfg_keeps _ hm hK (fun hb c n => role_vmod c.sess ses n (hv hb))

theorem State.setRole_keeps {msk : Nat} {sb s : State} (ses : Fin 5) (r : Option Role) (hmsk : Sub 2097154 msk) (hK : Keeps msk sb s) : Keeps msk sb (State.setRole s ses r) := by
  unfold State.setRole; (with_reducible repeat' (first | assumption | (refine Sub.of 2097154 ?_ hmsk; with_unfolding_all rfl) | (refine fun (hb : msk.testBit 21 = false) => ?_; with_unfolding_all exact (Sub.off (p := .roles) 2097154 hmsk rfl hb).elim) | apply State.onSes_keeps | intro _ | (dsimp only)))

theorem State.login_keeps {msk : Nat} {sb s : State} (ses : Fin 5) (r : Role) (key : List Byte) (hmsk : Sub 2097154 msk) (hK : Keeps msk sb s) : Keeps msk sb (State.login s ses r key) := by
  unfold State.login; (with_reducible repeat' (first | assumption | (refine Sub.of 2097154 ?_ hmsk; with_unfolding_all rfl) | (refine fun (hb : msk.testBit 21 = false) => ?_; with_unfolding_all exact (Sub.off (p := .roles) 2097154 hmsk rfl hb).elim) | apply State.setRole_keeps | apply State.onSes_keeps | intro _ | split | (dsimp only)))

theorem execLogin_keeps {msk : Nat} {sb s : State} (ses : Fin 5) (role : Role) (key : List Byte) (hmsk : Sub 2097154 msk) (hK : Keeps msk sb s) : ∀ t, execLogin ses role key s = .next t → Keeps msk sb t := by
  intro t e; unfold execLogin at e
  repeat' (first | (cases e; done) | (injection e with e; subst e) | split at e)
  all_goals (with_reducible repeat' (first | assumption | (refine Sub.of 2097154 ?_ hmsk; with_unfolding_all rfl) | apply State.live_keeps | apply State.login_keeps | intro _ | (dsimp only)))

theorem execLoginLockoutExpiry_keeps {msk : Nat} {sb s : State} (ses : Fin 5) (hmsk : Sub 2 msk) (hK : Keeps msk sb s) : ∀ t, execLoginLockoutExpiry ses s = .next t → Keeps msk sb t := by
  intro t e; unfold execLoginLockoutExpiry at e
  repeat' (first | (cases e; done) | (injection e with e; subst e) | split at e)
  all_goals (with_reducible repeat' (first | assumption | (refine Sub.of 2 ?_ hmsk; with_unfolding_all rfl) | (refine fun (hb : msk.testBit 21 = false) => ?_; intro _ n; first | rfl | exact role_vmod _ _ n (fun _ => rfl) | (dsimp only; split <;> rfl)) | apply State.live_keeps | apply State.onSes_keeps | intro _ | (dsimp only)))

theorem execLogout_keeps {msk : Nat} {sb s : State} (ses : Fin 5) (hmsk : Sub 2097154 msk) (hK : Keeps msk sb s) : ∀ t, execLogout ses s = .next t → Keeps msk sb t := by
  intro t e; unfold execLogout at e
  repeat' (first | (cases e; done) | (injection e with e; subst e) | split at e)
  all_goals (with_reducible repeat' (first | assumption | (refine Sub.of 2097154 ?_ hmsk; with_unfolding_all rfl) | apply State.live_keeps | apply State.endBurst_keeps | apply State.setRole_keeps | intro _ | (dsimp only)))

theorem execSessionTimeout_keeps {msk : Nat} {sb s : State} (ses : Fin 5) (hmsk : Sub 2097154 msk) (hK : Keeps msk sb s) : ∀ t, execSessionTimeout ses s = .next t → Keeps msk sb t := by
  intro t e; unfold execSessionTimeout at e
  repeat' (first | (cases e; done) | (injection e with e; subst e) | split at e)
  all_goals (with_reducible repeat' (first | assumption | (refine Sub.of 2097154 ?_ hmsk; with_unfolding_all rfl) | apply State.live_keeps | apply State.endBurst_keeps | apply State.setRole_keeps | intro _ | (dsimp only)))

theorem State.endFwdBurst_keeps {msk : Nat} {sb s : State} (hmsk : Sub 2 msk) (hK : Keeps msk sb s) : Keeps msk sb (State.endFwdBurst s) := by
  unfold State.endFwdBurst; (with_reducible repeat' (first | assumption | (refine Sub.of 2 ?_ hmsk; with_unfolding_all rfl) | (refine fun (hb : msk.testBit 21 = false) => ?_; intro _ n; first | rfl | exact role_vmod _ _ n (fun _ => rfl) | (dsimp only; split <;> rfl)) | apply State.onCfg_keeps | apply State.audit_keeps | intro _ | split | (dsimp only)))

theorem State.burstOver_keeps {msk : Nat} {sb s : State} (ses : Fin 5) (hmsk : Sub 2 msk) (hK : Keeps msk sb s) : Keeps msk sb (State.burstOver s ses) := by
  unfold State.burstOver; (with_reducible repeat' (first | assumption | (refine Sub.of 2 ?_ hmsk; with_unfolding_all rfl) | apply State.endBurst_keeps | apply State.endFwdBurst_keeps | split | (dsimp only)))

theorem execAuditBurstEnd_keeps {msk : Nat} {sb s : State} (ses : Fin 5) (hmsk : Sub 2 msk) (hK : Keeps msk sb s) : ∀ t, execAuditBurstEnd ses s = .next t → Keeps msk sb t := by
  intro t e; unfold execAuditBurstEnd at e
  repeat' (first | (cases e; done) | (injection e with e; subst e) | split at e)
  all_goals (with_reducible repeat' (first | assumption | (refine Sub.of 2 ?_ hmsk; with_unfolding_all rfl) | apply State.live_keeps | apply State.burstOver_keeps | intro _ | (dsimp only)))

theorem State.auditPage_keeps {msk : Nat} {sb s : State} (hmsk : Sub 2 msk) (hK : Keeps msk sb s) : Keeps msk sb (State.auditPage s) := by
  unfold State.auditPage; (with_reducible repeat' (first | assumption | (refine Sub.of 2 ?_ hmsk; with_unfolding_all rfl) | (refine fun (hb : msk.testBit 21 = false) => ?_; intro _ n; first | rfl | exact role_vmod _ _ n (fun _ => rfl) | (dsimp only; split <;> rfl)) | apply State.nvmOp_keeps | apply State.onCfg_keeps | intro _ | split | (dsimp only)))

end Sys2Proof.Machine
end

