-- ==== Sys2Proof/Laws/KeepsSeat.lean ====
section
/-! SUPPORT. What each operation of Machine/Seat.lean keeps: the queue, and the canonical form of the register maps. -/
set_option Elab.async false
namespace Sys2Proof.Machine

theorem State.asShadow_keeps {m : Nat} {sb s : State} {f : State → State} (hm : Sub 1 m) (hK : Keeps m sb s)
    (hf : ∀ b x, Keeps m b x → Keeps m b (f x)) : Keeps m sb (s.asShadow f) := by
  unfold State.asShadow
  split
  · rename_i hs
    have hs : s.sys.mode = .standby := by simpa [State.inMode] using hs
    have h1 := hf _ _ (Keeps.refl m (s.onSys fun y => { y with mode := y.shadow, cold := y.shadowCold, unseen := true }))
    refine ⟨h1.pending.trans hK.pending, fun w => h1.regs (hK.regs w), fun p hp => ?_⟩
    cases p
    case sys => exact (Sub.off 1 hm rfl hp).elim
    case mode => exact (show Mode.standby = sb.sys.mode from hs ▸ hK.parts .mode hp)
    case roles => exact fun n => ((h1.parts .roles hp) n).trans (hK.parts .roles hp n)
    all_goals exact (h1.parts _ hp).trans (hK.parts _ hp)
  · exact hf _ _ hK

theorem State.writeTrailer_keeps {msk : Nat} {sb s : State} (bj : BJob) (hmsk : Sub 16 msk) (hK : Keeps msk sb s) : Keeps msk sb (State.writeTrailer s bj) := by
  unfold State.writeTrailer; (with_reducible repeat' (first | assumption | (refine Sub.of 16 ?_ hmsk; with_unfolding_all rfl) | apply State.onIng_keeps | apply Keeps.getD | intro _ | split | (dsimp only) | (rename_i e; replace e := Option.map_eq_some_iff.mp e; obtain ⟨_, e, rfl⟩ := e) | (rename_i e; cases e; done) | (rename_i e; injection e with e; subst e) | (rename_i e; dsimp only at e) | (rename_i e; split at e)))

theorem State.writeVoid_keeps {msk : Nat} {sb s : State} (bj : BJob) (hmsk : Sub 16 msk) (hK : Keeps msk sb s) : Keeps msk sb (State.writeVoid s bj) := by
  unfold State.writeVoid; (with_reducible repeat' (first | assumption | (refine Sub.of 16 ?_ hmsk; with_unfolding_all rfl) | apply State.onIng_keeps | intro _ | split | (dsimp only)))

theorem State.cutJob_keeps {msk : Nat} {sb s : State} (bj : BJob) (hmsk : Sub 524316 msk) (hK : Keeps msk sb s) : Keeps msk sb (State.cutJob s bj) := by
  unfold State.cutJob; (with_reducible repeat' (first | assumption | (refine Sub.of 524316 ?_ hmsk; with_unfolding_all rfl) | apply State.writeTrailer_keeps | apply State.writeVoid_keeps | apply State.ctxDrop_keeps | apply State.failJob_keeps | apply State.archRest_keeps | apply State.endBlocks_keeps | apply State.dropArch_keeps | apply State.modJob_keeps | apply Keeps.getD | intro _ | split | (dsimp only) | (rename_i e; replace e := Option.map_eq_some_iff.mp e; obtain ⟨_, e, rfl⟩ := e) | (rename_i e; cases e; done) | (rename_i e; injection e with e; subst e) | (rename_i e; dsimp only at e) | (rename_i e; split at e)))

theorem State.flushBar_keeps {msk : Nat} {sb s : State} (b : Fin 8) (hmsk : Sub 40 msk) (hK : Keeps msk sb s) : Keeps msk sb (State.flushBar s b) := by
  unfold State.flushBar; (with_reducible repeat' (first | assumption | (refine Sub.of 40 ?_ hmsk; with_unfolding_all rfl) | apply State.qFlush_keeps | apply State.onBar_keeps | apply Keeps.foldl | apply Keeps.foldlFst | intro _ | split | (dsimp only)))

theorem State.freeBar_keeps {msk : Nat} {sb s : State} (b : Fin 8) (hmsk : Sub 44 msk) (hK : Keeps msk sb s) : Keeps msk sb (State.freeBar s b) := by
  unfold State.freeBar; (with_reducible repeat' (first | assumption | (refine Sub.of 44 ?_ hmsk; with_unfolding_all rfl) | apply State.flushBar_keeps | apply State.knotsFree_keeps | apply State.setF_keeps | split | (dsimp only)))

theorem State.dropJobs_keeps {msk : Nat} {sb s : State} (keep : BJob → Bool) (hmsk : Sub 301 msk) (hK : Keeps msk sb s) : Keeps msk sb (State.dropJobs s keep) := by
  unfold State.dropJobs; (with_reducible repeat' (first | assumption | (refine Sub.of 301 ?_ hmsk; with_unfolding_all rfl) | apply State.onJobs_keeps | apply State.onLnk_keeps | apply State.freeBar_keeps | apply Keeps.foldl | apply Keeps.foldlFst | intro _ | split | (dsimp only)))

theorem State.cutOff_keeps {msk : Nat} {sb s : State} (hmsk : Sub 524605 msk) (hK : Keeps msk sb s) : Keeps msk sb (State.cutOff s) := by
  unfold State.cutOff; (with_reducible repeat' (first | assumption | (refine Sub.of 524605 ?_ hmsk; with_unfolding_all rfl) | apply State.cutJob_keeps | apply State.dropJobs_keeps | apply Keeps.foldl | apply Keeps.foldlFst | intro _ | (dsimp only)))

theorem State.unbindJob_keeps {msk : Nat} {sb s : State} (bj : BJob) (hmsk : Sub 24 msk) (hK : Keeps msk sb s) : Keeps msk sb (State.unbindJob s bj) := by
  unfold State.unbindJob; (with_reducible repeat' (first | assumption | (refine Sub.of 24 ?_ hmsk; with_unfolding_all rfl) | apply State.ctxDrop_keeps | apply State.modJob_keeps | intro _ | split | (dsimp only)))

theorem State.unbindAll_keeps {msk : Nat} {sb s : State} (hmsk : Sub 317 msk) (hK : Keeps msk sb s) : Keeps msk sb (State.unbindAll s) := by
  unfold State.unbindAll; (with_reducible repeat' (first | assumption | (refine Sub.of 317 ?_ hmsk; with_unfolding_all rfl) | apply State.unbindJob_keeps | apply State.dropJobs_keeps | apply Keeps.foldl | apply Keeps.foldlFst | intro _ | split | (dsimp only)))

theorem State.pruneJobs_keeps {msk : Nat} {sb s : State} (hmsk : Sub 301 msk) (hK : Keeps msk sb s) : Keeps msk sb (State.pruneJobs s) := by
  unfold State.pruneJobs; (with_reducible repeat' (first | assumption | (refine Sub.of 301 ?_ hmsk; with_unfolding_all rfl) | apply State.dropJobs_keeps | intro _ | split | (dsimp only)))

theorem State.trailerOf_keeps {msk : Nat} {sb s : State} (j : Job) (hmsk : Sub 16 msk) (hK : Keeps msk sb s) : Keeps msk sb (State.trailerOf s j) := by
  unfold State.trailerOf; (with_reducible repeat' (first | assumption | (refine Sub.of 16 ?_ hmsk; with_unfolding_all rfl) | apply State.writeTrailer_keeps | apply State.onIng_keeps | intro _ | split | (dsimp only)))

theorem State.abortAll_keeps {msk : Nat} {sb s : State} (hmsk : Sub 317 msk) (hK : Keeps msk sb s) : Keeps msk sb (State.abortAll s) := by
  unfold State.abortAll; (with_reducible repeat' (first | assumption | (refine Sub.of 317 ?_ hmsk; with_unfolding_all rfl) | apply State.trailerOf_keeps | apply State.ctxDrop_keeps | apply State.modJob_keeps | apply State.dropJobs_keeps | apply Keeps.foldl | apply Keeps.foldlFst | intro _ | (dsimp only)))

theorem State.memRetire_keeps {msk : Nat} {sb s : State} (hmsk : Sub 829 msk) (hK : Keeps msk sb s) : Keeps msk sb (State.memRetire s) := by
  unfold State.memRetire; (with_reducible repeat' (first | assumption | (refine Sub.of 829 ?_ hmsk; with_unfolding_all rfl) | apply State.leaveList_keeps | apply State.abortAll_keeps | split | (dsimp only)))

theorem execRetirementFillDone_keeps {msk : Nat} {sb s : State} (hmsk : Sub 16843581 msk) (hK : Keeps msk sb s) : ∀ t, execRetirementFillDone s = .next t → Keeps msk sb t := by
  intro t e; unfold execRetirementFillDone at e
  repeat' (first | (cases e; done) | (injection e with e; subst e) | split at e)
  all_goals (with_reducible repeat' (first | assumption | (refine Sub.of 16843581 ?_ hmsk; with_unfolding_all rfl) | apply State.live_keeps | apply State.when_keeps | apply State.fillDone_keeps | apply State.memRetire_keeps | intro _ | (dsimp only)))

theorem State.idleEvents_keeps {msk : Nat} {sb s : State} (hmsk : Sub 32782 msk) (hK : Keeps msk sb s) : Keeps msk sb (State.idleEvents s) := by
  unfold State.idleEvents; (with_reducible repeat' (first | assumption | (refine Sub.of 32782 ?_ hmsk; with_unfolding_all rfl) | (refine fun (hb : msk.testBit 21 = false) => ?_; intro _ n; first | rfl | exact role_vmod _ _ n (fun _ => rfl) | (dsimp only; split <;> rfl)) | apply State.onCfg_keeps | apply State.event_keeps | apply State.onThm_keeps | intro _ | split | (dsimp only)))

theorem State.setMode_keeps {msk : Nat} {sb s : State} (m : Mode) (cold : Bool) (hm : Sub 1098687 msk) (hK : Keeps msk sb s) :
    Keeps msk sb (State.setMode s m cold) := by
  unfold State.setMode
  split
  · exact hK
  · extract_lets s1 s2 s3 s4 s5
    have h1 : Keeps msk sb s1 := State.onSys_keeps _ (Sub.of 1098687 rfl hm) hK (fun h => (Sub.off (p := .mode) 1098687 hm rfl h).elim)
    have h2 : Keeps msk sb s2 := State.onLtm_keeps _ (Sub.of 1098687 rfl hm) h1 (fun _ _ => rfl)
    have h3 : Keeps msk sb s3 := State.forward_keeps _ (Sub.of 1098687 rfl hm)
      (State.when_keeps _ _ (fun x hx => State.event_keeps _ _ (Sub.of 1098687 rfl hm) hx) (Sub.of 1098687 rfl hm) h2)
    have h4 : Keeps msk sb s4 := by
      dsimp only [s4]; split
      · exact State.idleEvents_keeps (Sub.of 1098687 rfl hm) h3
      · exact h3
    have h5 : Keeps msk sb s5 := by
      dsimp only [s5]; split
      · exact h4
      · exact State.calAuto_keeps _ (Sub.of 1098687 rfl hm) (State.calSnap_keeps (Sub.of 1098687 rfl hm)
          (State.when_keeps _ _ (fun x hx => State.useRecords_keeps (Sub.of 1098687 rfl hm) hx) (Sub.of 1098687 rfl hm) h4))
    clear_value s5
    split
    · exact State.memRetire_keeps (Sub.of 1098687 rfl hm) h5
    · exact h5

theorem State.setFlow_keeps {msk : Nat} {sb s : State} (f : Flow) (q : SeqStep) (hmsk : Sub 1 msk) (hK : Keeps msk sb s) : Keeps msk sb (State.setFlow s f q) := by
  unfold State.setFlow; (with_reducible repeat' (first | assumption | (refine Sub.of 1 ?_ hmsk; with_unfolding_all rfl) | (refine fun (hb : msk.testBit 20 = false) => ?_; intro _; first | rfl | (dsimp only; split <;> rfl)) | apply State.onSys_keeps | intro _ | (dsimp only)))

theorem State.seqTry_keeps {msk : Nat} {sb s : State} (i : Fin 5) (hmsk : Sub 8204 msk) (hK : Keeps msk sb s) : Keeps msk sb (State.seqTry s i).1 := by
  unfold State.seqTry; (with_reducible repeat' (first | assumption | (refine Sub.of 8204 ?_ hmsk; with_unfolding_all rfl) | apply State.seqBegin_keeps | apply State.seqRefuse_keeps | apply State.event_keeps | split | (dsimp only)))

theorem State.flowOver_keeps {msk : Nat} {sb s : State} (hmsk : Sub 1098687 msk) (hK : Keeps msk sb s) : Keeps msk sb (State.flowOver s) := by
  unfold State.flowOver; (with_reducible repeat' (first | assumption | (refine Sub.of 1098687 ?_ hmsk; with_unfolding_all rfl) | (refine fun (hb : msk.testBit 20 = false) => ?_; with_unfolding_all exact (Sub.off (p := .mode) 1098687 hmsk rfl hb).elim) | apply State.setFlow_keeps | apply State.onSys_keeps | apply State.setMode_keeps | intro _ | split | (dsimp only)))

theorem State.capStep_keeps {msk : Nat} {sb s : State} (hmsk : Sub 1106879 msk) (hK : Keeps msk sb s) : Keeps msk sb (State.capStep s) := by
  unfold State.capStep; (with_reducible repeat' (first | assumption | (refine Sub.of 1106879 ?_ hmsk; with_unfolding_all rfl) | (refine fun (hb : msk.testBit 20 = false) => ?_; with_unfolding_all exact (Sub.off (p := .mode) 1106879 hmsk rfl hb).elim) | apply State.seqTry_keeps | apply State.onSys_keeps | apply State.flowOver_keeps | intro _ | split | (dsimp only)))

theorem State.liftStep_keeps {msk : Nat} {sb s : State} (hmsk : Sub 8205 msk) (hK : Keeps msk sb s) : Keeps msk sb (State.liftStep s) := by
  unfold State.liftStep; (with_reducible repeat' (first | assumption | (refine Sub.of 8205 ?_ hmsk; with_unfolding_all rfl) | (refine fun (hb : msk.testBit 20 = false) => ?_; intro _; first | rfl | (dsimp only; split <;> rfl)) | apply State.seqTry_keeps | apply State.onSys_keeps | intro _ | (dsimp only)))

theorem State.flowResume_keeps {msk : Nat} {sb s : State} (hmsk : Sub 1106879 msk) (hK : Keeps msk sb s) : Keeps msk sb (State.flowResume s) := by
  unfold State.flowResume; (with_reducible repeat' (first | assumption | (refine Sub.of 1106879 ?_ hmsk; with_unfolding_all rfl) | apply State.capStep_keeps | apply State.liftStep_keeps | split | (dsimp only)))

theorem State.leaveFlow_keeps {msk : Nat} {sb s : State} (always : Bool) (hmsk : Sub 1106879 msk) (hK : Keeps msk sb s) : Keeps msk sb (State.leaveFlow s always) := by
  unfold State.leaveFlow; (with_reducible repeat' (first | assumption | (refine Sub.of 1106879 ?_ hmsk; with_unfolding_all rfl) | apply State.setFlow_keeps | apply State.liftStep_keeps | apply State.capStep_keeps | apply State.flowOver_keeps | split | (dsimp only)))

theorem State.toIdle_keeps {msk : Nat} {sb s : State} (hmsk : Sub 1106879 msk) (hK : Keeps msk sb s) : Keeps msk sb (State.toIdle s) := by
  unfold State.toIdle; (with_reducible repeat' (first | assumption | (refine Sub.of 1106879 ?_ hmsk; with_unfolding_all rfl) | (refine fun (hb : msk.testBit 20 = false) => ?_; with_unfolding_all exact (Sub.off (p := .mode) 1106879 hmsk rfl hb).elim) | apply State.unbindAll_keeps | apply State.onSys_keeps | apply State.leaveFlow_keeps | intro _ | (dsimp only)))

theorem State.enterFlow_keeps {msk : Nat} {sb s : State} (hmsk : Sub 1106879 msk) (hK : Keeps msk sb s) : Keeps msk sb (State.enterFlow s) := by
  unfold State.enterFlow; (with_reducible repeat' (first | assumption | (refine Sub.of 1106879 ?_ hmsk; with_unfolding_all rfl) | apply State.seqTry_keeps | apply State.setFlow_keeps | apply State.toIdle_keeps | split | (dsimp only)))

theorem State.seqEnded_keeps {msk : Nat} {sb s : State} (i : Fin 5) (ok : Bool) (hmsk : Sub 1106879 msk) (hK : Keeps msk sb s) : Keeps msk sb (State.seqEnded s i ok) := by
  unfold State.seqEnded; (with_reducible repeat' (first | assumption | (refine Sub.of 1106879 ?_ hmsk; with_unfolding_all rfl) | apply State.seqTry_keeps | apply State.setFlow_keeps | apply State.toIdle_keeps | apply State.capStep_keeps | apply State.flowOver_keeps | split | (dsimp only)))

theorem State.sequenceDone_keeps {msk : Nat} {sb s : State} (i : Fin 5) (hmsk : Sub 1106879 msk) (hK : Keeps msk sb s) : Keeps msk sb (State.sequenceDone s i) := by
  unfold State.sequenceDone; (with_reducible repeat' (first | assumption | (refine Sub.of 1106879 ?_ hmsk; with_unfolding_all rfl) | apply State.onSeq_keeps | apply State.onMot_keeps | apply State.seqEnded_keeps | intro _ | split | (dsimp only)))

theorem execSequenceDone_keeps {msk : Nat} {sb s : State} (i : Fin 5) (hmsk : Sub 1106879 msk) (hK : Keeps msk sb s) : ∀ t, execSequenceDone i s = .next t → Keeps msk sb t := by
  intro t e; unfold execSequenceDone at e
  repeat' (first | (cases e; done) | (injection e with e; subst e) | split at e)
  all_goals (with_reducible repeat' (first | assumption | (refine Sub.of 1106879 ?_ hmsk; with_unfolding_all rfl) | apply State.live_keeps | apply State.asShadow_keeps | apply State.sequenceDone_keeps | intro _ | (dsimp only)))

theorem State.seqSettle_keeps {msk : Nat} {sb s : State} (hmsk : Sub 1106879 msk) (hK : Keeps msk sb s) : Keeps msk sb (State.seqSettle s) := by
  unfold State.seqSettle; (with_reducible repeat' (first | assumption | (refine Sub.of 1106879 ?_ hmsk; with_unfolding_all rfl) | apply State.seqEnded_keeps | intro _ | split | (dsimp only)))

theorem State.firingOver_keeps {msk : Nat} {sb s : State} (hmsk : Sub 128 msk) (hK : Keeps msk sb s) : Keeps msk sb (State.firingOver s) := by
  unfold State.firingOver; (with_reducible repeat' (first | assumption | (refine Sub.of 128 ?_ hmsk; with_unfolding_all rfl) | (refine fun (hb : msk.testBit 22 = false) => ?_; intro _; first | rfl | (dsimp only; split <;> rfl)) | apply State.onLtm_keeps | intro _ | (dsimp only)))

theorem State.svcEnds_keeps {msk : Nat} {sb s : State} (hmsk : Sub 1106879 msk) (hK : Keeps msk sb s) : Keeps msk sb (State.svcEnds s) := by
  unfold State.svcEnds; (with_reducible repeat' (first | assumption | (refine Sub.of 1106879 ?_ hmsk; with_unfolding_all rfl) | apply State.firingOver_keeps | apply State.leaveFlow_keeps | split | (dsimp only)))

theorem State.seqsSince_keeps {msk : Nat} {sb s : State} (s0 : State) (hmsk : Sub 1106879 msk) (hK : Keeps msk sb s) : Keeps msk sb (State.seqsSince s s0) := by
  unfold State.seqsSince; (with_reducible repeat' (first | assumption | (refine Sub.of 1106879 ?_ hmsk; with_unfolding_all rfl) | apply State.seqSettle_keeps | apply State.svcEnds_keeps | intro _ | split | (dsimp only)))

theorem execGeneratorTick_keeps {msk : Nat} {sb s : State} (hmsk : Sub 1106879 msk) (hK : Keeps msk sb s) : ∀ t, execGeneratorTick s = .next t → Keeps msk sb t := by
  intro t e; unfold execGeneratorTick at e
  repeat' (first | (cases e; done) | (injection e with e; subst e) | split at e)
  all_goals (with_reducible repeat' (first | assumption | (refine Sub.of 1106879 ?_ hmsk; with_unfolding_all rfl) | apply State.live_keeps | apply State.when_keeps | apply State.genTick_keeps | apply State.asShadow_keeps | apply State.seqsSince_keeps | intro _ | (dsimp only)))

theorem execSequenceTimeout_keeps {msk : Nat} {sb s : State} (i : Fin 5) (hmsk : Sub 1106879 msk) (hK : Keeps msk sb s) : ∀ t, execSequenceTimeout i s = .next t → Keeps msk sb t := by
  intro t e; unfold execSequenceTimeout at e
  repeat' (first | (cases e; done) | (injection e with e; subst e) | split at e)
  all_goals (with_reducible repeat' (first | assumption | (refine Sub.of 1106879 ?_ hmsk; with_unfolding_all rfl) | apply State.live_keeps | apply State.when_keeps | apply State.seqFail_keeps | apply State.asShadow_keeps | apply State.seqsSince_keeps | intro _ | (dsimp only)))

theorem execWebAtRest_keeps {msk : Nat} {sb s : State} (hmsk : Sub 1106879 msk) (hK : Keeps msk sb s) : ∀ t, execWebAtRest s = .next t → Keeps msk sb t := by
  intro t e; unfold execWebAtRest at e
  repeat' (first | (cases e; done) | (injection e with e; subst e) | split at e)
  all_goals (with_reducible repeat' (first | assumption | (refine Sub.of 1106879 ?_ hmsk; with_unfolding_all rfl) | apply State.live_keeps | apply State.when_keeps | apply State.onMot_keeps | apply State.asShadow_keeps | apply State.flowResume_keeps | intro _ | (dsimp only)))

theorem State.seqFx_keeps {msk : Nat} {sb s : State} (n : Nat) (hmsk : Sub 1106879 msk) (hK : Keeps msk sb s) : ∀ t, State.seqFx s n = some t → Keeps msk sb t := by
  intro t e; unfold State.seqFx at e; (try dsimp only at e)
  repeat' (first | (cases e; done) | (injection e with e; subst e) | split at e)
  all_goals (with_reducible repeat' (first | assumption | (refine Sub.of 1106879 ?_ hmsk; with_unfolding_all rfl) | apply State.seqBegin_keeps | apply State.svcEnds_keeps | apply State.seqRefuse_keeps | split | (dsimp only)))

theorem State.seqCommand_keeps {msk : Nat} {sb s : State} (ses : Fin 5) (n : Nat) (hmsk : Sub 1106879 msk) (hK : Keeps msk sb s) : Keeps msk sb (State.seqCommand s ses n) := by
  unfold State.seqCommand; (with_reducible repeat' (first | assumption | (refine Sub.of 1106879 ?_ hmsk; with_unfolding_all rfl) | (refine State.seqFx_keeps _ (Sub.of 1106879 (by with_unfolding_all rfl) hmsk) ?_ _ (by assumption)) | apply State.sesCmd_keeps | apply State.fwdWrite_keeps | intro _ | split | (dsimp only) | (rename_i e; replace e := Option.map_eq_some_iff.mp e; obtain ⟨_, e, rfl⟩ := e) | (rename_i e; cases e; done) | (rename_i e; injection e with e; subst e) | (rename_i e; dsimp only at e) | (rename_i e; split at e)))

theorem execSeqCommand_keeps {msk : Nat} {sb s : State} (ses : Fin 5) (n : Nat) (hmsk : Sub 1106879 msk) (hK : Keeps msk sb s) : ∀ t, execSeqCommand ses n s = .next t → Keeps msk sb t := by
  intro t e; unfold execSeqCommand at e
  repeat' (first | (cases e; done) | (injection e with e; subst e) | split at e)
  all_goals (with_reducible repeat' (first | assumption | (refine Sub.of 1106879 ?_ hmsk; with_unfolding_all rfl) | apply State.seqCommand_keeps | (dsimp only)))

theorem State.startRamp_keeps {msk : Nat} {sb s : State} (hmsk : Sub 8205 msk) (hK : Keeps msk sb s) : Keeps msk sb (State.startRamp s) := by
  unfold State.startRamp; (with_reducible repeat' (first | assumption | (refine Sub.of 8205 ?_ hmsk; with_unfolding_all rfl) | (refine fun (hb : msk.testBit 20 = false) => ?_; intro _; first | rfl | (dsimp only; split <;> rfl)) | apply State.webStop_keeps | apply State.onSys_keeps | apply State.seqFail_keeps | apply State.setFlow_keeps | apply State.liftStep_keeps | intro _ | split | (dsimp only)))

theorem State.firingEnds_keeps {msk : Nat} {sb s : State} (hmsk : Sub 532925 msk) (hK : Keeps msk sb s) : Keeps msk sb (State.firingEnds s) := by
  unfold State.firingEnds; (with_reducible repeat' (first | assumption | (refine Sub.of 532925 ?_ hmsk; with_unfolding_all rfl) | (refine fun (hb : msk.testBit 20 = false) => ?_; intro _; first | rfl | (dsimp only; split <;> rfl)) | (refine fun (hb : msk.testBit 22 = false) => ?_; intro _; first | rfl | (dsimp only; split <;> rfl)) | apply State.onSys_keeps | apply State.onLtm_keeps | apply State.cutOff_keeps | apply State.startRamp_keeps | intro _ | (dsimp only)))

theorem State.orderlyStop_keeps {msk : Nat} {sb s : State} (k : StopKind) (cause : Nat) (hmsk : Sub 8205 msk) (hK : Keeps msk sb s) : Keeps msk sb (State.orderlyStop s k cause) := by
  unfold State.orderlyStop; (with_reducible repeat' (first | assumption | (refine Sub.of 8205 ?_ hmsk; with_unfolding_all rfl) | (refine fun (hb : msk.testBit 20 = false) => ?_; intro _; first | rfl | (dsimp only; split <;> rfl)) | apply State.onSys_keeps | apply State.startRamp_keeps | intro _ | split | (dsimp only)))

theorem State.reqRejected_keeps {msk : Nat} {sb s : State} (hmsk : Sub 4 msk) (hK : Keeps msk sb s) : Keeps msk sb (State.reqRejected s) := by
  unfold State.reqRejected; (with_reducible repeat' (first | assumption | (refine Sub.of 4 ?_ hmsk; with_unfolding_all rfl) | apply State.bump_keeps | (dsimp only)))

theorem State.readyLeaves_keeps {msk : Nat} {sb s : State} (hmsk : Sub 1106879 msk) (hK : Keeps msk sb s) : Keeps msk sb (State.readyLeaves s) := by
  unfold State.readyLeaves; (with_reducible repeat' (first | assumption | (refine Sub.of 1106879 ?_ hmsk; with_unfolding_all rfl) | apply State.seqFail_keeps | apply State.toIdle_keeps | split | (dsimp only)))

theorem State.stopDo_keeps {msk : Nat} {sb s : State} (held : Bool) (hmsk : Sub 1106879 msk) (hK : Keeps msk sb s) : Keeps msk sb (State.stopDo s held) := by
  unfold State.stopDo; (with_reducible repeat' (first | assumption | (refine Sub.of 1106879 ?_ hmsk; with_unfolding_all rfl) | apply State.readyLeaves_keeps | apply State.orderlyStop_keeps | split | (dsimp only)))

theorem State.stopReq_keeps {msk : Nat} {sb s : State} (r : ModeReq) (hmsk : Sub 1106879 msk) (hK : Keeps msk sb s) : Keeps msk sb (State.stopReq s r).1 := by
  unfold State.stopReq; (with_reducible repeat' (first | assumption | (refine Sub.of 1106879 ?_ hmsk; with_unfolding_all rfl) | (refine fun (hb : msk.testBit 20 = false) => ?_; with_unfolding_all exact (Sub.off (p := .mode) 1106879 hmsk rfl hb).elim) | apply State.reqRejected_keeps | apply State.forward_keeps | apply State.onSys_keeps | apply State.stopDo_keeps | intro _ | split | (dsimp only)))

theorem State.interruptSeqs_keeps {msk : Nat} {sb s : State} (hmsk : Sub 8192 msk) (hK : Keeps msk sb s) : Keeps msk sb (State.interruptSeqs s) := by
  unfold State.interruptSeqs; (with_reducible repeat' (first | assumption | (refine Sub.of 8192 ?_ hmsk; with_unfolding_all rfl) | apply State.seqDrop_keeps | apply Keeps.foldl | apply Keeps.foldlFst | intro _ | split | (dsimp only)))

theorem State.padsSafe_keeps {msk : Nat} {sb s : State} (hmsk : Sub 12288 msk) (hK : Keeps msk sb s) : Keeps msk sb (State.padsSafe s) := by
  unfold State.padsSafe; (with_reducible repeat' (first | assumption | (refine Sub.of 12288 ?_ hmsk; with_unfolding_all rfl) | apply State.onLmp_keeps | apply State.onMot_keeps | intro _ | (dsimp only)))

theorem State.emergency_keeps {msk : Nat} {sb s : State} (cause : Nat) (hmsk : Sub 537021 msk) (hK : Keeps msk sb s) : Keeps msk sb (State.emergency s cause) := by
  unfold State.emergency; (with_reducible repeat' (first | assumption | (refine Sub.of 537021 ?_ hmsk; with_unfolding_all rfl) | (refine fun (hb : msk.testBit 20 = false) => ?_; intro _; first | rfl | (dsimp only; split <;> rfl)) | (refine fun (hb : msk.testBit 22 = false) => ?_; intro _; first | rfl | (dsimp only; split <;> rfl)) | apply State.when_keeps | apply State.padsSafe_keeps | apply State.interruptSeqs_keeps | apply State.onMot_keeps | apply State.setFlow_keeps | apply State.onSys_keeps | apply State.onLtm_keeps | apply State.cutOff_keeps | apply State.webStop_keeps | apply State.wake_keeps | intro _ | split | (dsimp only)))

theorem State.stopComplete_keeps {msk : Nat} {sb s : State} (hmsk : Sub 1106879 msk) (hK : Keeps msk sb s) : Keeps msk sb (State.stopComplete s) := by
  unfold State.stopComplete; (with_reducible repeat' (first | assumption | (refine Sub.of 1106879 ?_ hmsk; with_unfolding_all rfl) | (refine fun (hb : msk.testBit 20 = false) => ?_; with_unfolding_all exact (Sub.off (p := .mode) 1106879 hmsk rfl hb).elim) | apply State.onSys_keeps | apply State.onMot_keeps | apply State.onThm_keeps | apply State.setMode_keeps | apply State.flowResume_keeps | intro _ | split | (dsimp only)))

theorem execStopComplete_keeps {msk : Nat} {sb s : State} (hmsk : Sub 1106879 msk) (hK : Keeps msk sb s) : ∀ t, execStopComplete s = .next t → Keeps msk sb t := by
  intro t e; unfold execStopComplete at e
  repeat' (first | (cases e; done) | (injection e with e; subst e) | split at e)
  all_goals (with_reducible repeat' (first | assumption | (refine Sub.of 1106879 ?_ hmsk; with_unfolding_all rfl) | apply State.live_keeps | apply State.asShadow_keeps | apply State.stopComplete_keeps | intro _ | (dsimp only)))

theorem State.clearHalt_keeps {msk : Nat} {sb s : State} (hmsk : Sub 1110975 msk) (hK : Keeps msk sb s) : Keeps msk sb (State.clearHalt s) := by
  unfold State.clearHalt; (with_reducible repeat' (first | assumption | (refine Sub.of 1110975 ?_ hmsk; with_unfolding_all rfl) | (refine fun (hb : msk.testBit 20 = false) => ?_; with_unfolding_all exact (Sub.off (p := .mode) 1110975 hmsk rfl hb).elim) | apply State.interruptSeqs_keeps | apply State.unbindAll_keeps | apply State.setFlow_keeps | apply State.onThm_keeps | apply State.onLmp_keeps | apply State.onSys_keeps | apply State.setMode_keeps | intro _ | (dsimp only)))

end Sys2Proof.Machine
end

