-- ==== Sys2Proof/Laws/KeepsLines.lean ====
section
/-! SUPPORT. What each operation of Machine/Lines.lean keeps: the queue, and the canonical form of the register maps. -/
set_option Elab.async false
namespace Sys2Proof.Machine

theorem State.lineSince_keeps {msk : Nat} {sb s : State} (i : Nat) (hmsk : Sub 132 msk) (hK : Keeps msk sb s) : Keeps msk sb (State.lineSince s i) := by
  unfold State.lineSince; (with_reducible repeat' (first | assumption | (refine Sub.of 132 ?_ hmsk; with_unfolding_all rfl) | apply State.when_keeps | apply State.bump_keeps | apply State.onLHead_keeps | intro _ | (dsimp only)))

theorem State.commitHead_keeps {msk : Nat} {sb s : State} (b : Fin 8) (h : Head) (hmsk : Sub 132 msk) (hK : Keeps msk sb s) : Keeps msk sb (State.commitHead s b h) := by
  unfold State.commitHead; (with_reducible repeat' (first | assumption | (refine Sub.of 132 ?_ hmsk; with_unfolding_all rfl) | apply State.onLHead_keeps | apply State.bumpBy_keeps | apply State.lineSince_keeps | intro _ | (dsimp only)))

theorem State.sendWidths_keeps {msk : Nat} {sb s : State} (g : Nat) (hmsk : Sub 256 msk) (hK : Keeps msk sb s) : Keeps msk sb (State.sendWidths s g) := by
  unfold State.sendWidths; (with_reducible repeat' (first | assumption | (refine Sub.of 256 ?_ hmsk; with_unfolding_all rfl) | apply State.laneRun_keeps | apply State.onLane_keeps | apply Keeps.foldl | apply Keeps.foldlFst | intro _ | split | (dsimp only)))

theorem State.laneBoundary_keeps {msk : Nat} {sb s : State} (n : Fin 40) (g : Nat) (fired : Option Commit) (hmsk : Sub 82204 msk) (hK : Keeps msk sb s) : Keeps msk sb (State.laneBoundary s n g fired) := by
  unfold State.laneBoundary; (with_reducible repeat' (first | assumption | (refine Sub.of 82204 ?_ hmsk; with_unfolding_all rfl) | apply State.onLane_keeps | apply State.laneRun_keeps | apply State.takeRecord_keeps | intro _ | split | (dsimp only)))

theorem State.voidGrid_keeps {msk : Nat} {sb s : State} (g : Nat) (hmsk : Sub 148 msk) (hK : Keeps msk sb s) : Keeps msk sb (State.voidGrid s g) := by
  unfold State.voidGrid; (with_reducible repeat' (first | assumption | (refine Sub.of 148 ?_ hmsk; with_unfolding_all rfl) | apply State.voidLine_keeps | apply State.lineSince_keeps | apply Keeps.foldl | apply Keeps.foldlFst | intro _ | (dsimp only)))

theorem State.voidStale_keeps {msk : Nat} {sb s : State} (g : Nat) (hmsk : Sub 156 msk) (hK : Keeps msk sb s) : Keeps msk sb (State.voidStale s g) := by
  unfold State.voidStale; (with_reducible repeat' (first | assumption | (refine Sub.of 156 ?_ hmsk; with_unfolding_all rfl) | apply State.voidLine_keeps | apply State.when_keeps | apply State.stale_keeps | apply State.raise_keeps | apply State.onLHead_keeps | apply Keeps.foldl | apply Keeps.foldlFst | intro _ | split | (dsimp only)))

theorem State.jobAt1_keeps {msk : Nat} {sb s : State} (g : Nat) (bj : BJob) (hmsk : Sub 16 msk) (hK : Keeps msk sb s) : Keeps msk sb (State.jobAt1 s g bj) := by
  unfold State.jobAt1; (with_reducible repeat' (first | assumption | (refine Sub.of 16 ?_ hmsk; with_unfolding_all rfl) | apply State.modJob_keeps | intro _ | split | (dsimp only)))

theorem State.printOver_keeps {msk : Nat} {sb s : State} (hmsk : Sub 1098687 msk) (hK : Keeps msk sb s) : Keeps msk sb (State.printOver s) := by
  unfold State.printOver; (with_reducible repeat' (first | assumption | (refine Sub.of 1098687 ?_ hmsk; with_unfolding_all rfl) | (refine fun (hb : msk.testBit 22 = false) => ?_; intro _; first | rfl | (dsimp only; split <;> rfl)) | apply State.onLtm_keeps | apply State.setMode_keeps | intro _ | split | (dsimp only)))

theorem State.jobsAt_keeps {msk : Nat} {sb s : State} (g : Nat) (hmsk : Sub 1098687 msk) (hK : Keeps msk sb s) : Keeps msk sb (State.jobsAt s g) := by
  unfold State.jobsAt; (with_reducible repeat' (first | assumption | (refine Sub.of 1098687 ?_ hmsk; with_unfolding_all rfl) | apply State.settleStarts_keeps | apply State.jobAt1_keeps | apply State.printOver_keeps | apply Keeps.foldl | apply Keeps.foldlFst | intro _ | (dsimp only)))

theorem State.advanceH_keeps {msk : Nat} {sb s : State} (hmsk : Sub 128 msk) (hK : Keeps msk sb s) : Keeps msk sb (State.advanceH s) := by
  unfold State.advanceH; (with_reducible repeat' (first | assumption | (refine Sub.of 128 ?_ hmsk; with_unfolding_all rfl) | (refine fun (hb : msk.testBit 22 = false) => ?_; intro _; first | rfl | (dsimp only; split <;> rfl)) | apply State.onLtm_keeps | intro _ | (dsimp only)))

theorem State.gridLine_keeps {msk : Nat} {sb s : State} (fired : Option Commit) (hmsk : Sub 5364735 msk) (hK : Keeps msk sb s) : Keeps msk sb (State.gridLine s fired) := by
  unfold State.gridLine; (with_reducible repeat' (first | assumption | (refine Sub.of 5364735 ?_ hmsk; with_unfolding_all rfl) | (refine fun (hb : msk.testBit 22 = false) => ?_; with_unfolding_all exact (Sub.off (p := .grid) 5364735 hmsk rfl hb).elim) | apply State.advanceH_keeps | apply State.onLtm_keeps | apply State.lineCommits_keeps | apply State.fineSteps_keeps | apply State.voidStale_keeps | apply State.voidGrid_keeps | apply State.laneBoundary_keeps | apply State.jobsAt_keeps | apply Keeps.foldl | apply Keeps.foldlFst | intro _ | split | (dsimp only)))

theorem State.lineEventOut_keeps {msk : Nat} {sb s : State} (g : Nat) (f : Rat) (void : Bool) (hmsk : Sub 16384 msk) (hK : Keeps msk sb s) : Keeps msk sb (State.lineEventOut s g f void) := by
  unfold State.lineEventOut; (with_reducible repeat' (first | assumption | (refine Sub.of 16384 ?_ hmsk; with_unfolding_all rfl) | (refine fun (hb : msk.testBit 23 = false) => ?_; intro _; first | rfl | (dsimp only; split <;> rfl)) | apply State.onTbl_keeps | intro _ | split | (dsimp only)))

theorem State.overspeed_keeps {msk : Nat} {sb s : State} (post : State → State → State) (d : Due) (lag : Nat) (hpost : ∀ y x, Keeps msk sb x → Keeps msk sb (post y x)) (hmsk : Sub 5364735 msk) (hK : Keeps msk sb s) : Keeps msk sb (State.overspeed s post d lag) := by
  unfold State.overspeed; (with_reducible repeat' (first | assumption | (refine Sub.of 5364735 ?_ hmsk; with_unfolding_all rfl) | (refine fun (hb : msk.testBit 22 = false) => ?_; with_unfolding_all exact (Sub.off (p := .grid) 5364735 hmsk rfl hb).elim) | apply State.bump_keeps | apply State.event_keeps | apply State.onLtm_keeps | apply State.lineEventOut_keeps | apply State.gridLine_keeps | (apply hpost) | intro _ | (dsimp only)))

theorem State.commitLine_keeps {msk : Nat} {sb s : State} (d : Due) (lag : Nat) (hmsk : Sub 16772 msk) (hK : Keeps msk sb s) : Keeps msk sb (State.commitLine s d lag) := by
  unfold State.commitLine; (with_reducible repeat' (first | assumption | (refine Sub.of 16772 ?_ hmsk; with_unfolding_all rfl) | (refine fun (hb : msk.testBit 22 = false) => ?_; intro _; first | rfl | (dsimp only; split <;> rfl)) | apply State.onLtm_keeps | apply State.when_keeps | apply State.bump_keeps | apply State.peak_keeps | apply State.commitHead_keeps | apply State.lineEventOut_keeps | apply State.sendWidths_keeps | apply Keeps.foldl | apply Keeps.foldlFst | intro _ | (dsimp only)))

theorem State.takeSample_keeps {msk : Nat} {sb s : State} (hmsk : Sub 192 msk) (hK : Keeps msk sb s) : ∀ t, State.takeSample s = some t → Keeps msk sb t.1 := by
  intro t e; unfold State.takeSample at e; (try dsimp only at e)
  repeat' (first | (cases e; done) | (injection e with e; subst e) | split at e)
  all_goals (with_reducible repeat' (first | assumption | (refine Sub.of 192 ?_ hmsk; with_unfolding_all rfl) | (refine fun (hb : msk.testBit 22 = false) => ?_; intro _; first | rfl | (dsimp only; split <;> rfl)) | apply State.onEnc_keeps | apply State.onLtm_keeps | intro _ | split | (dsimp only)))

theorem State.gridSkip_keeps {msk : Nat} {sb s : State} (hmsk : Sub 5299199 msk) (hK : Keeps msk sb s) : Keeps msk sb (State.gridSkip s) := by
  unfold State.gridSkip; (with_reducible repeat' (first | assumption | (refine Sub.of 5299199 ?_ hmsk; with_unfolding_all rfl) | (refine fun (hb : msk.testBit 22 = false) => ?_; with_unfolding_all exact (Sub.off (p := .grid) 5299199 hmsk rfl hb).elim) | apply State.advanceH_keeps | apply State.onLtm_keeps | apply State.lineCommits_keeps | apply State.fineSteps_keeps | apply State.voidGrid_keeps | apply State.lineEventOut_keeps | apply State.jobsAt_keeps | intro _ | (dsimp only)))

theorem State.voidPassed_keeps {msk : Nat} {sb s : State} (post : State → State → State) (p : Int) (hpost : ∀ y x, Keeps msk sb x → Keeps msk sb (post y x)) (hmsk : Sub 5299199 msk) (hK : Keeps msk sb s) : ∀ (z0 : Nat), Keeps msk sb (State.voidPassed s post p z0) := by
  intro z0
  induction z0 generalizing s with
  | zero => (unfold State.voidPassed); (with_reducible repeat' (first | assumption | (refine Sub.of 5299199 ?_ hmsk; with_unfolding_all rfl) | apply State.gridSkip_keeps | (apply hpost) | split | (dsimp only) | (rename_i e; replace e := Option.map_eq_some_iff.mp e; obtain ⟨_, e, rfl⟩ := e) | (rename_i e; cases e; done) | (rename_i e; injection e with e; subst e) | (rename_i e; dsimp only at e) | (rename_i e; split at e)))
  | succ k ih => (unfold State.voidPassed); (with_reducible repeat' (first | assumption | (refine Sub.of 5299199 ?_ hmsk; with_unfolding_all rfl) | apply ih | apply State.gridSkip_keeps | (apply hpost) | split | (dsimp only) | (rename_i e; replace e := Option.map_eq_some_iff.mp e; obtain ⟨_, e, rfl⟩ := e) | (rename_i e; cases e; done) | (rename_i e; injection e with e; subst e) | (rename_i e; dsimp only at e) | (rename_i e; split at e)))

theorem State.caughtUp_keeps {msk : Nat} {sb s : State} (post : State → State → State) (p : Int) (hpost : ∀ y x, Keeps msk sb x → Keeps msk sb (post y x)) (hmsk : Sub 5299199 msk) (hK : Keeps msk sb s) : Keeps msk sb (State.caughtUp s post p) := by
  unfold State.caughtUp; (with_reducible repeat' (first | assumption | (refine Sub.of 5299199 ?_ hmsk; with_unfolding_all rfl) | (refine fun (hb : msk.testBit 22 = false) => ?_; with_unfolding_all exact (Sub.off (p := .grid) 5299199 hmsk rfl hb).elim) | apply State.voidPassed_keeps | apply State.onLtm_keeps | (apply hpost) | intro _ | split | (dsimp only) | (rename_i e; replace e := Option.map_eq_some_iff.mp e; obtain ⟨_, e, rfl⟩ := e) | (rename_i e; cases e; done) | (rename_i e; injection e with e; subst e) | (rename_i e; dsimp only at e) | (rename_i e; split at e)))

theorem State.sampleArrives_keeps {msk : Nat} {sb s : State} (post : State → State → State) (hpost : ∀ y x, Keeps msk sb x → Keeps msk sb (post y x)) (hmsk : Sub 5889023 msk) (hK : Keeps msk sb s) : Keeps msk sb (State.sampleArrives s post) := by
  unfold State.sampleArrives; (with_reducible repeat' (first | assumption | (refine Sub.of 5889023 ?_ hmsk; with_unfolding_all rfl) | (refine State.takeSample_keeps (Sub.of 5889023 (by with_unfolding_all rfl) hmsk) ?_ _ (by assumption)) | apply State.caughtUp_keeps | apply State.drawn_keeps | apply State.overspeed_keeps | apply State.commitLine_keeps | (apply hpost) | split | (dsimp only) | (rename_i e; replace e := Option.map_eq_some_iff.mp e; obtain ⟨_, e, rfl⟩ := e) | (rename_i e; cases e; done) | (rename_i e; injection e with e; subst e) | (rename_i e; dsimp only at e) | (rename_i e; split at e)))

theorem State.trigger_keeps {msk : Nat} {sb s : State} (hmsk : Sub 5364735 msk) (hK : Keeps msk sb s) : Keeps msk sb (State.trigger s) := by
  unfold State.trigger; (with_reducible repeat' (first | assumption | (refine Sub.of 5364735 ?_ hmsk; with_unfolding_all rfl) | apply State.gridLine_keeps | split | (dsimp only)))

theorem State.arm_keeps {msk : Nat} {sb s : State} (hmsk : Sub 204 msk) (hK : Keeps msk sb s) : Keeps msk sb (State.arm s) := by
  unfold State.arm; (with_reducible repeat' (first | assumption | (refine Sub.of 204 ?_ hmsk; with_unfolding_all rfl) | (refine fun (hb : msk.testBit 22 = false) => ?_; intro _; first | rfl | (dsimp only; split <;> rfl)) | apply State.onEnc_keeps | apply State.onLtm_keeps | apply State.fineStart_keeps | intro _ | split | (dsimp only)))

theorem State.govern_keeps {msk : Nat} {sb s : State} (fill : Option (Nat × Nat)) (low : State → State) (hlow : ∀ x, Keeps msk sb x → Keeps msk sb (low x)) (hmsk : Sub 128 msk) (hK : Keeps msk sb s) : Keeps msk sb (State.govern s fill low) := by
  unfold State.govern; (with_reducible repeat' (first | assumption | (refine Sub.of 128 ?_ hmsk; with_unfolding_all rfl) | (refine fun (hb : msk.testBit 22 = false) => ?_; intro _; first | rfl | (dsimp only; split <;> rfl)) | apply State.onLtm_keeps | (apply hlow) | intro _ | split | (dsimp only) | (rename_i e; replace e := Option.map_eq_some_iff.mp e; obtain ⟨_, e, rfl⟩ := e) | (rename_i e; cases e; done) | (rename_i e; injection e with e; subst e) | (rename_i e; dsimp only at e) | (rename_i e; split at e)))

theorem State.governor_keeps {msk : Nat} {sb s : State} (hmsk : Sub 8333 msk) (hK : Keeps msk sb s) : Keeps msk sb (State.governor s) := by
  unfold State.governor; (with_reducible repeat' (first | assumption | (refine Sub.of 8333 ?_ hmsk; with_unfolding_all rfl) | apply State.govern_keeps | apply State.orderlyStop_keeps | intro _ | (dsimp only)))

end Sys2Proof.Machine
end

