-- ==== Sys2Proof/Laws/KeepsPins.lean ====
section
/-! SUPPORT. What each operation of Machine/Pins.lean keeps: the queue, and the canonical form of the register maps. -/
set_option Elab.async false
namespace Sys2Proof.Machine

theorem State.padsHold_keeps {msk : Nat} {sb s : State} (hmsk : Sub 262144 msk) (hK : Keeps msk sb s) : Keeps msk sb (State.padsHold s) := by
  unfold State.padsHold; (with_reducible repeat' (first | assumption | (refine Sub.of 262144 ?_ hmsk; with_unfolding_all rfl) | apply State.onPad_keeps | intro _ | split | (dsimp only)))

end Sys2Proof.Machine
end

