-- ==== Sys2Proof/Laws/KeepsTwin.lean ====
section
/-! SUPPORT. What each operation of Machine/Twin.lean keeps: the queue, and the canonical form of the register maps. -/
set_option Elab.async false
namespace Sys2Proof.Machine

theorem State.tblSend_keeps {msk : Nat} {sb s : State} (l : List TBlock) (hmsk : Sub 16384 msk) (hK : Keeps msk sb s) : Keeps msk sb (State.tblSend s l) := by
  unfold State.tblSend; (with_reducible repeat' (first | assumption | (refine Sub.of 16384 ?_ hmsk; with_unfolding_all rfl) | (refine fun (hb : msk.testBit 23 = false) => ?_; intro _; first | rfl | (dsimp only; split <;> rfl)) | apply State.onTbl_keeps | intro _ | (dsimp only)))

theorem execPadHoldExpiry_keeps {msk : Nat} {sb s : State} (hmsk : Sub 262144 msk) (hK : Keeps msk sb s) : ∀ t, execPadHoldExpiry s = .next t → Keeps msk sb t := by
  intro t e; unfold execPadHoldExpiry at e
  repeat' (first | (cases e; done) | (injection e with e; subst e) | split at e)
  all_goals (with_reducible repeat' (first | assumption | (refine Sub.of 262144 ?_ hmsk; with_unfolding_all rfl) | apply State.when_keeps | apply State.onPad_keeps | intro _ | (dsimp only)))

theorem State.renew_keeps {msk : Nat} {sb s : State} (hmsk : Sub 16384 msk) (hK : Keeps msk sb s) : Keeps msk sb (State.renew s) := by
  unfold State.renew; (with_reducible repeat' (first | assumption | (refine Sub.of 16384 ?_ hmsk; with_unfolding_all rfl) | (refine fun (hb : msk.testBit 23 = false) => ?_; intro _; first | rfl | (dsimp only; split <;> rfl)) | apply State.onTbl_keeps | apply State.tblSend_keeps | intro _ | split | (dsimp only)))

theorem execTrumpRenew_keeps {msk : Nat} {sb s : State} (hmsk : Sub 16384 msk) (hK : Keeps msk sb s) : ∀ t, execTrumpRenew s = .next t → Keeps msk sb t := by
  intro t e; unfold execTrumpRenew at e
  repeat' (first | (cases e; done) | (injection e with e; subst e) | split at e)
  all_goals (with_reducible repeat' (first | assumption | (refine Sub.of 16384 ?_ hmsk; with_unfolding_all rfl) | apply State.live_keeps | apply State.when_keeps | apply State.renew_keeps | intro _ | (dsimp only)))

theorem State.claim_keeps {msk : Nat} {sb s : State} (hmsk : Sub 256 msk) (hK : Keeps msk sb s) : Keeps msk sb (State.claim s) := by
  unfold State.claim; (with_reducible repeat' (first | assumption | (refine Sub.of 256 ?_ hmsk; with_unfolding_all rfl) | apply State.laneRoles_keeps | intro _ | (dsimp only)))

theorem State.takeTrump_keeps {msk : Nat} {sb s : State} (code : Nat) (deal : BitVec 32) (stays : Bool) (hmsk : Sub 9749439 msk) (hK : Keeps msk sb s) : Keeps msk sb (State.takeTrump s code deal stays) := by
  unfold State.takeTrump; (with_reducible repeat' (first | assumption | (refine Sub.of 9749439 ?_ hmsk; with_unfolding_all rfl) | (refine fun (hb : msk.testBit 22 = false) => ?_; intro _; first | rfl | (dsimp only; split <;> rfl)) | (refine fun (hb : msk.testBit 23 = false) => ?_; with_unfolding_all exact (Sub.off (p := .trump) 9749439 hmsk rfl hb).elim) | apply State.onTbl_keeps | apply State.bump_keeps | apply State.onPad_keeps | apply State.onLtm_keeps | apply State.setMode_keeps | apply State.unbindAll_keeps | apply State.renew_keeps | apply State.claim_keeps | apply State.event_keeps | intro _ | split | (dsimp only)))

theorem State.loseTrump_keeps {msk : Nat} {sb s : State} (hmsk : Sub 8667264 msk) (hK : Keeps msk sb s) : Keeps msk sb (State.loseTrump s) := by
  unfold State.loseTrump; (with_reducible repeat' (first | assumption | (refine Sub.of 8667264 ?_ hmsk; with_unfolding_all rfl) | (refine fun (hb : msk.testBit 22 = false) => ?_; intro _; first | rfl | (dsimp only; split <;> rfl)) | (refine fun (hb : msk.testBit 23 = false) => ?_; with_unfolding_all exact (Sub.off (p := .trump) 8667264 hmsk rfl hb).elim) | apply State.onTbl_keeps | apply State.padsHold_keeps | apply State.onLtm_keeps | intro _ | (dsimp only)))

theorem State.dropStep_keeps {msk : Nat} {sb s : State} (cause : Nat) (hmsk : Sub 16829 msk) (hK : Keeps msk sb s) : Keeps msk sb (State.dropStep s cause) := by
  unfold State.dropStep; (with_reducible repeat' (first | assumption | (refine Sub.of 16829 ?_ hmsk; with_unfolding_all rfl) | (refine fun (hb : msk.testBit 20 = false) => ?_; intro _; first | rfl | (dsimp only; split <;> rfl)) | (refine fun (hb : msk.testBit 22 = false) => ?_; intro _; first | rfl | (dsimp only; split <;> rfl)) | (refine fun (hb : msk.testBit 23 = false) => ?_; intro _; first | rfl | (dsimp only; split <;> rfl)) | apply State.onTbl_keeps | apply State.bump_keeps | apply State.event_keeps | apply State.unbindAll_keeps | apply State.setFlow_keeps | apply State.onSys_keeps | apply State.onLtm_keeps | intro _ | (dsimp only)))

theorem State.leaveStep_keeps {msk : Nat} {sb s : State} (cause : Nat) (hmsk : Sub 1098687 msk) (hK : Keeps msk sb s) : Keeps msk sb (State.leaveStep s cause) := by
  unfold State.leaveStep; (with_reducible repeat' (first | assumption | (refine Sub.of 1098687 ?_ hmsk; with_unfolding_all rfl) | apply State.dropStep_keeps | apply State.setMode_keeps | split | (dsimp only)))

theorem State.otherGone_keeps {msk : Nat} {sb s : State} (cause : Nat) (hmsk : Sub 16396 msk) (hK : Keeps msk sb s) : Keeps msk sb (State.otherGone s cause) := by
  unfold State.otherGone; (with_reducible repeat' (first | assumption | (refine Sub.of 16396 ?_ hmsk; with_unfolding_all rfl) | (refine fun (hb : msk.testBit 23 = false) => ?_; intro _; first | rfl | (dsimp only; split <;> rfl)) | apply State.onTbl_keeps | apply State.when_keeps | apply State.bump_keeps | apply State.event_keeps | intro _ | split | (dsimp only)))

theorem execLeft_keeps {msk : Nat} {sb s : State} (cause : Nat) (hmsk : Sub 16396 msk) (hK : Keeps msk sb s) : ∀ t, execLeft cause s = .next t → Keeps msk sb t := by
  intro t e; unfold execLeft at e
  repeat' (first | (cases e; done) | (injection e with e; subst e) | split at e)
  all_goals (with_reducible repeat' (first | assumption | (refine Sub.of 16396 ?_ hmsk; with_unfolding_all rfl) | (refine fun (hb : msk.testBit 23 = false) => ?_; intro _; first | rfl | (dsimp only; split <;> rfl)) | apply State.live_keeps | apply State.when_keeps | apply State.onTbl_keeps | apply State.otherGone_keeps | intro _ | (dsimp only)))

theorem execStandbySilence_keeps {msk : Nat} {sb s : State} (hmsk : Sub 16396 msk) (hK : Keeps msk sb s) : ∀ t, execStandbySilence s = .next t → Keeps msk sb t := by
  intro t e; unfold execStandbySilence at e
  repeat' (first | (cases e; done) | (injection e with e; subst e) | split at e)
  all_goals (with_reducible repeat' (first | assumption | (refine Sub.of 16396 ?_ hmsk; with_unfolding_all rfl) | apply State.live_keeps | apply State.when_keeps | apply State.otherGone_keeps | intro _ | (dsimp only)))

theorem execSuspect_keeps {msk : Nat} {sb s : State} (cause : Nat) (hmsk : Sub 1098687 msk) (hK : Keeps msk sb s) : ∀ t, execSuspect cause s = .next t → Keeps msk sb t := by
  intro t e; unfold execSuspect at e
  repeat' (first | (cases e; done) | (injection e with e; subst e) | split at e)
  all_goals (with_reducible repeat' (first | assumption | (refine Sub.of 1098687 ?_ hmsk; with_unfolding_all rfl) | apply State.live_keeps | apply State.leaveStep_keeps | intro _ | (dsimp only)))

theorem execRenewalReceived_keeps {msk : Nat} {sb s : State} (hold : Bool) (deal : Option (BitVec 32)) (_mode : Nat) (hmsk : Sub 16384 msk) (hK : Keeps msk sb s) : ∀ t, execRenewalReceived hold deal _mode s = .next t → Keeps msk sb t := by
  intro t e; unfold execRenewalReceived at e
  repeat' (first | (cases e; done) | (injection e with e; subst e) | split at e)
  all_goals (with_reducible repeat' (first | assumption | (refine Sub.of 16384 ?_ hmsk; with_unfolding_all rfl) | (refine fun (hb : msk.testBit 23 = false) => ?_; intro _; first | rfl | (dsimp only; split <;> rfl)) | apply State.live_keeps | apply State.onTbl_keeps | intro _ | split | (dsimp only)))

theorem State.leaseExpired_keeps {msk : Nat} {sb s : State} (hmsk : Sub 9749439 msk) (hK : Keeps msk sb s) : Keeps msk sb (State.leaseExpired s) := by
  unfold State.leaseExpired; (with_reducible repeat' (first | assumption | (refine Sub.of 9749439 ?_ hmsk; with_unfolding_all rfl) | (refine fun (hb : msk.testBit 23 = false) => ?_; with_unfolding_all exact (Sub.off (p := .trump) 9749439 hmsk rfl hb).elim) | apply State.onTbl_keeps | apply State.takeTrump_keeps | intro _ | split | (dsimp only)))

theorem execLeaseExpiry_keeps {msk : Nat} {sb s : State} (hmsk : Sub 9749439 msk) (hK : Keeps msk sb s) : ∀ t, execLeaseExpiry s = .next t → Keeps msk sb t := by
  intro t e; unfold execLeaseExpiry at e
  repeat' (first | (cases e; done) | (injection e with e; subst e) | split at e)
  all_goals (with_reducible repeat' (first | assumption | (refine Sub.of 9749439 ?_ hmsk; with_unfolding_all rfl) | apply State.live_keeps | apply State.leaseExpired_keeps | intro _ | (dsimp only)))

theorem State.startupTake_keeps {msk : Nat} {sb s : State} (hmsk : Sub 9749439 msk) (hK : Keeps msk sb s) : Keeps msk sb (State.startupTake s) := by
  unfold State.startupTake; (with_reducible repeat' (first | assumption | (refine Sub.of 9749439 ?_ hmsk; with_unfolding_all rfl) | apply State.takeTrump_keeps | split | (dsimp only)))

theorem execStartupTrumpTake_keeps {msk : Nat} {sb s : State} (hmsk : Sub 9749439 msk) (hK : Keeps msk sb s) : ∀ t, execStartupTrumpTake s = .next t → Keeps msk sb t := by
  intro t e; unfold execStartupTrumpTake at e
  repeat' (first | (cases e; done) | (injection e with e; subst e) | split at e)
  all_goals (with_reducible repeat' (first | assumption | (refine Sub.of 9749439 ?_ hmsk; with_unfolding_all rfl) | apply State.live_keeps | apply State.startupTake_keeps | intro _ | (dsimp only)))

theorem State.yielded_keeps {msk : Nat} {sb s : State} (deal : BitVec 32) (hmsk : Sub 10273727 msk) (hK : Keeps msk sb s) : Keeps msk sb (State.yielded s deal) := by
  unfold State.yielded; (with_reducible repeat' (first | assumption | (refine Sub.of 10273727 ?_ hmsk; with_unfolding_all rfl) | apply State.drawn_keeps | apply State.takeTrump_keeps | split | (dsimp only)))

theorem execYield_keeps {msk : Nat} {sb s : State} (deal : BitVec 32) (_g : BitVec 48) (hmsk : Sub 10273727 msk) (hK : Keeps msk sb s) : ∀ t, execYield deal _g s = .next t → Keeps msk sb t := by
  intro t e; unfold execYield at e
  repeat' (first | (cases e; done) | (injection e with e; subst e) | split at e)
  all_goals (with_reducible repeat' (first | assumption | (refine Sub.of 10273727 ?_ hmsk; with_unfolding_all rfl) | apply State.live_keeps | apply State.yielded_keeps | intro _ | (dsimp only)))

theorem State.handOver_keeps {msk : Nat} {sb s : State} (test : Bool) (hmsk : Sub 9749439 msk) (hK : Keeps msk sb s) : Keeps msk sb (State.handOver s test) := by
  unfold State.handOver; (with_reducible repeat' (first | assumption | (refine Sub.of 9749439 ?_ hmsk; with_unfolding_all rfl) | (refine fun (hb : msk.testBit 20 = false) => ?_; with_unfolding_all exact (Sub.off (p := .mode) 9749439 hmsk rfl hb).elim) | (refine fun (hb : msk.testBit 23 = false) => ?_; with_unfolding_all exact (Sub.off (p := .trump) 9749439 hmsk rfl hb).elim) | apply State.tblSend_keeps | apply State.loseTrump_keeps | apply State.onTbl_keeps | apply State.onSys_keeps | apply State.setMode_keeps | apply State.laneRoles_keeps | intro _ | (dsimp only)))

theorem State.yieldTry_keeps {msk : Nat} {sb s : State} (atLine : Bool) (hmsk : Sub 9749439 msk) (hK : Keeps msk sb s) : Keeps msk sb (State.yieldTry s atLine) := by
  unfold State.yieldTry; (with_reducible repeat' (first | assumption | (refine Sub.of 9749439 ?_ hmsk; with_unfolding_all rfl) | apply State.handOver_keeps | split | (dsimp only)))

theorem State.askYield_keeps {msk : Nat} {sb s : State} (c : Nat) (hmsk : Sub 9749439 msk) (hK : Keeps msk sb s) : Keeps msk sb (State.askYield s c) := by
  unfold State.askYield; (with_reducible repeat' (first | assumption | (refine Sub.of 9749439 ?_ hmsk; with_unfolding_all rfl) | (refine fun (hb : msk.testBit 23 = false) => ?_; with_unfolding_all exact (Sub.off (p := .trump) 9749439 hmsk rfl hb).elim) | apply State.onTbl_keeps | apply State.yieldTry_keeps | apply State.bump_keeps | intro _ | split | (dsimp only)))

theorem State.tblCmd_keeps {msk : Nat} {sb s : State} (ses : Fin 5) (confirm : Byte) (code : Nat) (hmsk : Sub 9749439 msk) (hK : Keeps msk sb s) : Keeps msk sb (State.tblCmd s ses confirm code) := by
  unfold State.tblCmd; (with_reducible repeat' (first | assumption | (refine Sub.of 9749439 ?_ hmsk; with_unfolding_all rfl) | apply State.sesReach_keeps | apply State.auditWrite_keeps | apply State.askYield_keeps | intro _ | split | (dsimp only) | (rename_i e; replace e := Option.map_eq_some_iff.mp e; obtain ⟨_, e, rfl⟩ := e) | (rename_i e; cases e; done) | (rename_i e; injection e with e; subst e) | (rename_i e; dsimp only at e) | (rename_i e; split at e)))

theorem execHandover_keeps {msk : Nat} {sb s : State} (ses : Fin 5) (confirm : Byte) (hmsk : Sub 9749439 msk) (hK : Keeps msk sb s) : ∀ t, execHandover ses confirm s = .next t → Keeps msk sb t := by
  intro t e; unfold execHandover at e
  repeat' (first | (cases e; done) | (injection e with e; subst e) | split at e)
  all_goals (with_reducible repeat' (first | assumption | (refine Sub.of 9749439 ?_ hmsk; with_unfolding_all rfl) | apply State.tblCmd_keeps | (dsimp only)))

theorem execTestTakeover_keeps {msk : Nat} {sb s : State} (ses : Fin 5) (confirm : Byte) (hmsk : Sub 9749439 msk) (hK : Keeps msk sb s) : ∀ t, execTestTakeover ses confirm s = .next t → Keeps msk sb t := by
  intro t e; unfold execTestTakeover at e
  repeat' (first | (cases e; done) | (injection e with e; subst e) | split at e)
  all_goals (with_reducible repeat' (first | assumption | (refine Sub.of 9749439 ?_ hmsk; with_unfolding_all rfl) | apply State.tblCmd_keeps | (dsimp only)))

theorem execTestHoldExpiry_keeps {msk : Nat} {sb s : State} (hmsk : Sub 9749439 msk) (hK : Keeps msk sb s) : ∀ t, execTestHoldExpiry s = .next t → Keeps msk sb t := by
  intro t e; unfold execTestHoldExpiry at e
  repeat' (first | (cases e; done) | (injection e with e; subst e) | split at e)
  all_goals (with_reducible repeat' (first | assumption | (refine Sub.of 9749439 ?_ hmsk; with_unfolding_all rfl) | apply State.live_keeps | apply State.when_keeps | apply State.askYield_keeps | intro _ | (dsimp only)))

theorem execRevert_keeps {msk : Nat} {sb s : State} (_deal : BitVec 32) (hmsk : Sub 9749439 msk) (hK : Keeps msk sb s) : ∀ t, execRevert _deal s = .next t → Keeps msk sb t := by
  intro t e; unfold execRevert at e
  repeat' (first | (cases e; done) | (injection e with e; subst e) | split at e)
  all_goals (with_reducible repeat' (first | assumption | (refine Sub.of 9749439 ?_ hmsk; with_unfolding_all rfl) | apply State.live_keeps | apply State.askYield_keeps | intro _ | (dsimp only)))

theorem State.revertTry_keeps {msk : Nat} {sb s : State} (hmsk : Sub 16384 msk) (hK : Keeps msk sb s) : Keeps msk sb (State.revertTry s) := by
  unfold State.revertTry; (with_reducible repeat' (first | assumption | (refine Sub.of 16384 ?_ hmsk; with_unfolding_all rfl) | (refine fun (hb : msk.testBit 23 = false) => ?_; intro _; first | rfl | (dsimp only; split <;> rfl)) | apply State.onTbl_keeps | intro _ | split | (dsimp only)))

theorem execRevertQualified_keeps {msk : Nat} {sb s : State} (hmsk : Sub 16384 msk) (hK : Keeps msk sb s) : ∀ t, execRevertQualified s = .next t → Keeps msk sb t := by
  intro t e; unfold execRevertQualified at e
  repeat' (first | (cases e; done) | (injection e with e; subst e) | split at e)
  all_goals (with_reducible repeat' (first | assumption | (refine Sub.of 16384 ?_ hmsk; with_unfolding_all rfl) | (refine fun (hb : msk.testBit 23 = false) => ?_; intro _; first | rfl | (dsimp only; split <;> rfl)) | apply State.live_keeps | apply State.when_keeps | apply State.onTbl_keeps | apply State.revertTry_keeps | intro _ | (dsimp only)))

theorem State.stepDown_keeps {msk : Nat} {sb s : State} (lane : Nat) (hmsk : Sub 8675725 msk) (hK : Keeps msk sb s) : Keeps msk sb (State.stepDown s lane) := by
  unfold State.stepDown; (with_reducible repeat' (first | assumption | (refine Sub.of 8675725 ?_ hmsk; with_unfolding_all rfl) | (refine fun (hb : msk.testBit 23 = false) => ?_; with_unfolding_all exact (Sub.off (p := .trump) 8675725 hmsk rfl hb).elim) | apply State.event_keeps | apply State.loseTrump_keeps | apply State.onTbl_keeps | apply State.orderlyStop_keeps | apply State.laneRoles_keeps | intro _ | split | (dsimp only)))

theorem State.checkpointTry_keeps {msk : Nat} {sb s : State} (atLine : Bool) (hmsk : Sub 16384 msk) (hK : Keeps msk sb s) : Keeps msk sb (State.checkpointTry s atLine) := by
  unfold State.checkpointTry; (with_reducible repeat' (first | assumption | (refine Sub.of 16384 ?_ hmsk; with_unfolding_all rfl) | (refine fun (hb : msk.testBit 23 = false) => ?_; intro _; first | rfl | (dsimp only; split <;> rfl)) | apply State.onTbl_keeps | apply State.tblSend_keeps | intro _ | split | (dsimp only)))

theorem State.acked_keeps {msk : Nat} {sb s : State} (fseq : BitVec 32) (hmsk : Sub 16384 msk) (hK : Keeps msk sb s) : Keeps msk sb (State.acked s fseq) := by
  unfold State.acked; (with_reducible repeat' (first | assumption | (refine Sub.of 16384 ?_ hmsk; with_unfolding_all rfl) | (refine fun (hb : msk.testBit 23 = false) => ?_; intro _; first | rfl | (dsimp only; split <;> rfl)) | apply State.onTbl_keeps | apply Keeps.foldl | apply Keeps.foldlFst | intro _ | (dsimp only)))

theorem execAck_keeps {msk : Nat} {sb s : State} (fseq : BitVec 32) (hmsk : Sub 16384 msk) (hK : Keeps msk sb s) : ∀ t, execAck fseq s = .next t → Keeps msk sb t := by
  intro t e; unfold execAck at e
  repeat' (first | (cases e; done) | (injection e with e; subst e) | split at e)
  all_goals (with_reducible repeat' (first | assumption | (refine Sub.of 16384 ?_ hmsk; with_unfolding_all rfl) | apply State.live_keeps | apply State.when_keeps | apply State.acked_keeps | intro _ | (dsimp only)))

theorem execAckSend_keeps {msk : Nat} {sb s : State} (hmsk : Sub 16384 msk) (hK : Keeps msk sb s) : ∀ t, execAckSend s = .next t → Keeps msk sb t := by
  intro t e; unfold execAckSend at e
  repeat' (first | (cases e; done) | (injection e with e; subst e) | split at e)
  all_goals (with_reducible repeat' (first | assumption | (refine Sub.of 16384 ?_ hmsk; with_unfolding_all rfl) | apply State.live_keeps | apply State.when_keeps | apply State.tblSend_keeps | intro _ | (dsimp only)))

theorem execReplay_keeps {msk : Nat} {sb s : State} (fseq : BitVec 32) (hmsk : Sub 16384 msk) (hK : Keeps msk sb s) : ∀ t, execReplay fseq s = .next t → Keeps msk sb t := by
  intro t e; unfold execReplay at e
  repeat' (first | (cases e; done) | (injection e with e; subst e) | split at e)
  all_goals (with_reducible repeat' (first | assumption | (refine Sub.of 16384 ?_ hmsk; with_unfolding_all rfl) | apply State.live_keeps | apply State.when_keeps | apply State.tblSend_keeps | intro _ | (dsimp only)))

theorem State.askReplay_keeps {msk : Nat} {sb s : State} (hmsk : Sub 17383436 msk) (hK : Keeps msk sb s) : Keeps msk sb (State.askReplay s) := by
  unfold State.askReplay; (with_reducible repeat' (first | assumption | (refine Sub.of 17383436 ?_ hmsk; with_unfolding_all rfl) | apply State.tblSend_keeps | apply State.bump_keeps | apply State.drawn_keeps | apply State.upset_keeps | intro _ | split | (dsimp only)))

theorem execFill_keeps {msk : Nat} {sb s : State} (lines : Nat) (latched : Bool) (hmsk : Sub 16384 msk) (hK : Keeps msk sb s) : ∀ t, execFill lines latched s = .next t → Keeps msk sb t := by
  intro t e; unfold execFill at e
  repeat' (first | (cases e; done) | (injection e with e; subst e) | split at e)
  all_goals (with_reducible repeat' (first | assumption | (refine Sub.of 16384 ?_ hmsk; with_unfolding_all rfl) | (refine fun (hb : msk.testBit 23 = false) => ?_; intro _; first | rfl | (dsimp only; split <;> rfl)) | apply State.live_keeps | apply State.when_keeps | apply State.onTbl_keeps | intro _ | (dsimp only)))

theorem execFillSend_keeps {msk : Nat} {sb s : State} (hmsk : Sub 16384 msk) (hK : Keeps msk sb s) : ∀ t, execFillSend s = .next t → Keeps msk sb t := by
  intro t e; unfold execFillSend at e
  repeat' (first | (cases e; done) | (injection e with e; subst e) | split at e)
  all_goals (with_reducible repeat' (first | assumption | (refine Sub.of 16384 ?_ hmsk; with_unfolding_all rfl) | apply State.live_keeps | apply State.when_keeps | apply State.tblSend_keeps | intro _ | split | (dsimp only)))

theorem execTimeExchange_keeps {msk : Nat} {sb s : State} (lat : BitVec 12) (ofs : Int) (hmsk : Sub 16384 msk) (hK : Keeps msk sb s) : ∀ t, execTimeExchange lat ofs s = .next t → Keeps msk sb t := by
  intro t e; unfold execTimeExchange at e
  repeat' (first | (cases e; done) | (injection e with e; subst e) | split at e)
  all_goals (with_reducible repeat' (first | assumption | (refine Sub.of 16384 ?_ hmsk; with_unfolding_all rfl) | (refine fun (hb : msk.testBit 23 = false) => ?_; intro _; first | rfl | (dsimp only; split <;> rfl)) | apply State.live_keeps | apply State.when_keeps | apply State.onTbl_keeps | intro _ | (dsimp only)))

theorem State.reachStep_keeps {msk : Nat} {sb s : State} (hmsk : Sub 16396 msk) (hK : Keeps msk sb s) : Keeps msk sb (State.reachStep s) := by
  unfold State.reachStep; (with_reducible repeat' (first | assumption | (refine Sub.of 16396 ?_ hmsk; with_unfolding_all rfl) | (refine fun (hb : msk.testBit 23 = false) => ?_; intro _; first | rfl | (dsimp only; split <;> rfl)) | apply State.onTbl_keeps | apply State.event_keeps | intro _ | split | (dsimp only)))

theorem State.diverged_keeps {msk : Nat} {sb s : State} (cause : Nat) (hmsk : Sub 1098687 msk) (hK : Keeps msk sb s) : Keeps msk sb (State.diverged s cause) := by
  unfold State.diverged; (with_reducible repeat' (first | assumption | (refine Sub.of 1098687 ?_ hmsk; with_unfolding_all rfl) | apply State.tblSend_keeps | apply State.leaveStep_keeps | split | (dsimp only)))

theorem State.pairDig_keeps {msk : Nat} {sb s : State} (d : Dig) (hmsk : Sub 1098687 msk) (hK : Keeps msk sb s) : Keeps msk sb (State.pairDig s d) := by
  unfold State.pairDig; (with_reducible repeat' (first | assumption | (refine Sub.of 1098687 ?_ hmsk; with_unfolding_all rfl) | (refine fun (hb : msk.testBit 23 = false) => ?_; intro _; first | rfl | (dsimp only; split <;> rfl)) | apply State.onTbl_keeps | apply State.reachStep_keeps | apply State.diverged_keeps | intro _ | split | (dsimp only)))

theorem State.settleDigs_keeps {msk : Nat} {sb s : State} (hmsk : Sub 1098687 msk) (hK : Keeps msk sb s) : Keeps msk sb (State.settleDigs s) := by
  unfold State.settleDigs; (with_reducible repeat' (first | assumption | (refine Sub.of 1098687 ?_ hmsk; with_unfolding_all rfl) | (refine fun (hb : msk.testBit 23 = false) => ?_; intro _; first | rfl | (dsimp only; split <;> rfl)) | apply State.pairDig_keeps | apply State.onTbl_keeps | apply State.diverged_keeps | apply Keeps.foldl | apply Keeps.foldlFst | intro _ | split | (dsimp only)))

theorem State.digestBlock_keeps {msk : Nat} {sb s : State} (b line : Nat) (hmsk : Sub 16384 msk) (hK : Keeps msk sb s) : Keeps msk sb (State.digestBlock s b line) := by
  unfold State.digestBlock; (with_reducible repeat' (first | assumption | (refine Sub.of 16384 ?_ hmsk; with_unfolding_all rfl) | (refine fun (hb : msk.testBit 23 = false) => ?_; intro _; first | rfl | (dsimp only; split <;> rfl)) | apply State.tblSend_keeps | apply State.onTbl_keeps | intro _ | split | (dsimp only)))

theorem State.digestsOut_keeps {msk : Nat} {sb s : State} (hmsk : Sub 1098687 msk) (hK : Keeps msk sb s) : Keeps msk sb (State.digestsOut s) := by
  unfold State.digestsOut; (with_reducible repeat' (first | assumption | (refine Sub.of 1098687 ?_ hmsk; with_unfolding_all rfl) | apply State.digestBlock_keeps | apply State.settleDigs_keeps | apply Keeps.foldl | apply Keeps.foldlFst | intro _ | (dsimp only)))

theorem State.digestIn_keeps {msk : Nat} {sb s : State} (lane line : Nat) (vals : List (Option Nat)) (hmsk : Sub 1098687 msk) (hK : Keeps msk sb s) : Keeps msk sb (State.digestIn s lane line vals) := by
  unfold State.digestIn; (with_reducible repeat' (first | assumption | (refine Sub.of 1098687 ?_ hmsk; with_unfolding_all rfl) | (refine fun (hb : msk.testBit 23 = false) => ?_; intro _; first | rfl | (dsimp only; split <;> rfl)) | apply State.onTbl_keeps | apply State.settleDigs_keeps | intro _ | split | (dsimp only)))

theorem execDigest_keeps {msk : Nat} {sb s : State} (lane line : Nat) (vals : List (Option Nat)) (hmsk : Sub 1098687 msk) (hK : Keeps msk sb s) : ∀ t, execDigest lane line vals s = .next t → Keeps msk sb t := by
  intro t e; unfold execDigest at e
  repeat' (first | (cases e; done) | (injection e with e; subst e) | split at e)
  all_goals (with_reducible repeat' (first | assumption | (refine Sub.of 1098687 ?_ hmsk; with_unfolding_all rfl) | apply State.live_keeps | apply State.digestIn_keeps | intro _ | (dsimp only)))

theorem State.shiftGrid_keeps {msk : Nat} {sb s : State} (d : Rat) (hmsk : Sub 128 msk) (hK : Keeps msk sb s) : Keeps msk sb (State.shiftGrid s d) := by
  unfold State.shiftGrid; (with_reducible repeat' (first | assumption | (refine Sub.of 128 ?_ hmsk; with_unfolding_all rfl) | (refine fun (hb : msk.testBit 22 = false) => ?_; intro _; first | rfl | (dsimp only; split <;> rfl)) | apply State.onLtm_keeps | intro _ | (dsimp only)))

theorem State.comparePos_keeps {msk : Nat} {sb s : State} (c : PosCmp) (hmsk : Sub 1098687 msk) (hK : Keeps msk sb s) : Keeps msk sb (State.comparePos s c) := by
  unfold State.comparePos; (with_reducible repeat' (first | assumption | (refine Sub.of 1098687 ?_ hmsk; with_unfolding_all rfl) | (refine fun (hb : msk.testBit 23 = false) => ?_; intro _; first | rfl | (dsimp only; split <;> rfl)) | apply State.shiftGrid_keeps | apply State.onTbl_keeps | apply State.leaveStep_keeps | intro _ | split | (dsimp only)))

theorem State.comparisons_keeps {msk : Nat} {sb s : State} (hmsk : Sub 1098687 msk) (hK : Keeps msk sb s) : ∀ (z0 : Nat), Keeps msk sb (State.comparisons s z0) := by
  intro z0
  induction z0 generalizing s with
  | zero => (unfold State.comparisons); (with_reducible repeat' (first | assumption | (refine Sub.of 1098687 ?_ hmsk; with_unfolding_all rfl) | (refine fun (hb : msk.testBit 23 = false) => ?_; intro _; first | rfl | (dsimp only; split <;> rfl)) | apply State.onTbl_keeps | apply State.comparePos_keeps | intro _ | split | (dsimp only)))
  | succ k ih => (unfold State.comparisons); (with_reducible repeat' (first | assumption | (refine Sub.of 1098687 ?_ hmsk; with_unfolding_all rfl) | (refine fun (hb : msk.testBit 23 = false) => ?_; intro _; first | rfl | (dsimp only; split <;> rfl)) | apply ih | apply State.onTbl_keeps | apply State.comparePos_keeps | intro _ | split | (dsimp only)))

theorem State.standbySample_keeps {msk : Nat} {sb s : State} (hmsk : Sub 1098751 msk) (hK : Keeps msk sb s) : Keeps msk sb (State.standbySample s) := by
  unfold State.standbySample; (with_reducible repeat' (first | assumption | (refine Sub.of 1098751 ?_ hmsk; with_unfolding_all rfl) | (refine fun (hb : msk.testBit 23 = false) => ?_; intro _; first | rfl | (dsimp only; split <;> rfl)) | (refine State.takeSample_keeps (Sub.of 1098751 (by with_unfolding_all rfl) hmsk) ?_ _ (by assumption)) | apply State.onTbl_keeps | apply State.comparisons_keeps | intro _ | split | (dsimp only) | (rename_i e; replace e := Option.map_eq_some_iff.mp e; obtain ⟨_, e, rfl⟩ := e) | (rename_i e; cases e; done) | (rename_i e; injection e with e; subst e) | (rename_i e; dsimp only at e) | (rename_i e; split at e)))

theorem State.standbyLanes_keeps {msk : Nat} {sb s : State} (hmsk : Sub 82184 msk) (hK : Keeps msk sb s) : Keeps msk sb (State.standbyLanes s) := by
  unfold State.standbyLanes; (with_reducible repeat' (first | assumption | (refine Sub.of 82184 ?_ hmsk; with_unfolding_all rfl) | apply State.onLane_keeps | apply State.standbyTake_keeps | apply Keeps.foldl | apply Keeps.foldlFst | intro _ | split | (dsimp only)))

theorem State.lineEvt_keeps {msk : Nat} {sb s : State} (e : LEvt) (hmsk : Sub 5358527 msk) (hK : Keeps msk sb s) : Keeps msk sb (State.lineEvt s e) := by
  unfold State.lineEvt; (with_reducible repeat' (first | assumption | (refine Sub.of 5358527 ?_ hmsk; with_unfolding_all rfl) | (refine fun (hb : msk.testBit 22 = false) => ?_; with_unfolding_all exact (Sub.off (p := .grid) 5358527 hmsk rfl hb).elim) | (refine fun (hb : msk.testBit 23 = false) => ?_; intro _; first | rfl | (dsimp only; split <;> rfl)) | apply State.leaveStep_keeps | apply State.onTbl_keeps | apply State.advanceH_keeps | apply State.onLtm_keeps | apply State.fineSteps_keeps | apply State.voidGrid_keeps | apply State.commitHead_keeps | apply State.voidStale_keeps | apply State.asShadow_keeps | apply State.jobsAt_keeps | apply State.standbyLanes_keeps | apply State.digestsOut_keeps | apply Keeps.foldl | apply Keeps.foldlFst | intro _ | split | (dsimp only)))

end Sys2Proof.Machine
end

