-- ==== Sys2Proof/Laws/KeepsLamp.lean ====
section
/-! SUPPORT. What each operation of Machine/Lamp.lean keeps: the queue, and the canonical form of the register maps. -/
set_option Elab.async false
namespace Sys2Proof.Machine

theorem State.onLamp_keeps {msk : Nat} {sb s : State} (l : Fin 32) (f : Lamp → Lamp) (hmsk : Sub 4096 msk) (hK : Keeps msk sb s) : Keeps msk sb (State.onLamp s l f) := by
  unfold State.onLamp; (with_reducible repeat' (first | assumption | (refine Sub.of 4096 ?_ hmsk; with_unfolding_all rfl) | apply State.onLmp_keeps | intro _ | (dsimp only)))

theorem State.lampFails_keeps {msk : Nat} {sb s : State} (l : Fin 32) (hmsk : Sub 12301 msk) (hK : Keeps msk sb s) : Keeps msk sb (State.lampFails s l) := by
  unfold State.lampFails; (with_reducible repeat' (first | assumption | (refine Sub.of 12301 ?_ hmsk; with_unfolding_all rfl) | apply State.onLamp_keeps | apply State.orderlyStop_keeps | intro _ | split | (dsimp only)))

theorem State.failing_keeps {msk : Nat} {sb s : State} (l : Fin 32) (f : State → State) (hf : ∀ x, Keeps msk sb x → Keeps msk sb (f x)) (hmsk : Sub 12301 msk) (hK : Keeps msk sb s) : Keeps msk sb (State.failing s l f) := by
  unfold State.failing; (with_reducible repeat' (first | assumption | (refine Sub.of 12301 ?_ hmsk; with_unfolding_all rfl) | apply State.lampFails_keeps | (apply hf) | split | (dsimp only) | (rename_i e; replace e := Option.map_eq_some_iff.mp e; obtain ⟨_, e, rfl⟩ := e) | (rename_i e; cases e; done) | (rename_i e; injection e with e; subst e) | (rename_i e; dsimp only at e) | (rename_i e; split at e)))

theorem State.busError_keeps {msk : Nat} {sb s : State} (hmsk : Sub 524292 msk) (hK : Keeps msk sb s) : Keeps msk sb (State.busError s) := by
  unfold State.busError; (with_reducible repeat' (first | assumption | (refine Sub.of 524292 ?_ hmsk; with_unfolding_all rfl) | apply State.bump_keeps | apply State.drawn_keeps | split | (dsimp only)))

theorem State.busErrors_keeps {msk : Nat} {sb s : State} (hmsk : Sub 524292 msk) (hK : Keeps msk sb s) : ∀ (z0 : Nat), Keeps msk sb (State.busErrors s z0) := by
  intro z0
  induction z0 generalizing s with
  | zero => (unfold State.busErrors); (with_reducible repeat' (first | assumption | (refine Sub.of 524292 ?_ hmsk; with_unfolding_all rfl) | apply State.busError_keeps | (dsimp only)))
  | succ k ih => (unfold State.busErrors); (with_reducible repeat' (first | assumption | (refine Sub.of 524292 ?_ hmsk; with_unfolding_all rfl) | apply ih | apply State.busError_keeps | (dsimp only)))

theorem State.sense_keeps {msk : Nat} {sb s : State} (c : Nat) (i : LampIn) (hmsk : Sub 528388 msk) (hK : Keeps msk sb s) : Keeps msk sb (State.sense s c i) := by
  unfold State.sense; (with_reducible repeat' (first | assumption | (refine Sub.of 528388 ?_ hmsk; with_unfolding_all rfl) | apply State.onLmp_keeps | apply State.busErrors_keeps | intro _ | split | (dsimp only)))

theorem State.gainsMove_keeps {msk : Nat} {sb s : State} (c : Nat) (hmsk : Sub 4096 msk) (hK : Keeps msk sb s) : Keeps msk sb (State.gainsMove s c) := by
  unfold State.gainsMove; (with_reducible repeat' (first | assumption | (refine Sub.of 4096 ?_ hmsk; with_unfolding_all rfl) | apply State.onLmp_keeps | intro _ | split | (dsimp only)))

theorem State.gainFound_keeps {msk : Nat} {sb s : State} (k : Fin 16) (m : Vector (BitVec 16) 3) (hmsk : Sub 528384 msk) (hK : Keeps msk sb s) : Keeps msk sb (State.gainFound s k m) := by
  unfold State.gainFound; (with_reducible repeat' (first | assumption | (refine Sub.of 528384 ?_ hmsk; with_unfolding_all rfl) | apply State.drawn_keeps | apply State.onLmp_keeps | intro _ | split | (dsimp only)))

theorem State.lsAbandon_keeps {msk : Nat} {sb s : State} (hmsk : Sub 2048 msk) (hK : Keeps msk sb s) : Keeps msk sb (State.lsAbandon s) := by
  unfold State.lsAbandon; (with_reducible repeat' (first | assumption | (refine Sub.of 2048 ?_ hmsk; with_unfolding_all rfl) | apply State.onChl_keeps | intro _ | (dsimp only)))

theorem State.hotTick_keeps {msk : Nat} {sb s : State} (l : Fin 32) (hmsk : Sub 4108 msk) (hK : Keeps msk sb s) : Keeps msk sb (State.hotTick s l) := by
  unfold State.hotTick; (with_reducible repeat' (first | assumption | (refine Sub.of 4108 ?_ hmsk; with_unfolding_all rfl) | apply State.event_keeps | apply State.onLamp_keeps | intro _ | split | (dsimp only)))

theorem State.lampTick_keeps {msk : Nat} {sb s : State} (l : Fin 32) (hmsk : Sub 12301 msk) (hK : Keeps msk sb s) : Keeps msk sb (State.lampTick s l) := by
  unfold State.lampTick; (with_reducible repeat' (first | assumption | (refine Sub.of 12301 ?_ hmsk; with_unfolding_all rfl) | apply State.failing_keeps | apply State.hotTick_keeps | apply State.onLamp_keeps | apply Keeps.getD | intro _ | split | (dsimp only) | (rename_i e; replace e := Option.map_eq_some_iff.mp e; obtain ⟨_, e, rfl⟩ := e) | (rename_i e; cases e; done) | (rename_i e; injection e with e; subst e) | (rename_i e; dsimp only at e) | (rename_i e; split at e)))

theorem State.openFail_keeps {msk : Nat} {sb s : State} (c : Fin 4) (l : Fin 32) (hmsk : Sub 12301 msk) (hK : Keeps msk sb s) : Keeps msk sb (State.openFail s c l) := by
  unfold State.openFail; (with_reducible repeat' (first | assumption | (refine Sub.of 12301 ?_ hmsk; with_unfolding_all rfl) | apply State.failing_keeps | apply State.onLamp_keeps | apply State.event_keeps | intro _ | split | (dsimp only)))

theorem State.unverTick_keeps {msk : Nat} {sb s : State} (l : Fin 32) (hmsk : Sub 4096 msk) (hK : Keeps msk sb s) : Keeps msk sb (State.unverTick s l) := by
  unfold State.unverTick; (with_reducible repeat' (first | assumption | (refine Sub.of 4096 ?_ hmsk; with_unfolding_all rfl) | apply State.onLamp_keeps | intro _ | split | (dsimp only)))

theorem State.latchFrame_keeps {msk : Nat} {sb s : State} (c : Fin 4) (hmsk : Sub 4096 msk) (hK : Keeps msk sb s) : Keeps msk sb (State.latchFrame s c) := by
  unfold State.latchFrame; (with_reducible repeat' (first | assumption | (refine Sub.of 4096 ?_ hmsk; with_unfolding_all rfl) | apply State.onChain_keeps | apply State.onLamp_keeps | apply Keeps.foldl | apply Keeps.foldlFst | intro _ | (dsimp only)))

theorem State.lampFrame_keeps {msk : Nat} {sb s : State} (c : Fin 4) (i : LampIn) (hmsk : Sub 555021 msk) (hK : Keeps msk sb s) : Keeps msk sb (State.lampFrame s c i) := by
  unfold State.lampFrame; (with_reducible repeat' (first | assumption | (refine Sub.of 555021 ?_ hmsk; with_unfolding_all rfl) | apply State.sense_keeps | apply State.gainsMove_keeps | apply State.lsAbandon_keeps | apply State.forward_keeps | apply State.onChain_keeps | apply State.bump_keeps | apply State.openFail_keeps | apply State.lampTick_keeps | apply State.unverTick_keeps | apply State.latchFrame_keeps | apply Keeps.foldl | apply Keeps.foldlFst | intro _ | split | (dsimp only)))

theorem State.lampFrameIn_keeps {msk : Nat} {sb s : State} (c : Fin 4) (i : LampIn) (hmsk : Sub 17397773 msk) (hK : Keeps msk sb s) : Keeps msk sb (State.lampFrameIn s c i) := by
  unfold State.lampFrameIn; (with_reducible repeat' (first | assumption | (refine Sub.of 17397773 ?_ hmsk; with_unfolding_all rfl) | apply State.lampFrame_keeps | apply State.upset_keeps | split | (dsimp only)))

theorem State.chainRetires_keeps {msk : Nat} {sb s : State} (c : Fin 4) (hmsk : Sub 16855053 msk) (hK : Keeps msk sb s) : Keeps msk sb (State.chainRetires s c) := by
  unfold State.chainRetires; (with_reducible repeat' (first | assumption | (refine Sub.of 16855053 ?_ hmsk; with_unfolding_all rfl) | apply State.markRetired_keeps | apply State.onChain_keeps | apply State.event_keeps | apply State.lampFails_keeps | apply Keeps.foldl | apply Keeps.foldlFst | intro _ | (dsimp only)))

theorem State.lampReset_keeps {msk : Nat} {sb s : State} (hmsk : Sub 4096 msk) (hK : Keeps msk sb s) : Keeps msk sb (State.lampReset s) := by
  unfold State.lampReset; (with_reducible repeat' (first | assumption | (refine Sub.of 4096 ?_ hmsk; with_unfolding_all rfl) | apply State.onLmp_keeps | intro _ | (dsimp only)))

theorem State.lampStops_keeps {msk : Nat} {sb s : State} (hmsk : Sub 12301 msk) (hK : Keeps msk sb s) : Keeps msk sb (State.lampStops s) := by
  unfold State.lampStops; (with_reducible repeat' (first | assumption | (refine Sub.of 12301 ?_ hmsk; with_unfolding_all rfl) | apply State.onLmp_keeps | apply State.orderlyStop_keeps | intro _ | split | (dsimp only)))

end Sys2Proof.Machine
end

