-- ==== Sys2Proof/Laws/KeepsVis.lean ====
section
/-! SUPPORT. What each operation of Machine/Vis.lean keeps: the queue, and the canonical form of the register maps. -/
set_option Elab.async false
namespace Sys2Proof.Machine

theorem State.onCam_keeps {msk : Nat} {sb s : State} (k : Fin 8) (f : Cam → Cam) (hmsk : Sub 1024 msk) (hK : Keeps msk sb s) : Keeps msk sb (State.onCam s k f) := by
  unfold State.onCam; (with_reducible repeat' (first | assumption | (refine Sub.of 1024 ?_ hmsk; with_unfolding_all rfl) | apply State.onVis_keeps | intro _ | (dsimp only)))

theorem State.visPump_keeps {msk : Nat} {sb s : State} (hmsk : Sub 1036 msk) (hK : Keeps msk sb s) : Keeps msk sb (State.visPump s) := by
  unfold State.visPump; (with_reducible repeat' (first | assumption | (refine Sub.of 1036 ?_ hmsk; with_unfolding_all rfl) | apply State.pumpList_keeps | apply State.onVis_keeps | intro _ | split | (dsimp only)))

theorem State.statOut_keeps {msk : Nat} {sb s : State} (p : Fin 4) (l : List StatRec) (hmsk : Sub 17420 msk) (hK : Keeps msk sb s) : Keeps msk sb (State.statOut s p l) := by
  unfold State.statOut; (with_reducible repeat' (first | assumption | (refine Sub.of 17420 ?_ hmsk; with_unfolding_all rfl) | apply State.forward_keeps | apply State.onVis_keeps | apply State.visPump_keeps | apply Keeps.foldl | apply Keeps.foldlFst | intro _ | (dsimp only)))

theorem State.frameOnly_keeps {msk : Nat} {sb s : State} (k : Fin 8) (g : Grp) (fl : GrpFlags) (hmsk : Sub 17420 msk) (hK : Keeps msk sb s) : Keeps msk sb (State.frameOnly s k g fl) := by
  unfold State.frameOnly; (with_reducible repeat' (first | assumption | (refine Sub.of 17420 ?_ hmsk; with_unfolding_all rfl) | apply State.statOut_keeps | (dsimp only)))

theorem State.missing_keeps {msk : Nat} {sb s : State} (k : Fin 8) (g : Grp) (dropped : Bool) (hmsk : Sub 16860172 msk) (hK : Keeps msk sb s) : Keeps msk sb (State.missing s k g dropped) := by
  unfold State.missing; (with_reducible repeat' (first | assumption | (refine Sub.of 16860172 ?_ hmsk; with_unfolding_all rfl) | apply State.bump_keeps | apply State.frameOnly_keeps | apply State.upset_keeps | split | (dsimp only)))

theorem State.camTrigger_keeps {msk : Nat} {sb s : State} (k : Fin 8) (hmsk : Sub 279564 msk) (hK : Keeps msk sb s) : Keeps msk sb (State.camTrigger s k) := by
  unfold State.camTrigger; (with_reducible repeat' (first | assumption | (refine Sub.of 279564 ?_ hmsk; with_unfolding_all rfl) | apply State.onPad_keeps | apply State.onCam_keeps | apply State.bump_keeps | apply State.frameOnly_keeps | intro _ | split | (dsimp only)))

theorem State.camTriggers_keeps {msk : Nat} {sb s : State} (hmsk : Sub 279564 msk) (hK : Keeps msk sb s) : Keeps msk sb (State.camTriggers s) := by
  unfold State.camTriggers; (with_reducible repeat' (first | assumption | (refine Sub.of 279564 ?_ hmsk; with_unfolding_all rfl) | apply State.camTrigger_keeps | apply Keeps.foldl | apply Keeps.foldlFst | intro _ | split | (dsimp only)))

theorem execCameraTriggerEnd_keeps {msk : Nat} {sb s : State} (k : Fin 8) (hmsk : Sub 262144 msk) (hK : Keeps msk sb s) : ∀ t, execCameraTriggerEnd k s = .next t → Keeps msk sb t := by
  intro t e; unfold execCameraTriggerEnd at e
  repeat' (first | (cases e; done) | (injection e with e; subst e) | split at e)
  all_goals (with_reducible repeat' (first | assumption | (refine Sub.of 262144 ?_ hmsk; with_unfolding_all rfl) | apply State.live_keeps | apply State.onPad_keeps | intro _ | (dsimp only)))

theorem State.sensCommit_keeps {msk : Nat} {sb s : State} (k : Fin 8) (old : SensSet) (hmsk : Sub 1024 msk) (hK : Keeps msk sb s) : Keeps msk sb (State.sensCommit s k old) := by
  unfold State.sensCommit; (with_reducible repeat' (first | assumption | (refine Sub.of 1024 ?_ hmsk; with_unfolding_all rfl) | apply State.onCam_keeps | apply State.onVis_keeps | intro _ | split | (dsimp only)))

theorem State.sensSend_keeps {msk : Nat} {sb s : State} (k : Fin 8) (ack : Bool) (hmsk : Sub 16843788 msk) (hK : Keeps msk sb s) : Keeps msk sb (State.sensSend s k ack) := by
  unfold State.sensSend; (with_reducible repeat' (first | assumption | (refine Sub.of 16843788 ?_ hmsk; with_unfolding_all rfl) | apply State.onVis_keeps | apply State.onCam_keeps | apply State.bump_keeps | apply State.event_keeps | apply State.upset_keeps | intro _ | split | (dsimp only)))

theorem State.onGrp_keeps {msk : Nat} {sb s : State} (k : Fin 8) (frame : Nat) (f : Grp → Grp) (hmsk : Sub 1024 msk) (hK : Keeps msk sb s) : Keeps msk sb (State.onGrp s k frame f) := by
  unfold State.onGrp; (with_reducible repeat' (first | assumption | (refine Sub.of 1024 ?_ hmsk; with_unfolding_all rfl) | apply State.onCam_keeps | intro _ | split | (dsimp only)))

theorem State.visTake1_keeps {msk : Nat} {sb s : State} (p : Fin 4) (hmsk : Sub 1032 msk) (hK : Keeps msk sb s) : Keeps msk sb (State.visTake1 s p) := by
  unfold State.visTake1; (with_reducible repeat' (first | assumption | (refine Sub.of 1032 ?_ hmsk; with_unfolding_all rfl) | apply State.qFree_keeps | apply State.settle_keeps | apply State.onGrp_keeps | intro _ | split | (dsimp only)))

theorem State.visTakeN_keeps {msk : Nat} {sb s : State} (p : Fin 4) (hmsk : Sub 1032 msk) (hK : Keeps msk sb s) : ∀ (z0 : Nat), Keeps msk sb (State.visTakeN s p z0) := by
  intro z0
  induction z0 generalizing s with
  | zero => (unfold State.visTakeN); (with_reducible repeat' (first | assumption | (refine Sub.of 1032 ?_ hmsk; with_unfolding_all rfl) | apply State.visTake1_keeps | split | (dsimp only)))
  | succ k ih => (unfold State.visTakeN); (with_reducible repeat' (first | assumption | (refine Sub.of 1032 ?_ hmsk; with_unfolding_all rfl) | apply ih | apply State.visTake1_keeps | split | (dsimp only)))

theorem State.visTake_keeps {msk : Nat} {sb s : State} (p : Fin 4) (hmsk : Sub 1032 msk) (hK : Keeps msk sb s) : Keeps msk sb (State.visTake s p) := by
  unfold State.visTake; (with_reducible repeat' (first | assumption | (refine Sub.of 1032 ?_ hmsk; with_unfolding_all rfl) | apply State.settle_keeps | apply State.visTakeN_keeps | (dsimp only)))

theorem State.segPut_keeps {msk : Nat} {sb s : State} (k : Fin 8) (frame : Nat) (x : FrameSeg) (hmsk : Sub 16860172 msk) (hK : Keeps msk sb s) : Keeps msk sb (State.segPut s k frame x) := by
  unfold State.segPut; (with_reducible repeat' (first | assumption | (refine Sub.of 16860172 ?_ hmsk; with_unfolding_all rfl) | apply State.bump_keeps | apply State.onGrp_keeps | apply State.missing_keeps | apply State.visTake_keeps | apply State.qPut_keeps | intro _ | split | (dsimp only)))

theorem State.lineIn_keeps {msk : Nat} {sb s : State} (k : Fin 8) (frame : Nat) (row : List Nat) (bytes : Nat) (hmsk : Sub 16860172 msk) (hK : Keeps msk sb s) : Keeps msk sb (State.lineIn s k frame row bytes) := by
  unfold State.lineIn; (with_reducible repeat' (first | assumption | (refine Sub.of 16860172 ?_ hmsk; with_unfolding_all rfl) | apply State.onGrp_keeps | apply State.segPut_keeps | apply Keeps.foldl | apply Keeps.foldlFst | intro _ | split | (dsimp only)))

theorem State.frameClose_keeps {msk : Nat} {sb s : State} (k : Fin 8) (hmsk : Sub 16860172 msk) (hK : Keeps msk sb s) : Keeps msk sb (State.frameClose s k) := by
  unfold State.frameClose; (with_reducible repeat' (first | assumption | (refine Sub.of 16860172 ?_ hmsk; with_unfolding_all rfl) | apply State.segPut_keeps | apply State.onGrp_keeps | apply State.onCam_keeps | intro _ | split | (dsimp only)))

theorem State.cutGroup_keeps {msk : Nat} {sb s : State} (k : Fin 8) (hmsk : Sub 1024 msk) (hK : Keeps msk sb s) : Keeps msk sb (State.cutGroup s k) := by
  unfold State.cutGroup; (with_reducible repeat' (first | assumption | (refine Sub.of 1024 ?_ hmsk; with_unfolding_all rfl) | apply State.onCam_keeps | intro _ | split | (dsimp only)))

theorem State.setBegins_keeps {msk : Nat} {sb s : State} (k : Fin 8) (frame : Nat) (hmsk : Sub 1024 msk) (hK : Keeps msk sb s) : Keeps msk sb (State.setBegins s k frame) := by
  unfold State.setBegins; (with_reducible repeat' (first | assumption | (refine Sub.of 1024 ?_ hmsk; with_unfolding_all rfl) | apply State.onCam_keeps | intro _ | split | (dsimp only)))

theorem State.startIn_keeps {msk : Nat} {sb s : State} (k : Fin 8) (frame : Nat) (hmsk : Sub 1024 msk) (hK : Keeps msk sb s) : Keeps msk sb (State.startIn s k frame) := by
  unfold State.startIn; (with_reducible repeat' (first | assumption | (refine Sub.of 1024 ?_ hmsk; with_unfolding_all rfl) | apply State.setBegins_keeps | apply State.onGrp_keeps | intro _ | split | (dsimp only)))

theorem State.frameStart_keeps {msk : Nat} {sb s : State} (k : Fin 8) (first : Bool) (hmsk : Sub 16860172 msk) (hK : Keeps msk sb s) : Keeps msk sb (State.frameStart s k first) := by
  unfold State.frameStart; (with_reducible repeat' (first | assumption | (refine Sub.of 16860172 ?_ hmsk; with_unfolding_all rfl) | apply State.frameClose_keeps | apply State.cutGroup_keeps | apply State.startIn_keeps | apply State.onCam_keeps | apply State.bump_keeps | intro _ | split | (dsimp only)))

theorem State.badHeader_keeps {msk : Nat} {sb s : State} (p : Fin 4) (hmsk : Sub 16842764 msk) (hK : Keeps msk sb s) : Keeps msk sb (State.badHeader s p) := by
  unfold State.badHeader; (with_reducible repeat' (first | assumption | (refine Sub.of 16842764 ?_ hmsk; with_unfolding_all rfl) | apply State.bump_keeps | apply State.upset_keeps | (dsimp only)))

theorem State.frameStartIn_keeps {msk : Nat} {sb s : State} (p vc : Fin 4) (hdrOk first : Bool) (hmsk : Sub 16860172 msk) (hK : Keeps msk sb s) : Keeps msk sb (State.frameStartIn s p vc hdrOk first) := by
  unfold State.frameStartIn; (with_reducible repeat' (first | assumption | (refine Sub.of 16860172 ?_ hmsk; with_unfolding_all rfl) | apply State.badHeader_keeps | apply State.frameStart_keeps | split | (dsimp only)))

theorem State.frameEndIn_keeps {msk : Nat} {sb s : State} (p vc : Fin 4) (hdrOk : Bool) (hmsk : Sub 16860172 msk) (hK : Keeps msk sb s) : Keeps msk sb (State.frameEndIn s p vc hdrOk) := by
  unfold State.frameEndIn; (with_reducible repeat' (first | assumption | (refine Sub.of 16860172 ?_ hmsk; with_unfolding_all rfl) | apply State.badHeader_keeps | apply State.frameClose_keeps | split | (dsimp only)))

theorem State.badLine_keeps {msk : Nat} {sb s : State} (p : Fin 4) (hmsk : Sub 16842764 msk) (hK : Keeps msk sb s) : Keeps msk sb (State.badLine s p) := by
  unfold State.badLine; (with_reducible repeat' (first | assumption | (refine Sub.of 16842764 ?_ hmsk; with_unfolding_all rfl) | apply State.bump_keeps | apply State.upset_keeps | (dsimp only)))

theorem State.lineOfCam_keeps {msk : Nat} {sb s : State} (k : Fin 8) (crcOk : Bool) (pix : List (BitVec 14)) (hmsk : Sub 16860172 msk) (hK : Keeps msk sb s) : Keeps msk sb (State.lineOfCam s k crcOk pix) := by
  unfold State.lineOfCam; (with_reducible repeat' (first | assumption | (refine Sub.of 16860172 ?_ hmsk; with_unfolding_all rfl) | apply State.when_keeps | apply State.badLine_keeps | apply State.onGrp_keeps | apply State.lineIn_keeps | intro _ | split | (dsimp only)))

theorem State.linePacketIn_keeps {msk : Nat} {sb s : State} (p vc : Fin 4) (dt : Fin 64) (hdrOk crcOk : Bool) (pix : List (BitVec 14)) (hmsk : Sub 16860172 msk) (hK : Keeps msk sb s) : Keeps msk sb (State.linePacketIn s p vc dt hdrOk crcOk pix) := by
  unfold State.linePacketIn; (with_reducible repeat' (first | assumption | (refine Sub.of 16860172 ?_ hmsk; with_unfolding_all rfl) | apply State.badHeader_keeps | apply State.when_keeps | apply State.badLine_keeps | apply State.bump_keeps | apply State.lineOfCam_keeps | intro _ | split | (dsimp only)))

theorem State.frameTimeout_keeps {msk : Nat} {sb s : State} (k : Fin 8) (hmsk : Sub 16860172 msk) (hK : Keeps msk sb s) : Keeps msk sb (State.frameTimeout s k) := by
  unfold State.frameTimeout; (with_reducible repeat' (first | assumption | (refine Sub.of 16860172 ?_ hmsk; with_unfolding_all rfl) | apply State.frameClose_keeps | split | (dsimp only)))

theorem State.triggerTimeout_keeps {msk : Nat} {sb s : State} (k : Fin 8) (hmsk : Sub 16860172 msk) (hK : Keeps msk sb s) : Keeps msk sb (State.triggerTimeout s k) := by
  unfold State.triggerTimeout; (with_reducible repeat' (first | assumption | (refine Sub.of 16860172 ?_ hmsk; with_unfolding_all rfl) | apply State.onCam_keeps | apply State.missing_keeps | intro _ | split | (dsimp only)))

theorem State.groupStart_keeps {msk : Nat} {sb s : State} (i : Fin 2) (hmsk : Sub 1036 msk) (hK : Keeps msk sb s) : Keeps msk sb (State.groupStart s i) := by
  unfold State.groupStart; (with_reducible repeat' (first | assumption | (refine Sub.of 1036 ?_ hmsk; with_unfolding_all rfl) | apply State.onGrp_keeps | apply State.peak_keeps | apply State.visTake_keeps | intro _ | split | (dsimp only)))

theorem execPipelineGroupStart_keeps {msk : Nat} {sb s : State} (i : Fin 2) (hmsk : Sub 1036 msk) (hK : Keeps msk sb s) : ∀ t, execPipelineGroupStart i s = .next t → Keeps msk sb t := by
  intro t e; unfold execPipelineGroupStart at e
  repeat' (first | (cases e; done) | (injection e with e; subst e) | split at e)
  all_goals (with_reducible repeat' (first | assumption | (refine Sub.of 1036 ?_ hmsk; with_unfolding_all rfl) | apply State.live_keeps | apply State.groupStart_keeps | intro _ | (dsimp only)))

theorem State.visReset_keeps {msk : Nat} {sb s : State} (hmsk : Sub 17420 msk) (hK : Keeps msk sb s) : Keeps msk sb (State.visReset s) := by
  unfold State.visReset; (with_reducible repeat' (first | assumption | (refine Sub.of 17420 ?_ hmsk; with_unfolding_all rfl) | apply State.frameOnly_keeps | apply State.onVis_keeps | apply Keeps.foldl | apply Keeps.foldlFst | intro _ | split | (dsimp only)))

end Sys2Proof.Machine
end

