-- ==== Sys2Proof/Laws/KeepsMeasure.lean ====
section
/-! SUPPORT. What each operation of Machine/Measure.lean keeps: the queue, and the canonical form of the register maps. -/
set_option Elab.async false
namespace Sys2Proof.Machine

theorem State.countFlags_keeps {msk : Nat} {sb s : State} (k : Fin 8) (fl : GrpFlags) (hmsk : Sub 4 msk) (hK : Keeps msk sb s) : Keeps msk sb (State.countFlags s k fl) := by
  unfold State.countFlags; (with_reducible repeat' (first | assumption | (refine Sub.of 4 ?_ hmsk; with_unfolding_all rfl) | apply State.bump_keeps | split | (dsimp only)))

end Sys2Proof.Machine
end

