-- ==== Sys2Proof/Laws/KeepsChl.lean ====
section
/-! SUPPORT. What each operation of Machine/Chl.lean keeps: the queue, and the canonical form of the register maps. -/
set_option Elab.async false
namespace Sys2Proof.Machine

theorem ofDite {c : Prop} [Decidable c] {a : c → Option State} {t : State} (e : (if h : c then a h else none) = some t) :
    ∃ h, a h = some t := by
  by_cases h : c
  · rw [dif_pos h] at e; exact ⟨h, e⟩
  · rw [dif_neg h] at e; cases e

theorem State.aceFail_keeps {msk : Nat} {sb s : State} (rep : Nat) (hmsk : Sub 1369023 msk) (hK : Keeps msk sb s) : Keeps msk sb (State.aceFail s rep) := by
  unfold State.aceFail; (with_reducible repeat' (first | assumption | (refine Sub.of 1369023 ?_ hmsk; with_unfolding_all rfl) | apply State.event_keeps | apply State.bump_keeps | apply State.setF_keeps | apply State.when_keeps | apply State.onPad_keeps | apply State.onBar_keeps | apply State.stopReq_keeps | intro _ | split | (dsimp only)))

theorem State.aceAct_keeps {msk : Nat} {sb s : State} (rep v : Nat) (hmsk : Sub 1369023 msk) (hK : Keeps msk sb s) : Keeps msk sb (State.aceAct s rep v) := by
  unfold State.aceAct; (with_reducible repeat' (first | assumption | (refine Sub.of 1369023 ?_ hmsk; with_unfolding_all rfl) | apply State.onBar_keeps | apply State.aceFail_keeps | apply State.event_keeps | intro _ | split | (dsimp only)))

theorem State.aceVerdict_keeps {msk : Nat} {sb s : State} (h : BitVec 16) (rep v : Nat) (hmsk : Sub 1369023 msk) (hK : Keeps msk sb s) : Keeps msk sb (State.aceVerdict s h rep v) := by
  unfold State.aceVerdict; (with_reducible repeat' (first | assumption | (refine Sub.of 1369023 ?_ hmsk; with_unfolding_all rfl) | apply State.stale_keeps | apply State.aceAct_keeps | split | (dsimp only)))

theorem execAceVerdict_keeps {msk : Nat} {sb s : State} (h : BitVec 16) (rep : Word) (v : Fin 3) (hmsk : Sub 1369023 msk) (hK : Keeps msk sb s) : ∀ t, execAceVerdict h rep v s = .next t → Keeps msk sb t := by
  intro t e; unfold execAceVerdict at e
  repeat' (first | (cases e; done) | (injection e with e; subst e) | split at e)
  all_goals (with_reducible repeat' (first | assumption | (refine Sub.of 1369023 ?_ hmsk; with_unfolding_all rfl) | apply State.live_keeps | apply State.asShadow_keeps | apply State.aceVerdict_keeps | intro _ | (dsimp only)))

theorem execAceRejectPulseEnd_keeps {msk : Nat} {sb s : State} (hmsk : Sub 262144 msk) (hK : Keeps msk sb s) : ∀ t, execAceRejectPulseEnd s = .next t → Keeps msk sb t := by
  intro t e; unfold execAceRejectPulseEnd at e
  repeat' (first | (cases e; done) | (injection e with e; subst e) | split at e)
  all_goals (with_reducible repeat' (first | assumption | (refine Sub.of 262144 ?_ hmsk; with_unfolding_all rfl) | apply State.live_keeps | apply State.onPad_keeps | intro _ | (dsimp only)))

theorem State.settleBar_keeps {msk : Nat} {sb s : State} (b : Fin 8) (hmsk : Sub 2048 msk) (hK : Keeps msk sb s) : Keeps msk sb (State.settleBar s b) := by
  unfold State.settleBar; (with_reducible repeat' (first | assumption | (refine Sub.of 2048 ?_ hmsk; with_unfolding_all rfl) | apply State.onChl_keeps | intro _ | split | (dsimp only)))

theorem State.settleAll_keeps {msk : Nat} {sb s : State} (hmsk : Sub 2048 msk) (hK : Keeps msk sb s) : Keeps msk sb (State.settleAll s) := by
  unfold State.settleAll; (with_reducible repeat' (first | assumption | (refine Sub.of 2048 ?_ hmsk; with_unfolding_all rfl) | apply State.settleBar_keeps | apply Keeps.foldl | apply Keeps.foldlFst | intro _ | (dsimp only)))

theorem State.settleReg_keeps {msk : Nat} {sb s : State} (hmsk : Sub 2048 msk) (hK : Keeps msk sb s) : Keeps msk sb (State.settleReg s) := by
  unfold State.settleReg; (with_reducible repeat' (first | assumption | (refine Sub.of 2048 ?_ hmsk; with_unfolding_all rfl) | apply State.onChl_keeps | apply Keeps.foldl | apply Keeps.foldlFst | intro _ | split | (dsimp only)))

theorem State.trimsOn_keeps {msk : Nat} {sb s : State} (hmsk : Sub 16516 msk) (hK : Keeps msk sb s) : Keeps msk sb (State.trimsOn s) := by
  unfold State.trimsOn; (with_reducible repeat' (first | assumption | (refine Sub.of 16516 ?_ hmsk; with_unfolding_all rfl) | (refine fun (hb : msk.testBit 22 = false) => ?_; intro _; first | rfl | (dsimp only; split <;> rfl)) | apply State.onLtm_keeps | apply State.forward_keeps | apply Keeps.foldl | apply Keeps.foldlFst | intro _ | split | (dsimp only)))

theorem State.clearFed_keeps {msk : Nat} {sb s : State} (k : Fin 8) (hmsk : Sub 2048 msk) (hK : Keeps msk sb s) : Keeps msk sb (State.clearFed s k) := by
  unfold State.clearFed; (with_reducible repeat' (first | assumption | (refine Sub.of 2048 ?_ hmsk; with_unfolding_all rfl) | apply State.onChl_keeps | intro _ | split | (dsimp only)))

theorem State.goBlind_keeps {msk : Nat} {sb s : State} (k : Fin 8) (hmsk : Sub 2060 msk) (hK : Keeps msk sb s) : Keeps msk sb (State.goBlind s k) := by
  unfold State.goBlind; (with_reducible repeat' (first | assumption | (refine Sub.of 2060 ?_ hmsk; with_unfolding_all rfl) | apply State.onChl_keeps | apply State.event_keeps | apply State.clearFed_keeps | intro _ | split | (dsimp only)))

theorem State.seesAgain_keeps {msk : Nat} {sb s : State} (k : Fin 8) (hmsk : Sub 2060 msk) (hK : Keeps msk sb s) : Keeps msk sb (State.seesAgain s k) := by
  unfold State.seesAgain; (with_reducible repeat' (first | assumption | (refine Sub.of 2060 ?_ hmsk; with_unfolding_all rfl) | apply State.onChl_keeps | apply State.event_keeps | intro _ | split | (dsimp only)))

theorem execBlindTimeout_keeps {msk : Nat} {sb s : State} (k : Fin 8) (hmsk : Sub 2060 msk) (hK : Keeps msk sb s) : ∀ t, execBlindTimeout k s = .next t → Keeps msk sb t := by
  intro t e; unfold execBlindTimeout at e
  repeat' (first | (cases e; done) | (injection e with e; subst e) | split at e)
  all_goals (with_reducible repeat' (first | assumption | (refine Sub.of 2060 ?_ hmsk; with_unfolding_all rfl) | apply State.live_keeps | apply State.when_keeps | apply State.goBlind_keeps | intro _ | (dsimp only)))

theorem State.colAct_keeps {msk : Nat} {sb s : State} (b : Fin 8) (c : Nat) (e : Int) (hmsk : Sub 18468 msk) (hK : Keeps msk sb s) : Keeps msk sb (State.colAct s b c e) := by
  unfold State.colAct; (with_reducible repeat' (first | assumption | (refine Sub.of 18468 ?_ hmsk; with_unfolding_all rfl) | apply State.bump_keeps | apply State.onBar_keeps | apply State.forward_keeps | apply State.onChl_keeps | intro _ | split | (dsimp only)))

theorem State.colSample_keeps {msk : Nat} {sb s : State} (b : Fin 8) (c : Nat) (x : Int) (hmsk : Sub 18468 msk) (hK : Keeps msk sb s) : Keeps msk sb (State.colSample s b c x) := by
  unfold State.colSample; (with_reducible repeat' (first | assumption | (refine Sub.of 18468 ?_ hmsk; with_unfolding_all rfl) | apply State.onChl_keeps | apply State.colAct_keeps | intro _ | split | (dsimp only)))

theorem State.nozzleOut_keeps {msk : Nat} {sb s : State} (b : Fin 8) (c : Nat) (hmsk : Sub 16428 msk) (hK : Keeps msk sb s) : Keeps msk sb (State.nozzleOut s b c) := by
  unfold State.nozzleOut; (with_reducible repeat' (first | assumption | (refine Sub.of 16428 ?_ hmsk; with_unfolding_all rfl) | apply State.setF_keeps | apply State.raise_keeps | apply State.onBar_keeps | apply State.forward_keeps | intro _ | split | (dsimp only)))

theorem State.runSample_keeps {msk : Nat} {sb s : State} (b : Fin 8) (c : Nat) (suspect : Bool) (hmsk : Sub 18476 msk) (hK : Keeps msk sb s) : Keeps msk sb (State.runSample s b c suspect) := by
  unfold State.runSample; (with_reducible repeat' (first | assumption | (refine Sub.of 18476 ?_ hmsk; with_unfolding_all rfl) | apply State.onChl_keeps | apply State.nozzleOut_keeps | intro _ | split | (dsimp only)))

theorem State.stripGroup_keeps {msk : Nat} {sb s : State} (k : Fin 8) (l : List StatRec) (use : Bool) (det : StatRec → Bool) (m : Nat) (hmsk : Sub 18476 msk) (hK : Keeps msk sb s) : Keeps msk sb (State.stripGroup s k l use det m) := by
  unfold State.stripGroup; (with_reducible repeat' (first | assumption | (refine Sub.of 18476 ?_ hmsk; with_unfolding_all rfl) | apply State.runSample_keeps | apply State.colSample_keeps | apply State.setF_keeps | apply Keeps.foldl | apply Keeps.foldlFst | intro _ | split | (dsimp only)))

theorem State.toneAct_keeps {msk : Nat} {sb s : State} (b : Fin 8) (i : Fin 17) (e : Int) (hmsk : Sub 18468 msk) (hK : Keeps msk sb s) : Keeps msk sb (State.toneAct s b i e) := by
  unfold State.toneAct; (with_reducible repeat' (first | assumption | (refine Sub.of 18468 ?_ hmsk; with_unfolding_all rfl) | apply State.bump_keeps | apply State.onBar_keeps | apply State.setF_keeps | apply State.knotsFree_keeps | apply State.forward_keeps | apply State.onChl_keeps | intro _ | split | (dsimp only)))

theorem State.toneSample_keeps {msk : Nat} {sb s : State} (b : Fin 8) (i : Fin 17) (x : Int) (c : Nat) (hmsk : Sub 18468 msk) (hK : Keeps msk sb s) : Keeps msk sb (State.toneSample s b i x c) := by
  unfold State.toneSample; (with_reducible repeat' (first | assumption | (refine Sub.of 18468 ?_ hmsk; with_unfolding_all rfl) | apply State.onChl_keeps | apply State.toneAct_keeps | intro _ | split | (dsimp only)))

theorem State.toneGroup_keeps {msk : Nat} {sb s : State} (k : Fin 8) (l : List StatRec) (b : Fin 8) (i : Fin 17) (hmsk : Sub 18468 msk) (hK : Keeps msk sb s) : Keeps msk sb (State.toneGroup s k l b i) := by
  unfold State.toneGroup; (with_reducible repeat' (first | assumption | (refine Sub.of 18468 ?_ hmsk; with_unfolding_all rfl) | apply State.toneSample_keeps | apply Keeps.foldl | apply Keeps.foldlFst | intro _ | split | (dsimp only)))

theorem State.regAct_keeps {msk : Nat} {sb s : State} (b : Fin 8) (e : Int) (hmsk : Sub 2052 msk) (hK : Keeps msk sb s) : Keeps msk sb (State.regAct s b e) := by
  unfold State.regAct; (with_reducible repeat' (first | assumption | (refine Sub.of 2052 ?_ hmsk; with_unfolding_all rfl) | apply State.bump_keeps | apply State.setF_keeps | apply State.onChl_keeps | intro _ | split | (dsimp only)))

theorem State.regSample_keeps {msk : Nat} {sb s : State} (b : Fin 8) (x : Int) (c : Nat) (hmsk : Sub 2052 msk) (hK : Keeps msk sb s) : Keeps msk sb (State.regSample s b x c) := by
  unfold State.regSample; (with_reducible repeat' (first | assumption | (refine Sub.of 2052 ?_ hmsk; with_unfolding_all rfl) | apply State.onChl_keeps | apply State.setF_keeps | apply State.regAct_keeps | intro _ | split | (dsimp only)))

theorem State.regGroup_keeps {msk : Nat} {sb s : State} (k : Fin 8) (l : List StatRec) (b : Fin 8) (hmsk : Sub 2052 msk) (hK : Keeps msk sb s) : Keeps msk sb (State.regGroup s k l b) := by
  unfold State.regGroup; (with_reducible repeat' (first | assumption | (refine Sub.of 2052 ?_ hmsk; with_unfolding_all rfl) | apply State.regSample_keeps | apply Keeps.foldl | apply Keeps.foldlFst | intro _ | split | (dsimp only)))

theorem State.whiteMove_keeps {msk : Nat} {sb s : State} (k : Fin 8) (hmsk : Sub 3072 msk) (hK : Keeps msk sb s) : Keeps msk sb (State.whiteMove s k) := by
  unfold State.whiteMove; (with_reducible repeat' (first | assumption | (refine Sub.of 3072 ?_ hmsk; with_unfolding_all rfl) | apply State.onCam_keeps | apply State.onChl_keeps | apply Keeps.foldl | apply Keeps.foldlFst | intro _ | split | (dsimp only)))

theorem State.holdGroup_keeps {msk : Nat} {sb s : State} (k : Fin 8) (l : List StatRec) (hmsk : Sub 18476 msk) (hK : Keeps msk sb s) : Keeps msk sb (State.holdGroup s k l) := by
  unfold State.holdGroup; (with_reducible repeat' (first | assumption | (refine Sub.of 18476 ?_ hmsk; with_unfolding_all rfl) | apply State.seesAgain_keeps | apply State.bump_keeps | apply State.stripGroup_keeps | apply State.toneGroup_keeps | apply State.regGroup_keeps | apply Keeps.foldl | apply Keeps.foldlFst | intro _ | split | (dsimp only)))

theorem State.readStat_keeps {m : Nat} {sb s : State} (r : StatRec) (hm : Sub 1372095 m) (hK : Keeps m sb s) :
    Keeps m sb (State.readStat s r) := by
  unfold State.readStat
  extract_lets k stale s1 l s2
  have h1 : Keeps m sb s1 := by
    dsimp only [s1]
    repeat' (first | with_reducible assumption | exact Sub.of 1372095 rfl hm | apply State.stale_keeps | apply State.aceAct_keeps | split)
  clear_value s1 l stale
  split
  · refine State.when_keeps _ _ (fun x hx => State.whiteMove_keeps _ (Sub.of 1372095 rfl hm) hx) (Sub.of 1372095 rfl hm) ?_
    have h2 : Keeps m sb s2 := State.onChl_keeps _ (Sub.of 1372095 rfl hm) h1
    clear_value s2
    split
    · exact State.holdGroup_keeps _ _ (Sub.of 1372095 rfl hm) h2
    · exact State.bump_keeps _ (Sub.of 1372095 rfl hm) h2
  · exact State.onChl_keeps _ (Sub.of 1372095 rfl hm) h1

theorem State.statsRead_keeps {msk : Nat} {sb s : State} (p : Fin 4) (hmsk : Sub 1372095 msk) (hK : Keeps msk sb s) : Keeps msk sb (State.statsRead s p) := by
  unfold State.statsRead; (with_reducible repeat' (first | assumption | (refine Sub.of 1372095 ?_ hmsk; with_unfolding_all rfl) | apply State.settle_keeps | apply State.qFree_keeps | apply State.readStat_keeps | apply State.visPump_keeps | split | (dsimp only)))

theorem execStatsRecord_keeps {msk : Nat} {sb s : State} (p : Fin 4) (hmsk : Sub 1372095 msk) (hK : Keeps msk sb s) : ∀ t, execStatsRecord p s = .next t → Keeps msk sb t := by
  intro t e; unfold execStatsRecord at e
  repeat' (first | (cases e; done) | (injection e with e; subst e) | split at e)
  all_goals (with_reducible repeat' (first | assumption | (refine Sub.of 1372095 ?_ hmsk; with_unfolding_all rfl) | apply State.live_keeps | apply State.statsRead_keeps | intro _ | (dsimp only)))

theorem State.makeDue_keeps {msk : Nat} {sb s : State} (l : List (Nat × Nat)) (hmsk : Sub 2048 msk) (hK : Keeps msk sb s) : Keeps msk sb (State.makeDue s l) := by
  unfold State.makeDue; (with_reducible repeat' (first | assumption | (refine Sub.of 2048 ?_ hmsk; with_unfolding_all rfl) | apply State.onChl_keeps | apply Keeps.foldl | apply Keeps.foldlFst | intro _ | (dsimp only)))

theorem State.calTempCheck_keeps {msk : Nat} {sb s : State} (hmsk : Sub 2048 msk) (hK : Keeps msk sb s) : Keeps msk sb (State.calTempCheck s) := by
  unfold State.calTempCheck; (with_reducible repeat' (first | assumption | (refine Sub.of 2048 ?_ hmsk; with_unfolding_all rfl) | apply State.makeDue_keeps | intro _ | split | (dsimp only)))

theorem execCalTempCheck_keeps {msk : Nat} {sb s : State} (hmsk : Sub 2048 msk) (hK : Keeps msk sb s) : ∀ t, execCalTempCheck s = .next t → Keeps msk sb t := by
  intro t e; unfold execCalTempCheck at e
  repeat' (first | (cases e; done) | (injection e with e; subst e) | split at e)
  all_goals (with_reducible repeat' (first | assumption | (refine Sub.of 2048 ?_ hmsk; with_unfolding_all rfl) | apply State.live_keeps | apply State.calTempCheck_keeps | intro _ | (dsimp only)))

theorem State.calCmd_keeps {msk : Nat} {sb s : State} (ses : Fin 5) (items : BitVec 4) (hmsk : Sub 2051 msk) (hK : Keeps msk sb s) : Keeps msk sb (State.calCmd s ses items) := by
  unfold State.calCmd; (with_reducible repeat' (first | assumption | (refine Sub.of 2051 ?_ hmsk; with_unfolding_all rfl) | apply State.sesCmd_keeps | apply State.makeDue_keeps | intro _ | (dsimp only) | (rename_i e; replace e := Option.map_eq_some_iff.mp e; obtain ⟨_, e, rfl⟩ := e) | (rename_i e; cases e; done) | (rename_i e; injection e with e; subst e) | (rename_i e; dsimp only at e) | (rename_i e; split at e)))

theorem execChlCalCmd_keeps {msk : Nat} {sb s : State} (ses : Fin 5) (items : BitVec 4) (hmsk : Sub 2051 msk) (hK : Keeps msk sb s) : ∀ t, execChlCalCmd ses items s = .next t → Keeps msk sb t := by
  intro t e; unfold execChlCalCmd at e
  repeat' (first | (cases e; done) | (injection e with e; subst e) | split at e)
  all_goals (with_reducible repeat' (first | assumption | (refine Sub.of 2051 ?_ hmsk; with_unfolding_all rfl) | apply State.calCmd_keeps | (dsimp only)))

theorem State.calStart_keeps {msk : Nat} {sb s : State} (hmsk : Sub 2112 msk) (hK : Keeps msk sb s) : Keeps msk sb (State.calStart s) := by
  unfold State.calStart; (with_reducible repeat' (first | assumption | (refine Sub.of 2112 ?_ hmsk; with_unfolding_all rfl) | apply State.onChl_keeps | apply State.onCh_keeps | intro _ | split | (dsimp only)))

theorem execCalRunStart_keeps {msk : Nat} {sb s : State} (hmsk : Sub 2112 msk) (hK : Keeps msk sb s) : ∀ t, execCalRunStart s = .next t → Keeps msk sb t := by
  intro t e; unfold execCalRunStart at e
  repeat' (first | (cases e; done) | (injection e with e; subst e) | split at e)
  all_goals (with_reducible repeat' (first | assumption | (refine Sub.of 2112 ?_ hmsk; with_unfolding_all rfl) | apply State.live_keeps | apply State.calStart_keeps | intro _ | (dsimp only)))

theorem State.calOver_keeps {msk : Nat} {sb s : State} (u : Nat × Nat) (hmsk : Sub 2060 msk) (hK : Keeps msk sb s) : Keeps msk sb (State.calOver s u) := by
  unfold State.calOver; (with_reducible repeat' (first | assumption | (refine Sub.of 2060 ?_ hmsk; with_unfolding_all rfl) | apply State.onChl_keeps | apply State.bump_keeps | apply State.setF_keeps | apply State.event_keeps | intro _ | (dsimp only)))

theorem State.calTake_keeps {m : Nat} {sb s : State} (u : Nat × Nat) (x : CalFound) (hm : Sub 547140 m) (hK : Keeps m sb s) :
    ∀ t, State.calTake s u x = some t → Keeps m sb t := by
  obtain ⟨n, j⟩ := u
  intro t e
  match n, x, e with
  | 0, .lane p w k, e =>
    obtain rfl := Option.some.inj e; exact State.onLnk_keeps _ (Sub.of 547140 rfl hm) hK
  | 1, .own, e =>
    obtain ⟨h, e⟩ := ofDite e
    have hk := State.encCalDone_keeps ⟨j, h⟩ (Sub.of 547140 rfl hm) hK
    generalize s.encCalDone ⟨j, h⟩ = u at e hk
    dsimp only at e
    generalize u.enc.ch[(⟨j, h⟩ : Fin 4)].cal = c at e
    cases c <;> first | (obtain rfl := Option.some.inj e; exact hk) | cases e
  | 2, .own, e =>
    obtain ⟨h, e⟩ := ofDite e
    dsimp only at e
    by_cases hl : s.chl.whites[(⟨j, h⟩ : Fin 8)].length < 4
    · rw [if_pos hl] at e; cases e
    · rw [if_neg hl] at e
      obtain rfl := Option.some.inj e
      exact State.forward_keeps _ (Sub.of 547140 rfl hm) (State.onChl_keeps _ (Sub.of 547140 rfl hm) hK)
  | 3, .light g, e =>
    obtain ⟨h, e⟩ := ofDite e
    obtain rfl := Option.some.inj e; exact State.gainFound_keeps _ _ (Sub.of 547140 rfl hm) hK

theorem State.calComplete_keeps {msk : Nat} {sb s : State} (item : Nat) (x : CalFound) (hmsk : Sub 547148 msk) (hK : Keeps msk sb s) : Keeps msk sb (State.calComplete s item x) := by
  unfold State.calComplete; (with_reducible repeat' (first | assumption | (refine Sub.of 547148 ?_ hmsk; with_unfolding_all rfl) | (refine State.calTake_keeps _ _ (Sub.of 547148 (by with_unfolding_all rfl) hmsk) ?_ _ (by assumption)) | apply State.calOver_keeps | intro _ | split | (dsimp only) | (rename_i e; replace e := Option.map_eq_some_iff.mp e; obtain ⟨_, e, rfl⟩ := e) | (rename_i e; cases e; done) | (rename_i e; injection e with e; subst e) | (rename_i e; dsimp only at e) | (rename_i e; split at e)))

theorem execCalRunComplete_keeps {msk : Nat} {sb s : State} (item : Fin 4) (x : CalFound) (hmsk : Sub 547148 msk) (hK : Keeps msk sb s) : ∀ t, execCalRunComplete item x s = .next t → Keeps msk sb t := by
  intro t e; unfold execCalRunComplete at e
  repeat' (first | (cases e; done) | (injection e with e; subst e) | split at e)
  all_goals (with_reducible repeat' (first | assumption | (refine Sub.of 547148 ?_ hmsk; with_unfolding_all rfl) | apply State.live_keeps | apply State.calComplete_keeps | intro _ | (dsimp only)))

theorem State.calAbandon_keeps {msk : Nat} {sb s : State} (p : Nat × Nat → Bool) (hmsk : Sub 2048 msk) (hK : Keeps msk sb s) : Keeps msk sb (State.calAbandon s p) := by
  unfold State.calAbandon; (with_reducible repeat' (first | assumption | (refine Sub.of 2048 ?_ hmsk; with_unfolding_all rfl) | apply State.onChl_keeps | intro _ | (dsimp only)))

theorem State.whiteTake_keeps {msk : Nat} {sb s : State} (k : Fin 8) (g : Grp) (v : View) (hmsk : Sub 2048 msk) (hK : Keeps msk sb s) : Keeps msk sb (State.whiteTake s k g v) := by
  unfold State.whiteTake; (with_reducible repeat' (first | assumption | (refine Sub.of 2048 ?_ hmsk; with_unfolding_all rfl) | apply State.onChl_keeps | intro _ | split | (dsimp only)))

theorem State.knotCleared_keeps {msk : Nat} {sb s : State} (b : Fin 8) (k : Nat) (hmsk : Sub 2048 msk) (hK : Keeps msk sb s) : Keeps msk sb (State.knotCleared s b k) := by
  unfold State.knotCleared; (with_reducible repeat' (first | assumption | (refine Sub.of 2048 ?_ hmsk; with_unfolding_all rfl) | apply State.onChl_keeps | intro _ | (dsimp only)))

theorem State.chlReset_keeps {msk : Nat} {sb s : State} (hmsk : Sub 2048 msk) (hK : Keeps msk sb s) : Keeps msk sb (State.chlReset s) := by
  unfold State.chlReset; (with_reducible repeat' (first | assumption | (refine Sub.of 2048 ?_ hmsk; with_unfolding_all rfl) | apply State.onChl_keeps | intro _ | (dsimp only)))

end Sys2Proof.Machine
end

