-- ==== Sys2Proof/Laws/KeepsJobs.lean ====
section
/-! SUPPORT. What each operation of Machine/Jobs.lean keeps: the queue, and the canonical form of the register maps. -/
set_option Elab.async false
namespace Sys2Proof.Machine

theorem State.finishWith_keeps {msk : Nat} {sb s : State} (r : Fin 8) (d : Desc) (j : Job) (kind status detail : Nat) (hmsk : Sub 28 msk) (hK : Keeps msk sb s) : Keeps msk sb (State.finishWith s r d j kind status detail) := by
  unfold State.finishWith; (with_reducible repeat' (first | assumption | (refine Sub.of 28 ?_ hmsk; with_unfolding_all rfl) | apply State.fetched_keeps | apply State.drain_keeps | apply State.finish_keeps | apply State.jobEntry_keeps | split | (dsimp only)))

theorem State.settleClose_keeps {msk : Nat} {sb s : State} (j : Job) (status : Nat) (hmsk : Sub 16412 msk) (hK : Keeps msk sb s) : Keeps msk sb (State.settleClose s j status) := by
  unfold State.settleClose; (with_reducible repeat' (first | assumption | (refine Sub.of 16412 ?_ hmsk; with_unfolding_all rfl) | apply State.modJob_keeps | apply State.event_keeps | apply State.forward_keeps | apply State.trailerOf_keeps | intro _ | split | (dsimp only)))

theorem State.closeJob_keeps {msk : Nat} {sb s : State} (r : Fin 8) (d : Desc) (p : List Byte) (hmsk : Sub 16412 msk) (hK : Keeps msk sb s) : Keeps msk sb (State.closeJob s r d p) := by
  unfold State.closeJob; (with_reducible repeat' (first | assumption | (refine Sub.of 16412 ?_ hmsk; with_unfolding_all rfl) | apply State.finish_keeps | apply State.stale_keeps | apply State.modJob_keeps | apply State.forward_keeps | apply State.finishWith_keeps | apply State.settleClose_keeps | intro _ | split | (dsimp only)))

theorem execClose_keeps {msk : Nat} {sb s : State} (r : Fin 8) (d : Desc) (p : List Byte) (hmsk : Sub 540700 msk) (hK : Keeps msk sb s) : ∀ t, execClose r d p s = .next t → Keeps msk sb t := by
  intro t e; unfold execClose at e
  repeat' (first | (cases e; done) | (injection e with e; subst e) | split at e)
  all_goals (with_reducible repeat' (first | assumption | (refine Sub.of 540700 ?_ hmsk; with_unfolding_all rfl) | apply State.fetchDesc_keeps | apply State.closeJob_keeps | intro _ | (dsimp only)))

theorem State.abortJob_keeps {msk : Nat} {sb s : State} (j : Job) (hmsk : Sub 1106879 msk) (hK : Keeps msk sb s) : Keeps msk sb (State.abortJob s j) := by
  unfold State.abortJob; (with_reducible repeat' (first | assumption | (refine Sub.of 1106879 ?_ hmsk; with_unfolding_all rfl) | apply State.trailerOf_keeps | apply State.ctxDrop_keeps | apply State.modJob_keeps | apply State.orderlyStop_keeps | apply State.dropJobs_keeps | apply State.toIdle_keeps | intro _ | split | (dsimp only)))

theorem State.abortDesc_keeps {msk : Nat} {sb s : State} (r : Fin 8) (d : Desc) (hmsk : Sub 1106879 msk) (hK : Keeps msk sb s) : Keeps msk sb (State.abortDesc s r d) := by
  unfold State.abortDesc; (with_reducible repeat' (first | assumption | (refine Sub.of 1106879 ?_ hmsk; with_unfolding_all rfl) | apply State.finish_keeps | apply State.stale_keeps | apply State.abortJob_keeps | apply State.forward_keeps | split | (dsimp only)))

theorem execAbort_keeps {msk : Nat} {sb s : State} (r : Fin 8) (d : Desc) (hmsk : Sub 1106879 msk) (hK : Keeps msk sb s) : ∀ t, execAbort r d s = .next t → Keeps msk sb t := by
  intro t e; unfold execAbort at e
  repeat' (first | (cases e; done) | (injection e with e; subst e) | split at e)
  all_goals (with_reducible repeat' (first | assumption | (refine Sub.of 1106879 ?_ hmsk; with_unfolding_all rfl) | apply State.live_keeps | apply State.when_keeps | apply State.abortDesc_keeps | intro _ | (dsimp only)))

theorem State.leaveJob_keeps {msk : Nat} {sb s : State} (tag status : Nat) (hmsk : Sub 16703 msk) (hK : Keeps msk sb s) : Keeps msk sb (State.leaveJob s tag status) := by
  unfold State.leaveJob; (with_reducible repeat' (first | assumption | (refine Sub.of 16703 ?_ hmsk; with_unfolding_all rfl) | apply State.retireJob_keeps | apply State.dropJobs_keeps | apply State.forward_keeps | apply State.useRecords_keeps | apply State.calAuto_keeps | intro _ | split | (dsimp only)))

theorem State.endingDone_keeps {msk : Nat} {sb s : State} (tag : Nat) (hmsk : Sub 540991 msk) (hK : Keeps msk sb s) : Keeps msk sb (State.endingDone s tag) := by
  unfold State.endingDone; (with_reducible repeat' (first | assumption | (refine Sub.of 540991 ?_ hmsk; with_unfolding_all rfl) | apply State.endBlocks_keeps | apply State.writeTrailer_keeps | apply State.leaveJob_keeps | intro _ | split | (dsimp only)))

theorem execJobEndingComplete_keeps {msk : Nat} {sb s : State} (tag : Nat) (hmsk : Sub 540991 msk) (hK : Keeps msk sb s) : ∀ t, execJobEndingComplete tag s = .next t → Keeps msk sb t := by
  intro t e; unfold execJobEndingComplete at e
  repeat' (first | (cases e; done) | (injection e with e; subst e) | split at e)
  all_goals (with_reducible repeat' (first | assumption | (refine Sub.of 540991 ?_ hmsk; with_unfolding_all rfl) | apply State.live_keeps | apply State.when_keeps | apply State.endingDone_keeps | intro _ | (dsimp only)))

theorem State.jobDrained_keeps {msk : Nat} {sb s : State} (tag : Nat) (hmsk : Sub 16703 msk) (hK : Keeps msk sb s) : Keeps msk sb (State.jobDrained s tag) := by
  unfold State.jobDrained; (with_reducible repeat' (first | assumption | (refine Sub.of 16703 ?_ hmsk; with_unfolding_all rfl) | apply State.leaveJob_keeps | split | (dsimp only)))

theorem execJobDrained_keeps {msk : Nat} {sb s : State} (tag : Nat) (hmsk : Sub 16703 msk) (hK : Keeps msk sb s) : ∀ t, execJobDrained tag s = .next t → Keeps msk sb t := by
  intro t e; unfold execJobDrained at e
  repeat' (first | (cases e; done) | (injection e with e; subst e) | split at e)
  all_goals (with_reducible repeat' (first | assumption | (refine Sub.of 16703 ?_ hmsk; with_unfolding_all rfl) | apply State.live_keeps | apply State.when_keeps | apply State.jobDrained_keeps | intro _ | (dsimp only)))

theorem State.exhausted_keeps {msk : Nat} {sb s : State} (tag : Nat) (hmsk : Sub 24893 msk) (hK : Keeps msk sb s) : Keeps msk sb (State.exhausted s tag) := by
  unfold State.exhausted; (with_reducible repeat' (first | assumption | (refine Sub.of 24893 ?_ hmsk; with_unfolding_all rfl) | apply State.ctxDrop_keeps | apply State.writeVoid_keeps | apply State.failJob_keeps | apply State.forward_keeps | apply State.orderlyStop_keeps | apply State.dropJobs_keeps | intro _ | split | (dsimp only)))

theorem execArchiveExhausted_keeps {msk : Nat} {sb s : State} (tag : Nat) (hmsk : Sub 24893 msk) (hK : Keeps msk sb s) : ∀ t, execArchiveExhausted tag s = .next t → Keeps msk sb t := by
  intro t e; unfold execArchiveExhausted at e
  repeat' (first | (cases e; done) | (injection e with e; subst e) | split at e)
  all_goals (with_reducible repeat' (first | assumption | (refine Sub.of 24893 ?_ hmsk; with_unfolding_all rfl) | apply State.live_keeps | apply State.when_keeps | apply State.exhausted_keeps | intro _ | (dsimp only)))

end Sys2Proof.Machine
end

