-- ==== Sys2Proof/Laws/KeepsRetire.lean ====
section
/-! SUPPORT. What each operation of Machine/Retire.lean keeps: the queue, and the canonical form of the register maps. -/
set_option Elab.async false
namespace Sys2Proof.Machine

theorem State.laneStop_keeps {msk : Nat} {sb s : State} (hmsk : Sub 8205 msk) (hK : Keeps msk sb s) : Keeps msk sb (State.laneStop s) := by
  unfold State.laneStop; (with_reducible repeat' (first | assumption | (refine Sub.of 8205 ?_ hmsk; with_unfolding_all rfl) | apply State.orderlyStop_keeps | split | (dsimp only)))

theorem State.laneOutcome_keeps {msk : Nat} {sb s : State} (hmsk : Sub 1106879 msk) (hK : Keeps msk sb s) : Keeps msk sb (State.laneOutcome s) := by
  unfold State.laneOutcome; (with_reducible repeat' (first | assumption | (refine Sub.of 1106879 ?_ hmsk; with_unfolding_all rfl) | (refine fun (hb : msk.testBit 23 = false) => ?_; intro _; first | rfl | (dsimp only; split <;> rfl)) | apply State.leaveStep_keeps | apply State.onTbl_keeps | apply State.laneStop_keeps | intro _ | split | (dsimp only)))

theorem State.laneRetires_keeps {msk : Nat} {sb s : State} (n : Fin 40) (hmsk : Sub 17949631 msk) (hK : Keeps msk sb s) : Keeps msk sb (State.laneRetires s n) := by
  unfold State.laneRetires; (with_reducible repeat' (first | assumption | (refine Sub.of 17949631 ?_ hmsk; with_unfolding_all rfl) | apply State.markRetired_keeps | apply State.onLane_keeps | apply State.event_keeps | apply State.laneOutcome_keeps | intro _ | (dsimp only)))

theorem State.groupLost_keeps {msk : Nat} {sb s : State} (hmsk : Sub 1098687 msk) (hK : Keeps msk sb s) : Keeps msk sb (State.groupLost s) := by
  unfold State.groupLost; (with_reducible repeat' (first | assumption | (refine Sub.of 1098687 ?_ hmsk; with_unfolding_all rfl) | (refine fun (hb : msk.testBit 23 = false) => ?_; intro _; first | rfl | (dsimp only; split <;> rfl)) | apply State.leaveStep_keeps | apply State.onTbl_keeps | intro _ | split | (dsimp only)))

theorem State.tblRetires_keeps {msk : Nat} {sb s : State} (n : Fin 52) (hmsk : Sub 17941439 msk) (hK : Keeps msk sb s) : Keeps msk sb (State.tblRetires s n) := by
  unfold State.tblRetires; (with_reducible repeat' (first | assumption | (refine Sub.of 17941439 ?_ hmsk; with_unfolding_all rfl) | apply State.markRetired_keeps | apply State.onLane_keeps | apply State.event_keeps | apply State.groupLost_keeps | intro _ | (dsimp only)))

theorem State.memPend_keeps {msk : Nat} {sb s : State} (c : Fin 8) (hmsk : Sub 65548 msk) (hK : Keeps msk sb s) : Keeps msk sb (State.memPend s c) := by
  unfold State.memPend; (with_reducible repeat' (first | assumption | (refine Sub.of 65548 ?_ hmsk; with_unfolding_all rfl) | apply State.onBoard_keeps | apply State.event_keeps | intro _ | split | (dsimp only)))

theorem State.memNow_keeps {msk : Nat} {sb s : State} (c : Fin 8) (hmsk : Sub 66365 msk) (hK : Keeps msk sb s) : Keeps msk sb (State.memNow s c) := by
  unfold State.memNow; (with_reducible repeat' (first | assumption | (refine Sub.of 66365 ?_ hmsk; with_unfolding_all rfl) | apply State.memRetire_keeps | apply State.onBoard_keeps | intro _ | split | (dsimp only)))

theorem State.memClassed_keeps {msk : Nat} {sb s : State} (c : Fin 8) (hmsk : Sub 1164223 msk) (hK : Keeps msk sb s) : Keeps msk sb (State.memClassed s c) := by
  unfold State.memClassed; (with_reducible repeat' (first | assumption | (refine Sub.of 1164223 ?_ hmsk; with_unfolding_all rfl) | (refine fun (hb : msk.testBit 23 = false) => ?_; intro _; first | rfl | (dsimp only; split <;> rfl)) | apply State.leaveStep_keeps | apply State.memNow_keeps | apply State.onBoard_keeps | apply State.onTbl_keeps | apply State.memPend_keeps | intro _ | split | (dsimp only)))

theorem State.portRetires_keeps {msk : Nat} {sb s : State} (p : Fin 4) (hmsk : Sub 16862220 msk) (hK : Keeps msk sb s) : Keeps msk sb (State.portRetires s p) := by
  unfold State.portRetires; (with_reducible repeat' (first | assumption | (refine Sub.of 16862220 ?_ hmsk; with_unfolding_all rfl) | apply State.markRetired_keeps | apply State.event_keeps | apply State.onCam_keeps | apply State.frameOnly_keeps | apply State.goBlind_keeps | apply Keeps.foldl | apply Keeps.foldlFst | intro _ | split | (dsimp only)))

theorem State.encRetires_keeps {msk : Nat} {sb s : State} (ch : Fin 4) (hmsk : Sub 16853069 msk) (hK : Keeps msk sb s) : Keeps msk sb (State.encRetires s ch) := by
  unfold State.encRetires; (with_reducible repeat' (first | assumption | (refine Sub.of 16853069 ?_ hmsk; with_unfolding_all rfl) | apply State.markRetired_keeps | apply State.encCalDrop_keeps | apply State.useAlt_keeps | apply State.event_keeps | apply State.onEnc_keeps | apply State.orderlyStop_keeps | intro _ | split | (dsimp only)))

theorem State.axisRetires_keeps {msk : Nat} {sb s : State} (a : Fin 16) (hmsk : Sub 17949631 msk) (hK : Keeps msk sb s) : Keeps msk sb (State.axisRetires s a) := by
  unfold State.axisRetires; (with_reducible repeat' (first | assumption | (refine Sub.of 17949631 ?_ hmsk; with_unfolding_all rfl) | apply State.markRetired_keeps | apply State.event_keeps | apply State.onAxis_keeps | apply State.seqFail_keeps | apply State.asShadow_keeps | apply State.seqsSince_keeps | intro _ | split | (dsimp only)))

theorem State.retireOne_keeps {msk : Nat} {sb s : State} (j : Nat) (hmsk : Sub 17956863 msk) (hK : Keeps msk sb s) : Keeps msk sb (State.retireOne s j) := by
  unfold State.retireOne; (with_reducible repeat' (first | assumption | (refine Sub.of 17956863 ?_ hmsk; with_unfolding_all rfl) | apply State.memClassed_keeps | apply State.laneRetires_keeps | apply State.tblRetires_keeps | apply State.portRetires_keeps | apply State.encRetires_keeps | apply State.chainRetires_keeps | apply State.axisRetires_keeps | split | (dsimp only)))

theorem State.voidRest_keeps {msk : Nat} {sb s : State} (bj : BJob) (hmsk : Sub 16 msk) (hK : Keeps msk sb s) : Keeps msk sb (State.voidRest s bj) := by
  unfold State.voidRest; (with_reducible repeat' (first | assumption | (refine Sub.of 16 ?_ hmsk; with_unfolding_all rfl) | apply State.modJob_keeps | apply Keeps.getD | intro _ | split | (dsimp only) | (rename_i e; replace e := Option.map_eq_some_iff.mp e; obtain ⟨_, e, rfl⟩ := e) | (rename_i e; cases e; done) | (rename_i e; injection e with e; subst e) | (rename_i e; dsimp only at e) | (rename_i e; split at e)))

theorem State.freezeAlone_keeps {msk : Nat} {sb s : State} (hmsk : Sub 8675472 msk) (hK : Keeps msk sb s) : Keeps msk sb (State.freezeAlone s) := by
  unfold State.freezeAlone; (with_reducible repeat' (first | assumption | (refine Sub.of 8675472 ?_ hmsk; with_unfolding_all rfl) | (refine fun (hb : msk.testBit 22 = false) => ?_; intro _; first | rfl | (dsimp only; split <;> rfl)) | apply State.voidRest_keeps | apply State.interruptSeqs_keeps | apply State.onLtm_keeps | apply State.onMot_keeps | apply State.webStop_keeps | apply State.loseTrump_keeps | apply Keeps.foldl | apply Keeps.foldlFst | intro _ | split | (dsimp only)))

theorem State.freeze_keeps {msk : Nat} {sb s : State} (hmsk : Sub 9757631 msk) (hK : Keeps msk sb s) : Keeps msk sb (State.freeze s) := by
  unfold State.freeze; (with_reducible repeat' (first | assumption | (refine Sub.of 9757631 ?_ hmsk; with_unfolding_all rfl) | (refine fun (hb : msk.testBit 20 = false) => ?_; with_unfolding_all exact (Sub.off (p := .mode) 9757631 hmsk rfl hb).elim) | (refine fun (hb : msk.testBit 23 = false) => ?_; with_unfolding_all exact (Sub.off (p := .trump) 9757631 hmsk rfl hb).elim) | apply State.dropStep_keeps | apply State.handOver_keeps | apply State.freezeAlone_keeps | apply State.onTbl_keeps | apply State.onSys_keeps | apply State.setMode_keeps | apply State.othersRest_keeps | apply State.laneRoles_keeps | intro _ | split | (dsimp only)))

theorem State.freezeDue_keeps {msk : Nat} {sb s : State} (hmsk : Sub 9757631 msk) (hK : Keeps msk sb s) : Keeps msk sb (State.freezeDue s) := by
  unfold State.freezeDue; (with_reducible repeat' (first | assumption | (refine Sub.of 9757631 ?_ hmsk; with_unfolding_all rfl) | (refine fun (hb : msk.testBit 20 = false) => ?_; with_unfolding_all exact (Sub.off (p := .mode) 9757631 hmsk rfl hb).elim) | apply State.onSys_keeps | apply State.freeze_keeps | intro _ | split | (dsimp only)))

theorem State.healthAlone_keeps {msk : Nat} {sb s : State} (hmsk : Sub 73741 msk) (hK : Keeps msk sb s) : Keeps msk sb (State.healthAlone s) := by
  unfold State.healthAlone; (with_reducible repeat' (first | assumption | (refine Sub.of 73741 ?_ hmsk; with_unfolding_all rfl) | apply State.laneStop_keeps | apply State.memPend_keeps | apply Keeps.foldl | apply Keeps.foldlFst | intro _ | split | (dsimp only)))

theorem State.healthTry_keeps {msk : Nat} {sb s : State} (atLine : Bool) (hmsk : Sub 9823167 msk) (hK : Keeps msk sb s) : Keeps msk sb (State.healthTry s atLine) := by
  unfold State.healthTry; (with_reducible repeat' (first | assumption | (refine Sub.of 9823167 ?_ hmsk; with_unfolding_all rfl) | (refine fun (hb : msk.testBit 23 = false) => ?_; with_unfolding_all exact (Sub.off (p := .trump) 9823167 hmsk rfl hb).elim) | apply State.freeze_keeps | apply State.onTbl_keeps | apply State.handOver_keeps | apply State.leaveStep_keeps | apply State.healthAlone_keeps | intro _ | split | (dsimp only)))

theorem State.settleFaults_keeps {msk : Nat} {sb s : State} (hmsk : Sub 26607615 msk) (hK : Keeps msk sb s) : Keeps msk sb (State.settleFaults s) := by
  unfold State.settleFaults; (with_reducible repeat' (first | assumption | (refine Sub.of 26607615 ?_ hmsk; with_unfolding_all rfl) | (refine fun (hb : msk.testBit 24 = false) => ?_; with_unfolding_all exact (Sub.off (p := .due) 26607615 hmsk rfl hb).elim) | apply State.retireOne_keeps | apply State.onFlt_keeps | apply State.healthTry_keeps | apply Keeps.foldl | apply Keeps.foldlFst | intro _ | split | (dsimp only)))

theorem State.liveF_keeps {msk : Nat} {sb s : State} (f : State → State) (hf : ∀ x, Keeps msk sb x → Keeps msk sb (f x)) (hmsk : Sub 26607615 msk) (hK : Keeps msk sb s) : Keeps msk sb (State.liveF s f) := by
  unfold State.liveF; (with_reducible repeat' (first | assumption | (refine Sub.of 26607615 ?_ hmsk; with_unfolding_all rfl) | apply State.live_keeps | apply State.settleFaults_keeps | (apply hf) | intro _ | (dsimp only)))

theorem State.uncorrectableAt_keeps {msk : Nat} {sb s : State} (c : Fin 8) (l kind subch src synd cmd : Nat) (hmsk : Sub 9757631 msk) (hK : Keeps msk sb s) : Keeps msk sb (State.uncorrectableAt s c l kind subch src synd cmd) := by
  unfold State.uncorrectableAt; (with_reducible repeat' (first | assumption | (refine Sub.of 9757631 ?_ hmsk; with_unfolding_all rfl) | (refine fun (hb : msk.testBit 20 = false) => ?_; with_unfolding_all exact (Sub.off (p := .mode) 9757631 hmsk rfl hb).elim) | apply State.ueRecord_keeps | apply State.onSys_keeps | apply State.quiesceNext_keeps | apply State.freezeDue_keeps | apply State.onMem_keeps | intro _ | split | (dsimp only)))

theorem State.readErr_keeps {msk : Nat} {sb s : State} (c : Fin 8) (l src : Nat) (beats : List (BitVec 80)) (hmsk : Sub 26600383 msk) (hK : Keeps msk sb s) : Keeps msk sb (State.readErr s c l src beats) := by
  unfold State.readErr; (with_reducible repeat' (first | assumption | (refine Sub.of 26600383 ?_ hmsk; with_unfolding_all rfl) | apply State.correctedAt_keeps | apply State.uncorrectableAt_keeps | split | (dsimp only)))

theorem State.corrected_keeps {msk : Nat} {sb s : State} (c : Fin 8) (e : CorrErr) (hmsk : Sub 26600383 msk) (hK : Keeps msk sb s) : Keeps msk sb (State.corrected s c e) := by
  unfold State.corrected; (with_reducible repeat' (first | assumption | (refine Sub.of 26600383 ?_ hmsk; with_unfolding_all rfl) | apply State.readErr_keeps | split | (dsimp only)))

theorem execCorrectedError_keeps {msk : Nat} {sb s : State} (c : Fin 8) (e : CorrErr) (hmsk : Sub 26607615 msk) (hK : Keeps msk sb s) : ∀ t, execCorrectedError c e s = .next t → Keeps msk sb t := by
  intro t e; unfold execCorrectedError at e
  repeat' (first | (cases e; done) | (injection e with e; subst e) | split at e)
  all_goals (with_reducible repeat' (first | assumption | (refine Sub.of 26607615 ?_ hmsk; with_unfolding_all rfl) | apply State.liveF_keeps | apply State.corrected_keeps | intro _ | (dsimp only)))

theorem State.uncorrectable_keeps {msk : Nat} {sb s : State} (c : Fin 8) (e : UncorrErr) (hmsk : Sub 26600383 msk) (hK : Keeps msk sb s) : Keeps msk sb (State.uncorrectable s c e) := by
  unfold State.uncorrectable; (with_reducible repeat' (first | assumption | (refine Sub.of 26600383 ?_ hmsk; with_unfolding_all rfl) | apply State.uncorrectableAt_keeps | apply State.readErr_keeps | split | (dsimp only)))

theorem execUncorrectableError_keeps {msk : Nat} {sb s : State} (c : Fin 8) (e : UncorrErr) (hmsk : Sub 26607615 msk) (hK : Keeps msk sb s) : ∀ t, execUncorrectableError c e s = .next t → Keeps msk sb t := by
  intro t e; unfold execUncorrectableError at e
  repeat' (first | (cases e; done) | (injection e with e; subst e) | split at e)
  all_goals (with_reducible repeat' (first | assumption | (refine Sub.of 26607615 ?_ hmsk; with_unfolding_all rfl) | apply State.liveF_keeps | apply State.uncorrectable_keeps | intro _ | (dsimp only)))

theorem execCalCopyVerified_keeps {msk : Nat} {sb s : State} (ok : Bool) (hmsk : Sub 831 msk) (hK : Keeps msk sb s) : ∀ t, execCalCopyVerified ok s = .next t → Keeps msk sb t := by
  intro t e; unfold execCalCopyVerified at e
  repeat' (first | (cases e; done) | (injection e with e; subst e) | split at e)
  all_goals (with_reducible repeat' (first | assumption | (refine Sub.of 831 ?_ hmsk; with_unfolding_all rfl) | apply State.live_keeps | apply State.calVerified_keeps | apply State.when_keeps | apply State.memRetire_keeps | intro _ | (dsimp only)))

theorem execChannelRetirement_keeps {msk : Nat} {sb s : State} (hmsk : Sub 26607615 msk) (hK : Keeps msk sb s) : ∀ t, execChannelRetirement s = .next t → Keeps msk sb t := by
  intro t e; unfold execChannelRetirement at e
  repeat' (first | (cases e; done) | (injection e with e; subst e) | split at e)
  all_goals (with_reducible repeat' (first | assumption | (refine Sub.of 26607615 ?_ hmsk; with_unfolding_all rfl) | apply State.liveF_keeps | apply State.when_keeps | apply State.memRetire_keeps | intro _ | (dsimp only)))

end Sys2Proof.Machine
end

