-- ==== Sys2Proof/Laws/KeepsLaneRows.lean ====
section
/-! SUPPORT. What each operation of Machine/LaneRows.lean keeps: the queue, and the canonical form of the register maps. -/
set_option Elab.async false
namespace Sys2Proof.Machine

theorem State.laneGo_keeps {msk : Nat} {sb s : State} (n : Fin 52) (a b : LaneSt) (hmsk : Sub 256 msk) (hK : Keeps msk sb s) : Keeps msk sb (State.laneGo s n a b) := by
  unfold State.laneGo; (with_reducible repeat' (first | assumption | (refine Sub.of 256 ?_ hmsk; with_unfolding_all rfl) | apply State.onLane_keeps | intro _ | split | (dsimp only)))

theorem State.laneDetected_keeps {msk : Nat} {sb s : State} (n : Fin 52) (hmsk : Sub 524544 msk) (hK : Keeps msk sb s) : Keeps msk sb (State.laneDetected s n) := by
  unfold State.laneDetected; (with_reducible repeat' (first | assumption | (refine Sub.of 524544 ?_ hmsk; with_unfolding_all rfl) | apply State.onLane_keeps | apply State.drawn_keeps | intro _ | split | (dsimp only)))

theorem execLaneReceiverDetect_keeps {msk : Nat} {sb s : State} (n : Fin 52) (hmsk : Sub 27131903 msk) (hK : Keeps msk sb s) : ∀ t, execLaneReceiverDetect n s = .next t → Keeps msk sb t := by
  intro t e; unfold execLaneReceiverDetect at e
  repeat' (first | (cases e; done) | (injection e with e; subst e) | split at e)
  all_goals (with_reducible repeat' (first | assumption | (refine Sub.of 27131903 ?_ hmsk; with_unfolding_all rfl) | apply State.liveF_keeps | apply State.laneDetected_keeps | intro _ | (dsimp only)))

theorem State.laneAbsent_keeps {msk : Nat} {sb s : State} (n : Fin 52) (hmsk : Sub 256 msk) (hK : Keeps msk sb s) : Keeps msk sb (State.laneAbsent s n) := by
  unfold State.laneAbsent; (with_reducible repeat' (first | assumption | (refine Sub.of 256 ?_ hmsk; with_unfolding_all rfl) | apply State.onLane_keeps | intro _ | split | (dsimp only)))

theorem execLaneDetectTimeout_keeps {msk : Nat} {sb s : State} (n : Fin 52) (hmsk : Sub 26607615 msk) (hK : Keeps msk sb s) : ∀ t, execLaneDetectTimeout n s = .next t → Keeps msk sb t := by
  intro t e; unfold execLaneDetectTimeout at e
  repeat' (first | (cases e; done) | (injection e with e; subst e) | split at e)
  all_goals (with_reducible repeat' (first | assumption | (refine Sub.of 26607615 ?_ hmsk; with_unfolding_all rfl) | apply State.liveF_keeps | apply State.laneAbsent_keeps | intro _ | (dsimp only)))

theorem State.laneRetry_keeps {msk : Nat} {sb s : State} (n : Fin 52) (hmsk : Sub 256 msk) (hK : Keeps msk sb s) : Keeps msk sb (State.laneRetry s n) := by
  unfold State.laneRetry; (with_reducible repeat' (first | assumption | (refine Sub.of 256 ?_ hmsk; with_unfolding_all rfl) | apply State.onLane_keeps | intro _ | split | (dsimp only)))

theorem execLaneDetectRetry_keeps {msk : Nat} {sb s : State} (n : Fin 52) (hmsk : Sub 26607615 msk) (hK : Keeps msk sb s) : ∀ t, execLaneDetectRetry n s = .next t → Keeps msk sb t := by
  intro t e; unfold execLaneDetectRetry at e
  repeat' (first | (cases e; done) | (injection e with e; subst e) | split at e)
  all_goals (with_reducible repeat' (first | assumption | (refine Sub.of 26607615 ?_ hmsk; with_unfolding_all rfl) | apply State.liveF_keeps | apply State.laneRetry_keeps | intro _ | (dsimp only)))

theorem execLaneClockRecovered_keeps {msk : Nat} {sb s : State} (n : Fin 52) (hmsk : Sub 26607615 msk) (hK : Keeps msk sb s) : ∀ t, execLaneClockRecovered n s = .next t → Keeps msk sb t := by
  intro t e; unfold execLaneClockRecovered at e
  repeat' (first | (cases e; done) | (injection e with e; subst e) | split at e)
  all_goals (with_reducible repeat' (first | assumption | (refine Sub.of 26607615 ?_ hmsk; with_unfolding_all rfl) | apply State.liveF_keeps | apply State.laneGo_keeps | intro _ | (dsimp only)))

theorem execLaneCommaAligned_keeps {msk : Nat} {sb s : State} (n : Fin 52) (hmsk : Sub 26607615 msk) (hK : Keeps msk sb s) : ∀ t, execLaneCommaAligned n s = .next t → Keeps msk sb t := by
  intro t e; unfold execLaneCommaAligned at e
  repeat' (first | (cases e; done) | (injection e with e; subst e) | split at e)
  all_goals (with_reducible repeat' (first | assumption | (refine Sub.of 26607615 ?_ hmsk; with_unfolding_all rfl) | apply State.liveF_keeps | apply State.laneGo_keeps | intro _ | (dsimp only)))

theorem State.laneLocked_keeps {msk : Nat} {sb s : State} (n : Fin 52) (hmsk : Sub 524544 msk) (hK : Keeps msk sb s) : Keeps msk sb (State.laneLocked s n) := by
  unfold State.laneLocked; (with_reducible repeat' (first | assumption | (refine Sub.of 524544 ?_ hmsk; with_unfolding_all rfl) | apply State.onLane_keeps | apply State.drawn_keeps | intro _ | split | (dsimp only)))

theorem execLaneBlockLock_keeps {msk : Nat} {sb s : State} (n : Fin 52) (hmsk : Sub 27131903 msk) (hK : Keeps msk sb s) : ∀ t, execLaneBlockLock n s = .next t → Keeps msk sb t := by
  intro t e; unfold execLaneBlockLock at e
  repeat' (first | (cases e; done) | (injection e with e; subst e) | split at e)
  all_goals (with_reducible repeat' (first | assumption | (refine Sub.of 27131903 ?_ hmsk; with_unfolding_all rfl) | apply State.liveF_keeps | apply State.laneLocked_keeps | intro _ | (dsimp only)))

theorem State.laneTrained_keeps {msk : Nat} {sb s : State} (n : Fin 52) (hmsk : Sub 256 msk) (hK : Keeps msk sb s) : Keeps msk sb (State.laneTrained s n) := by
  unfold State.laneTrained; (with_reducible repeat' (first | assumption | (refine Sub.of 256 ?_ hmsk; with_unfolding_all rfl) | apply State.onLane_keeps | intro _ | split | (dsimp only)))

theorem execLaneTrainingDone_keeps {msk : Nat} {sb s : State} (n : Fin 52) (hmsk : Sub 26607615 msk) (hK : Keeps msk sb s) : ∀ t, execLaneTrainingDone n s = .next t → Keeps msk sb t := by
  intro t e; unfold execLaneTrainingDone at e
  repeat' (first | (cases e; done) | (injection e with e; subst e) | split at e)
  all_goals (with_reducible repeat' (first | assumption | (refine Sub.of 26607615 ?_ hmsk; with_unfolding_all rfl) | apply State.liveF_keeps | apply State.laneTrained_keeps | intro _ | (dsimp only)))

theorem State.capSend_keeps {msk : Nat} {sb s : State} (n : Fin 52) (hmsk : Sub 256 msk) (hK : Keeps msk sb s) : Keeps msk sb (State.capSend s n) := by
  unfold State.capSend; (with_reducible repeat' (first | assumption | (refine Sub.of 256 ?_ hmsk; with_unfolding_all rfl) | apply State.onLane_keeps | intro _ | split | (dsimp only)))

theorem execCapPageSend_keeps {msk : Nat} {sb s : State} (n : Fin 52) (hmsk : Sub 26607615 msk) (hK : Keeps msk sb s) : ∀ t, execCapPageSend n s = .next t → Keeps msk sb t := by
  intro t e; unfold execCapPageSend at e
  repeat' (first | (cases e; done) | (injection e with e; subst e) | split at e)
  all_goals (with_reducible repeat' (first | assumption | (refine Sub.of 26607615 ?_ hmsk; with_unfolding_all rfl) | apply State.liveF_keeps | apply State.capSend_keeps | intro _ | (dsimp only)))

theorem State.modStore_keeps {msk : Nat} {sb s : State} (n : Fin 40) (p : ModPages) (hmsk : Sub 260 msk) (hK : Keeps msk sb s) : Keeps msk sb (State.modStore s n p) := by
  unfold State.modStore; (with_reducible repeat' (first | assumption | (refine Sub.of 260 ?_ hmsk; with_unfolding_all rfl) | apply State.setF_keeps | apply State.onLane_keeps | apply Keeps.foldl | apply Keeps.foldlFst | intro _ | (dsimp only)))

theorem State.modPages_keeps {msk : Nat} {sb s : State} (n : Fin 40) (p : ModPages) (hmsk : Sub 16843020 msk) (hK : Keeps msk sb s) : Keeps msk sb (State.modPages s n p) := by
  unfold State.modPages; (with_reducible repeat' (first | assumption | (refine Sub.of 16843020 ?_ hmsk; with_unfolding_all rfl) | apply State.modStore_keeps | apply State.capNote_keeps | apply State.laneUp_keeps | apply State.onLane_keeps | apply State.event_keeps | apply State.retireDue_keeps | intro _ | split | (dsimp only)))

theorem State.seatPage_keeps {msk : Nat} {sb s : State} (n : Fin 52) (p : SeatPage) (hmsk : Sub 16640 msk) (hK : Keeps msk sb s) : Keeps msk sb (State.seatPage s n p) := by
  unfold State.seatPage; (with_reducible repeat' (first | assumption | (refine Sub.of 16640 ?_ hmsk; with_unfolding_all rfl) | (refine fun (hb : msk.testBit 23 = false) => ?_; intro _; first | rfl | (dsimp only; split <;> rfl)) | apply State.onLane_keeps | apply State.capNote_keeps | apply State.onTbl_keeps | intro _ | split | (dsimp only)))

theorem State.capPages_keeps {msk : Nat} {sb s : State} (n : Fin 52) (p : CapPages) (hmsk : Sub 16859404 msk) (hK : Keeps msk sb s) : Keeps msk sb (State.capPages s n p) := by
  unfold State.capPages; (with_reducible repeat' (first | assumption | (refine Sub.of 16859404 ?_ hmsk; with_unfolding_all rfl) | apply State.modPages_keeps | apply State.seatPage_keeps | split | (dsimp only)))

theorem execLaneCapPagesReceived_keeps {msk : Nat} {sb s : State} (n : Fin 52) (p : CapPages) (hmsk : Sub 26607615 msk) (hK : Keeps msk sb s) : ∀ t, execLaneCapPagesReceived n p s = .next t → Keeps msk sb t := by
  intro t e; unfold execLaneCapPagesReceived at e
  repeat' (first | (cases e; done) | (injection e with e; subst e) | split at e)
  all_goals (with_reducible repeat' (first | assumption | (refine Sub.of 26607615 ?_ hmsk; with_unfolding_all rfl) | apply State.liveF_keeps | apply State.capPages_keeps | intro _ | (dsimp only)))

theorem State.capTimeout_keeps {msk : Nat} {sb s : State} (n : Fin 52) (hmsk : Sub 16843020 msk) (hK : Keeps msk sb s) : Keeps msk sb (State.capTimeout s n) := by
  unfold State.capTimeout; (with_reducible repeat' (first | assumption | (refine Sub.of 16843020 ?_ hmsk; with_unfolding_all rfl) | apply State.bringUpFailed_keeps | apply State.toTrain_keeps | split | (dsimp only)))

theorem execLaneCapTimeout_keeps {msk : Nat} {sb s : State} (n : Fin 52) (hmsk : Sub 26607615 msk) (hK : Keeps msk sb s) : ∀ t, execLaneCapTimeout n s = .next t → Keeps msk sb t := by
  intro t e; unfold execLaneCapTimeout at e
  repeat' (first | (cases e; done) | (injection e with e; subst e) | split at e)
  all_goals (with_reducible repeat' (first | assumption | (refine Sub.of 26607615 ?_ hmsk; with_unfolding_all rfl) | apply State.liveF_keeps | apply State.capTimeout_keeps | intro _ | (dsimp only)))

theorem State.trainTimeout_keeps {msk : Nat} {sb s : State} (n : Fin 52) (hmsk : Sub 16843020 msk) (hK : Keeps msk sb s) : Keeps msk sb (State.trainTimeout s n) := by
  unfold State.trainTimeout; (with_reducible repeat' (first | assumption | (refine Sub.of 16843020 ?_ hmsk; with_unfolding_all rfl) | apply State.bringUpFailed_keeps | apply State.laneStart_keeps | split | (dsimp only)))

theorem execLaneTrainingTimeout_keeps {msk : Nat} {sb s : State} (n : Fin 52) (hmsk : Sub 26607615 msk) (hK : Keeps msk sb s) : ∀ t, execLaneTrainingTimeout n s = .next t → Keeps msk sb t := by
  intro t e; unfold execLaneTrainingTimeout at e
  repeat' (first | (cases e; done) | (injection e with e; subst e) | split at e)
  all_goals (with_reducible repeat' (first | assumption | (refine Sub.of 26607615 ?_ hmsk; with_unfolding_all rfl) | apply State.liveF_keeps | apply State.trainTimeout_keeps | intro _ | (dsimp only)))

theorem State.voidCut_keeps {msk : Nat} {sb s : State} (n : Fin 40) (hmsk : Sub 276 msk) (hK : Keeps msk sb s) : Keeps msk sb (State.voidCut s n) := by
  unfold State.voidCut; (with_reducible repeat' (first | assumption | (refine Sub.of 276 ?_ hmsk; with_unfolding_all rfl) | apply State.laneRun_keeps | apply State.bump_keeps | apply State.voidLine_keeps | apply Keeps.foldl | apply Keeps.foldlFst | intro _ | split | (dsimp only)))

theorem State.lockLost_keeps {msk : Nat} {sb s : State} (n : Fin 52) (hmsk : Sub 17941439 msk) (hK : Keeps msk sb s) : Keeps msk sb (State.lockLost s n) := by
  unfold State.lockLost; (with_reducible repeat' (first | assumption | (refine Sub.of 17941439 ?_ hmsk; with_unfolding_all rfl) | apply State.bump_keeps | apply State.event_keeps | apply State.voidCut_keeps | apply State.toTrain_keeps | apply State.upset_keeps | apply State.groupLost_keeps | split | (dsimp only)))

theorem execLaneLockLost_keeps {msk : Nat} {sb s : State} (n : Fin 52) (hmsk : Sub 26607615 msk) (hK : Keeps msk sb s) : ∀ t, execLaneLockLost n s = .next t → Keeps msk sb t := by
  intro t e; unfold execLaneLockLost at e
  repeat' (first | (cases e; done) | (injection e with e; subst e) | split at e)
  all_goals (with_reducible repeat' (first | assumption | (refine Sub.of 26607615 ?_ hmsk; with_unfolding_all rfl) | apply State.liveF_keeps | apply State.lockLost_keeps | intro _ | (dsimp only)))

theorem State.hdrCount_keeps {msk : Nat} {sb s : State} (n : Fin 52) (h : RxHdr) (hmsk : Sub 4 msk) (hK : Keeps msk sb s) : Keeps msk sb (State.hdrCount s n h) := by
  unfold State.hdrCount; (with_reducible repeat' (first | assumption | (refine Sub.of 4 ?_ hmsk; with_unfolding_all rfl) | apply State.bump_keeps | split | (dsimp only)))

theorem State.codeCount_keeps {msk : Nat} {sb s : State} (n : Fin 52) (k : Nat) (hmsk : Sub 4 msk) (hK : Keeps msk sb s) : Keeps msk sb (State.codeCount s n k) := by
  unfold State.codeCount; (with_reducible repeat' (first | assumption | (refine Sub.of 4 ?_ hmsk; with_unfolding_all rfl) | apply State.bumpBy_keeps | split | (dsimp only)))

theorem State.hdrJudge_keeps {msk : Nat} {sb s : State} (n : Fin 52) (h : RxHdr) (hmsk : Sub 18465727 msk) (hK : Keeps msk sb s) : Keeps msk sb (State.hdrJudge s n h) := by
  unfold State.hdrJudge; (with_reducible repeat' (first | assumption | (refine Sub.of 18465727 ?_ hmsk; with_unfolding_all rfl) | apply State.onLane_keeps | apply State.laneLocked_keeps | apply State.lockLost_keeps | intro _ | split | (dsimp only)))

theorem State.blockIn_keeps {msk : Nat} {sb s : State} (n : Fin 52) (h : RxHdr) (errs : Nat) (crcOk : Bool) (hmsk : Sub 18465727 msk) (hK : Keeps msk sb s) : Keeps msk sb (State.blockIn s n h errs crcOk) := by
  unfold State.blockIn; (with_reducible repeat' (first | assumption | (refine Sub.of 18465727 ?_ hmsk; with_unfolding_all rfl) | apply State.hdrCount_keeps | apply State.codeCount_keeps | apply State.hdrJudge_keeps | apply State.lockLost_keeps | apply State.upset_keeps | split | (dsimp only)))

theorem execBlockReceive_keeps {msk : Nat} {sb s : State} (n : Fin 52) (h : RxHdr) (codeErrs : Fin 32) (crcOk : Bool) (hmsk : Sub 27131903 msk) (hK : Keeps msk sb s) : ∀ t, execBlockReceive n h codeErrs crcOk s = .next t → Keeps msk sb t := by
  intro t e; unfold execBlockReceive at e
  repeat' (first | (cases e; done) | (injection e with e; subst e) | split at e)
  all_goals (with_reducible repeat' (first | assumption | (refine Sub.of 27131903 ?_ hmsk; with_unfolding_all rfl) | apply State.liveF_keeps | apply State.blockIn_keeps | intro _ | (dsimp only)))

theorem State.dealJudge_keeps {msk : Nat} {sb s : State} (n : Fin 40) (hmsk : Sub 8675725 msk) (hK : Keeps msk sb s) : Keeps msk sb (State.dealJudge s n) := by
  unfold State.dealJudge; (with_reducible repeat' (first | assumption | (refine Sub.of 8675725 ?_ hmsk; with_unfolding_all rfl) | apply State.stepDown_keeps | split | (dsimp only)))

theorem State.upstream_keeps {msk : Nat} {sb s : State} (n : Fin 40) (dAcc : BitVec 32) (active : Bool) (hmsk : Sub 8675725 msk) (hK : Keeps msk sb s) : Keeps msk sb (State.upstream s n dAcc active) := by
  unfold State.upstream; (with_reducible repeat' (first | assumption | (refine Sub.of 8675725 ?_ hmsk; with_unfolding_all rfl) | apply State.setF_keeps | apply State.onLane_keeps | apply State.when_keeps | apply State.event_keeps | apply State.dealJudge_keeps | intro _ | split | (dsimp only)))

theorem State.headStatus_keeps {msk : Nat} {sb s : State} (n : Fin 40) (loc : Nat) (t v : BitVec 16) (hmsk : Sub 128 msk) (hK : Keeps msk sb s) : Keeps msk sb (State.headStatus s n loc t v) := by
  unfold State.headStatus; (with_reducible repeat' (first | assumption | (refine Sub.of 128 ?_ hmsk; with_unfolding_all rfl) | apply State.onLHead_keeps | apply Keeps.foldl | apply Keeps.foldlFst | intro _ | split | (dsimp only)))

theorem State.statusIn_keeps {msk : Nat} {sb s : State} (n : Fin 40) (b : StatusBlock) (hmsk : Sub 8675725 msk) (hK : Keeps msk sb s) : Keeps msk sb (State.statusIn s n b) := by
  unfold State.statusIn; (with_reducible repeat' (first | assumption | (refine Sub.of 8675725 ?_ hmsk; with_unfolding_all rfl) | apply State.setF_keeps | apply State.headStatus_keeps | apply State.upstream_keeps | apply Keeps.foldl | apply Keeps.foldlFst | intro _ | split | (dsimp only)))

theorem execModuleStatusBlock_keeps {msk : Nat} {sb s : State} (n : Fin 40) (b : StatusBlock) (hmsk : Sub 26607615 msk) (hK : Keeps msk sb s) : ∀ t, execModuleStatusBlock n b s = .next t → Keeps msk sb t := by
  intro t e; unfold execModuleStatusBlock at e
  repeat' (first | (cases e; done) | (injection e with e; subst e) | split at e)
  all_goals (with_reducible repeat' (first | assumption | (refine Sub.of 26607615 ?_ hmsk; with_unfolding_all rfl) | apply State.liveF_keeps | apply State.statusIn_keeps | intro _ | (dsimp only)))

theorem State.reportCount_keeps {msk : Nat} {sb s : State} (n : Fin 40) (r : ModReport) (hmsk : Sub 260 msk) (hK : Keeps msk sb s) : Keeps msk sb (State.reportCount s n r) := by
  unfold State.reportCount; (with_reducible repeat' (first | assumption | (refine Sub.of 260 ?_ hmsk; with_unfolding_all rfl) | apply State.bumpBy_keeps | apply State.onLane_keeps | apply State.bump_keeps | intro _ | split | (dsimp only)))

theorem State.reportActs_keeps {msk : Nat} {sb s : State} (n : Fin 40) (r : ModReport) (hmsk : Sub 16842780 msk) (hK : Keeps msk sb s) : Keeps msk sb (State.reportActs s n r) := by
  unfold State.reportActs; (with_reducible repeat' (first | assumption | (refine Sub.of 16842780 ?_ hmsk; with_unfolding_all rfl) | apply State.when_keeps | apply State.voidLine_keeps | apply State.event_keeps | apply State.upset_keeps | intro _ | split | (dsimp only)))

theorem State.reportIn_keeps {msk : Nat} {sb s : State} (n : Fin 40) (r : ModReport) (hmsk : Sub 25518493 msk) (hK : Keeps msk sb s) : Keeps msk sb (State.reportIn s n r) := by
  unfold State.reportIn; (with_reducible repeat' (first | assumption | (refine Sub.of 25518493 ?_ hmsk; with_unfolding_all rfl) | apply State.reportCount_keeps | apply State.reportActs_keeps | apply State.upstream_keeps | split | (dsimp only)))

theorem execModuleReport_keeps {msk : Nat} {sb s : State} (n : Fin 40) (r : ModReport) (hmsk : Sub 26607615 msk) (hK : Keeps msk sb s) : ∀ t, execModuleReport n r s = .next t → Keeps msk sb t := by
  intro t e; unfold execModuleReport at e
  repeat' (first | (cases e; done) | (injection e with e; subst e) | split at e)
  all_goals (with_reducible repeat' (first | assumption | (refine Sub.of 26607615 ?_ hmsk; with_unfolding_all rfl) | apply State.liveF_keeps | apply State.reportIn_keeps | intro _ | (dsimp only)))

theorem State.patGo_keeps {msk : Nat} {sb s : State} (ses : Fin 5) (n : Fin 40) (hmsk : Sub 263 msk) (hK : Keeps msk sb s) : Keeps msk sb (State.patGo s ses n) := by
  unfold State.patGo; (with_reducible repeat' (first | assumption | (refine Sub.of 263 ?_ hmsk; with_unfolding_all rfl) | apply State.sesCmd_keeps | apply State.setF_keeps | apply State.onLane_keeps | intro _ | split | (dsimp only) | (rename_i e; replace e := Option.map_eq_some_iff.mp e; obtain ⟨_, e, rfl⟩ := e) | (rename_i e; cases e; done) | (rename_i e; injection e with e; subst e) | (rename_i e; dsimp only at e) | (rename_i e; split at e)))

theorem execPatternTestGo_keeps {msk : Nat} {sb s : State} (ses : Fin 5) (n : Fin 40) (hmsk : Sub 263 msk) (hK : Keeps msk sb s) : ∀ t, execPatternTestGo ses n s = .next t → Keeps msk sb t := by
  intro t e; unfold execPatternTestGo at e
  repeat' (first | (cases e; done) | (injection e with e; subst e) | split at e)
  all_goals (with_reducible repeat' (first | assumption | (refine Sub.of 263 ?_ hmsk; with_unfolding_all rfl) | apply State.patGo_keeps | (dsimp only)))

theorem State.testEnd_keeps {msk : Nat} {sb s : State} (n : Fin 40) (rx : List Bool) (hmsk : Sub 260 msk) (hK : Keeps msk sb s) : Keeps msk sb (State.testEnd s n rx) := by
  unfold State.testEnd; (with_reducible repeat' (first | assumption | (refine Sub.of 260 ?_ hmsk; with_unfolding_all rfl) | apply State.setF_keeps | apply State.onLane_keeps | apply State.toTrain_keeps | apply Keeps.getD | intro _ | split | (dsimp only) | (rename_i e; replace e := Option.map_eq_some_iff.mp e; obtain ⟨_, e, rfl⟩ := e) | (rename_i e; cases e; done) | (rename_i e; injection e with e; subst e) | (rename_i e; dsimp only at e) | (rename_i e; split at e)))

theorem execLaneTestEnd_keeps {msk : Nat} {sb s : State} (n : Fin 40) (lead : List Bool) (body : List Bool) (times : Nat) (hmsk : Sub 26607615 msk) (hK : Keeps msk sb s) : ∀ t, execLaneTestEnd n lead body times s = .next t → Keeps msk sb t := by
  intro t e; unfold execLaneTestEnd at e
  repeat' (first | (cases e; done) | (injection e with e; subst e) | split at e)
  all_goals (with_reducible repeat' (first | assumption | (refine Sub.of 26607615 ?_ hmsk; with_unfolding_all rfl) | apply State.liveF_keeps | apply State.testEnd_keeps | intro _ | (dsimp only)))

theorem State.inject_keeps {msk : Nat} {sb s : State} (n : Fin 40) (i : Inject) (hmsk : Sub 256 msk) (hK : Keeps msk sb s) : Keeps msk sb (State.inject s n i) := by
  unfold State.inject; (with_reducible repeat' (first | assumption | (refine Sub.of 256 ?_ hmsk; with_unfolding_all rfl) | apply State.onLane_keeps | intro _ | (dsimp only)))

theorem State.injCmd_keeps {msk : Nat} {sb s : State} (ses : Fin 5) (n : Fin 40) (w : Word) (hmsk : Sub 259 msk) (hK : Keeps msk sb s) : Keeps msk sb (State.injCmd s ses n w) := by
  unfold State.injCmd; (with_reducible repeat' (first | assumption | (refine Sub.of 259 ?_ hmsk; with_unfolding_all rfl) | apply State.sesCmd_keeps | apply State.inject_keeps | intro _ | split | (dsimp only) | (rename_i e; replace e := Option.map_eq_some_iff.mp e; obtain ⟨_, e, rfl⟩ := e) | (rename_i e; cases e; done) | (rename_i e; injection e with e; subst e) | (rename_i e; dsimp only at e) | (rename_i e; split at e)))

theorem execErrorInject_keeps {msk : Nat} {sb s : State} (ses : Fin 5) (n : Fin 40) (kind : Fin 4) (blk : Fin 8) (pos : Fin 32) (bit : Fin 16) (count confirm : Byte) (hmsk : Sub 259 msk) (hK : Keeps msk sb s) : ∀ t, execErrorInject ses n kind blk pos bit count confirm s = .next t → Keeps msk sb t := by
  intro t e; unfold execErrorInject at e
  repeat' (first | (cases e; done) | (injection e with e; subst e) | split at e)
  all_goals (with_reducible repeat' (first | assumption | (refine Sub.of 259 ?_ hmsk; with_unfolding_all rfl) | apply State.injCmd_keeps | (dsimp only)))

theorem State.eyeCmd_keeps {msk : Nat} {sb s : State} (ses : Fin 5) (n : Fin 52) (w : Word) (hmsk : Sub 259 msk) (hK : Keeps msk sb s) : Keeps msk sb (State.eyeCmd s ses n w) := by
  unfold State.eyeCmd; (with_reducible repeat' (first | assumption | (refine Sub.of 259 ?_ hmsk; with_unfolding_all rfl) | apply State.sesCmd_keeps | apply State.onLane_keeps | intro _ | split | (dsimp only) | (rename_i e; replace e := Option.map_eq_some_iff.mp e; obtain ⟨_, e, rfl⟩ := e) | (rename_i e; cases e; done) | (rename_i e; injection e with e; subst e) | (rename_i e; dsimp only at e) | (rename_i e; split at e)))

theorem execEyeScanGo_keeps {msk : Nat} {sb s : State} (ses : Fin 5) (n : Fin 52) (dwell : Fin 16) (hmsk : Sub 259 msk) (hK : Keeps msk sb s) : ∀ t, execEyeScanGo ses n dwell s = .next t → Keeps msk sb t := by
  intro t e; unfold execEyeScanGo at e
  repeat' (first | (cases e; done) | (injection e with e; subst e) | split at e)
  all_goals (with_reducible repeat' (first | assumption | (refine Sub.of 259 ?_ hmsk; with_unfolding_all rfl) | apply State.eyeCmd_keeps | (dsimp only)))

theorem execEyeScanStop_keeps {msk : Nat} {sb s : State} (ses : Fin 5) (n : Fin 52) (hmsk : Sub 259 msk) (hK : Keeps msk sb s) : ∀ t, execEyeScanStop ses n s = .next t → Keeps msk sb t := by
  intro t e; unfold execEyeScanStop at e
  repeat' (first | (cases e; done) | (injection e with e; subst e) | split at e)
  all_goals (with_reducible repeat' (first | assumption | (refine Sub.of 259 ?_ hmsk; with_unfolding_all rfl) | apply State.eyeCmd_keeps | (dsimp only)))

theorem State.eyeOver_keeps {msk : Nat} {sb s : State} (n : Fin 52) (phases : BitVec 64) (volts : BitVec 128) (hmsk : Sub 256 msk) (hK : Keeps msk sb s) : Keeps msk sb (State.eyeOver s n phases volts) := by
  unfold State.eyeOver; (with_reducible repeat' (first | assumption | (refine Sub.of 256 ?_ hmsk; with_unfolding_all rfl) | apply State.onLane_keeps | intro _ | split | (dsimp only)))

theorem execEyeScanComplete_keeps {msk : Nat} {sb s : State} (n : Fin 52) (phases : BitVec 64) (volts : BitVec 128) (hmsk : Sub 26607615 msk) (hK : Keeps msk sb s) : ∀ t, execEyeScanComplete n phases volts s = .next t → Keeps msk sb t := by
  intro t e; unfold execEyeScanComplete at e
  repeat' (first | (cases e; done) | (injection e with e; subst e) | split at e)
  all_goals (with_reducible repeat' (first | assumption | (refine Sub.of 26607615 ?_ hmsk; with_unfolding_all rfl) | apply State.liveF_keeps | apply State.eyeOver_keeps | intro _ | (dsimp only)))

end Sys2Proof.Machine
end

