-- ==== Sys2Proof/Laws/KeepsModes.lean ====
section
/-! SUPPORT. What each operation of Machine/Modes.lean keeps: the queue, and the canonical form of the register maps. -/
set_option Elab.async false
namespace Sys2Proof.Machine

theorem State.bindPrep_keeps {msk : Nat} {sb s : State} (hmsk : Sub 268 msk) (hK : Keeps msk sb s) : Keeps msk sb (State.bindPrep s) := by
  unfold State.bindPrep; (with_reducible repeat' (first | assumption | (refine Sub.of 268 ?_ hmsk; with_unfolding_all rfl) | apply State.capRecheck_keeps | apply Keeps.foldl | apply Keeps.foldlFst | intro _ | split | (dsimp only)))

theorem State.bind_keeps {msk : Nat} {sb s : State} (h : BitVec 16) (hmsk : Sub 17 msk) (hK : Keeps msk sb s) : Keeps msk sb (State.bind s h) := by
  unfold State.bind; (with_reducible repeat' (first | assumption | (refine Sub.of 17 ?_ hmsk; with_unfolding_all rfl) | apply State.onJobs_keeps | apply State.modJob_keeps | apply State.settleStarts_keeps | intro _ | split | (dsimp only)))

theorem State.readyFlush_keeps {msk : Nat} {sb s : State} (hmsk : Sub 256 msk) (hK : Keeps msk sb s) : Keeps msk sb (State.readyFlush s) := by
  unfold State.readyFlush; (with_reducible repeat' (first | assumption | (refine Sub.of 256 ?_ hmsk; with_unfolding_all rfl) | apply State.onLane_keeps | apply Keeps.foldl | apply Keeps.foldlFst | intro _ | split | (dsimp only)))

theorem State.laneDown_keeps {msk : Nat} {sb s : State} (n : Fin 52) (hmsk : Sub 256 msk) (hK : Keeps msk sb s) : Keeps msk sb (State.laneDown s n) := by
  unfold State.laneDown; (with_reducible repeat' (first | assumption | (refine Sub.of 256 ?_ hmsk; with_unfolding_all rfl) | apply State.onLane_keeps | intro _ | split | (dsimp only)))

theorem State.coldRest_keeps {msk : Nat} {sb s : State} (hmsk : Sub 768 msk) (hK : Keeps msk sb s) : Keeps msk sb (State.coldRest s) := by
  unfold State.coldRest; (with_reducible repeat' (first | assumption | (refine Sub.of 768 ?_ hmsk; with_unfolding_all rfl) | apply State.laneDown_keeps | apply State.othersRest_keeps | apply Keeps.foldl | apply Keeps.foldlFst | intro _ | split | (dsimp only)))

theorem State.coldEnter_keeps {msk : Nat} {sb s : State} (hmsk : Sub 1098687 msk) (hK : Keeps msk sb s) : Keeps msk sb (State.coldEnter s) := by
  unfold State.coldEnter; (with_reducible repeat' (first | assumption | (refine Sub.of 1098687 ?_ hmsk; with_unfolding_all rfl) | apply State.coldRest_keeps | apply State.setMode_keeps | (dsimp only)))

theorem State.coldWarm_keeps {msk : Nat} {sb s : State} (hmsk : Sub 832 msk) (hK : Keeps msk sb s) : Keeps msk sb (State.coldWarm s) := by
  unfold State.coldWarm; (with_reducible repeat' (first | assumption | (refine Sub.of 832 ?_ hmsk; with_unfolding_all rfl) | apply State.onMem_keeps | apply State.encWake_keeps | apply State.lanesStart_keeps | intro _ | split | (dsimp only)))

theorem execIdleTimerExpiry_keeps {msk : Nat} {sb s : State} (hmsk : Sub 1098687 msk) (hK : Keeps msk sb s) : ∀ t, execIdleTimerExpiry s = .next t → Keeps msk sb t := by
  intro t e; unfold execIdleTimerExpiry at e
  repeat' (first | (cases e; done) | (injection e with e; subst e) | split at e)
  all_goals (with_reducible repeat' (first | assumption | (refine Sub.of 1098687 ?_ hmsk; with_unfolding_all rfl) | apply State.live_keeps | apply State.when_keeps | apply State.coldEnter_keeps | intro _ | (dsimp only)))

theorem State.coldTry_keeps {msk : Nat} {sb s : State} (hmsk : Sub 1098687 msk) (hK : Keeps msk sb s) : Keeps msk sb (State.coldTry s) := by
  unfold State.coldTry; (with_reducible repeat' (first | assumption | (refine Sub.of 1098687 ?_ hmsk; with_unfolding_all rfl) | (refine fun (hb : msk.testBit 20 = false) => ?_; with_unfolding_all exact (Sub.off (p := .mode) 1098687 hmsk rfl hb).elim) | apply State.onSys_keeps | apply State.forward_keeps | apply State.coldEnter_keeps | apply State.reqRejected_keeps | intro _ | split | (dsimp only)))

theorem execIdleColdEntry_keeps {msk : Nat} {sb s : State} (hmsk : Sub 1098687 msk) (hK : Keeps msk sb s) : ∀ t, execIdleColdEntry s = .next t → Keeps msk sb t := by
  intro t e; unfold execIdleColdEntry at e
  repeat' (first | (cases e; done) | (injection e with e; subst e) | split at e)
  all_goals (with_reducible repeat' (first | assumption | (refine Sub.of 1098687 ?_ hmsk; with_unfolding_all rfl) | apply State.live_keeps | apply State.coldTry_keeps | intro _ | (dsimp only)))

theorem State.firstPrints_keeps {msk : Nat} {sb s : State} (hmsk : Sub 16 msk) (hK : Keeps msk sb s) : Keeps msk sb (State.firstPrints s) := by
  unfold State.firstPrints; (with_reducible repeat' (first | assumption | (refine Sub.of 16 ?_ hmsk; with_unfolding_all rfl) | apply State.modJob_keeps | intro _ | split | (dsimp only)))

theorem State.printStarts_keeps {msk : Nat} {sb s : State} (hmsk : Sub 1098751 msk) (hK : Keeps msk sb s) : Keeps msk sb (State.printStarts s) := by
  unfold State.printStarts; (with_reducible repeat' (first | assumption | (refine Sub.of 1098751 ?_ hmsk; with_unfolding_all rfl) | apply State.settleStarts_keeps | apply State.arm_keeps | apply State.setMode_keeps | apply State.firstPrints_keeps | (dsimp only)))

theorem State.serviceStarts_keeps {msk : Nat} {sb s : State} (fn : ServiceFn) (hmsk : Sub 1098751 msk) (hK : Keeps msk sb s) : Keeps msk sb (State.serviceStarts s fn) := by
  unfold State.serviceStarts; (with_reducible repeat' (first | assumption | (refine Sub.of 1098751 ?_ hmsk; with_unfolding_all rfl) | (refine fun (hb : msk.testBit 20 = false) => ?_; with_unfolding_all exact (Sub.off (p := .mode) 1098751 hmsk rfl hb).elim) | apply State.onSys_keeps | apply State.setMode_keeps | apply State.arm_keeps | intro _ | split | (dsimp only)))

theorem State.serviceLeaves_keeps {msk : Nat} {sb s : State} (hmsk : Sub 1106879 msk) (hK : Keeps msk sb s) : Keeps msk sb (State.serviceLeaves s) := by
  unfold State.serviceLeaves; (with_reducible repeat' (first | assumption | (refine Sub.of 1106879 ?_ hmsk; with_unfolding_all rfl) | apply State.firingOver_keeps | apply State.leaveFlow_keeps | (dsimp only)))

theorem State.unlatch_keeps {msk : Nat} {sb s : State} (hmsk : Sub 262144 msk) (hK : Keeps msk sb s) : Keeps msk sb (State.unlatch s) := by
  unfold State.unlatch; (with_reducible repeat' (first | assumption | (refine Sub.of 262144 ?_ hmsk; with_unfolding_all rfl) | apply State.onPad_keeps | intro _ | split | (dsimp only)))

theorem State.reqDo_keeps {msk : Nat} {sb s : State} (r : ModeReq) (held : Bool) (hmsk : Sub 1373183 msk) (hK : Keeps msk sb s) : Keeps msk sb (State.reqDo s r held) := by
  unfold State.reqDo; (with_reducible repeat' (first | assumption | (refine Sub.of 1373183 ?_ hmsk; with_unfolding_all rfl) | (refine fun (hb : msk.testBit 23 = false) => ?_; intro _; first | rfl | (dsimp only; split <;> rfl)) | apply State.readyLeaves_keeps | apply State.wake_keeps | apply State.coldEnter_keeps | apply State.bind_keeps | apply State.setMode_keeps | apply State.readyFlush_keeps | apply State.enterFlow_keeps | apply State.printStarts_keeps | apply State.serviceStarts_keeps | apply State.stopDo_keeps | apply State.unlatch_keeps | apply State.clearHalt_keeps | apply State.onTbl_keeps | apply State.serviceLeaves_keeps | intro _ | split | (dsimp only)))

theorem State.reqAct_keeps {msk : Nat} {sb s : State} (r : ModeReq) (held : Bool) (hmsk : Sub 1373183 msk) (hK : Keeps msk sb s) : Keeps msk sb (State.reqAct s r held) := by
  unfold State.reqAct; (with_reducible repeat' (first | assumption | (refine Sub.of 1373183 ?_ hmsk; with_unfolding_all rfl) | apply State.forward_keeps | apply State.reqDo_keeps | (dsimp only)))

theorem State.request_keeps {msk : Nat} {sb s : State} (r : ModeReq) (hmsk : Sub 1373183 msk) (hK : Keeps msk sb s) : Keeps msk sb (State.request s r).1 := by
  unfold State.request; (with_reducible repeat' (first | assumption | (refine Sub.of 1373183 ?_ hmsk; with_unfolding_all rfl) | (refine fun (hb : msk.testBit 20 = false) => ?_; with_unfolding_all exact (Sub.off (p := .mode) 1373183 hmsk rfl hb).elim) | apply State.stopReq_keeps | apply State.reqRejected_keeps | apply State.bindPrep_keeps | apply State.onSys_keeps | apply State.reqAct_keeps | intro _ | split | (dsimp only)))

theorem State.modeReq_keeps {msk : Nat} {sb s : State} (ses : Fin 5) (r : ModeReq) (hmsk : Sub 1373183 msk) (hK : Keeps msk sb s) : Keeps msk sb (State.modeReq s ses r) := by
  unfold State.modeReq; (with_reducible repeat' (first | assumption | (refine Sub.of 1373183 ?_ hmsk; with_unfolding_all rfl) | apply State.sesReach_keeps | apply State.unlatch_keeps | apply State.auditWrite_keeps | apply State.request_keeps | intro _ | split | (dsimp only) | (rename_i e; replace e := Option.map_eq_some_iff.mp e; obtain ⟨_, e, rfl⟩ := e) | (rename_i e; cases e; done) | (rename_i e; injection e with e; subst e) | (rename_i e; dsimp only at e) | (rename_i e; split at e)))

theorem State.reqCmd_keeps {msk : Nat} {sb s : State} (ses : Fin 5) (r : ModeReq) (hmsk : Sub 26607615 msk) (hK : Keeps msk sb s) : Keeps msk sb (State.reqCmd s ses r) := by
  unfold State.reqCmd; (with_reducible repeat' (first | assumption | (refine Sub.of 26607615 ?_ hmsk; with_unfolding_all rfl) | apply State.modeReq_keeps | apply State.settleFaults_keeps | (dsimp only)))

theorem execReqIdleWarm_keeps {msk : Nat} {sb s : State} (ses : Fin 5) (hmsk : Sub 26607615 msk) (hK : Keeps msk sb s) : ∀ t, execReqIdleWarm ses s = .next t → Keeps msk sb t := by
  intro t e; unfold execReqIdleWarm at e
  repeat' (first | (cases e; done) | (injection e with e; subst e) | split at e)
  all_goals (with_reducible repeat' (first | assumption | (refine Sub.of 26607615 ?_ hmsk; with_unfolding_all rfl) | apply State.reqCmd_keeps | (dsimp only)))

theorem execReqIdleCold_keeps {msk : Nat} {sb s : State} (ses : Fin 5) (hmsk : Sub 26607615 msk) (hK : Keeps msk sb s) : ∀ t, execReqIdleCold ses s = .next t → Keeps msk sb t := by
  intro t e; unfold execReqIdleCold at e
  repeat' (first | (cases e; done) | (injection e with e; subst e) | split at e)
  all_goals (with_reducible repeat' (first | assumption | (refine Sub.of 26607615 ?_ hmsk; with_unfolding_all rfl) | apply State.reqCmd_keeps | (dsimp only)))

theorem execReqBindJob_keeps {msk : Nat} {sb s : State} (ses : Fin 5) (handle : BitVec 16) (hmsk : Sub 26607615 msk) (hK : Keeps msk sb s) : ∀ t, execReqBindJob ses handle s = .next t → Keeps msk sb t := by
  intro t e; unfold execReqBindJob at e
  repeat' (first | (cases e; done) | (injection e with e; subst e) | split at e)
  all_goals (with_reducible repeat' (first | assumption | (refine Sub.of 26607615 ?_ hmsk; with_unfolding_all rfl) | apply State.reqCmd_keeps | (dsimp only)))

theorem execReqRun_keeps {msk : Nat} {sb s : State} (ses : Fin 5) (hmsk : Sub 26607615 msk) (hK : Keeps msk sb s) : ∀ t, execReqRun ses s = .next t → Keeps msk sb t := by
  intro t e; unfold execReqRun at e
  repeat' (first | (cases e; done) | (injection e with e; subst e) | split at e)
  all_goals (with_reducible repeat' (first | assumption | (refine Sub.of 26607615 ?_ hmsk; with_unfolding_all rfl) | apply State.reqCmd_keeps | (dsimp only)))

theorem execReqEnterService_keeps {msk : Nat} {sb s : State} (ses : Fin 5) (fn : ServiceFn) (hmsk : Sub 26607615 msk) (hK : Keeps msk sb s) : ∀ t, execReqEnterService ses fn s = .next t → Keeps msk sb t := by
  intro t e; unfold execReqEnterService at e
  repeat' (first | (cases e; done) | (injection e with e; subst e) | split at e)
  all_goals (with_reducible repeat' (first | assumption | (refine Sub.of 26607615 ?_ hmsk; with_unfolding_all rfl) | apply State.reqCmd_keeps | (dsimp only)))

theorem execReqStop_keeps {msk : Nat} {sb s : State} (ses : Fin 5) (hmsk : Sub 26607615 msk) (hK : Keeps msk sb s) : ∀ t, execReqStop ses s = .next t → Keeps msk sb t := by
  intro t e; unfold execReqStop at e
  repeat' (first | (cases e; done) | (injection e with e; subst e) | split at e)
  all_goals (with_reducible repeat' (first | assumption | (refine Sub.of 26607615 ?_ hmsk; with_unfolding_all rfl) | apply State.reqCmd_keeps | (dsimp only)))

theorem execReqClearHalt_keeps {msk : Nat} {sb s : State} (ses : Fin 5) (hmsk : Sub 26607615 msk) (hK : Keeps msk sb s) : ∀ t, execReqClearHalt ses s = .next t → Keeps msk sb t := by
  intro t e; unfold execReqClearHalt at e
  repeat' (first | (cases e; done) | (injection e with e; subst e) | split at e)
  all_goals (with_reducible repeat' (first | assumption | (refine Sub.of 26607615 ?_ hmsk; with_unfolding_all rfl) | apply State.reqCmd_keeps | (dsimp only)))

theorem execReqJoinStandby_keeps {msk : Nat} {sb s : State} (ses : Fin 5) (hmsk : Sub 26607615 msk) (hK : Keeps msk sb s) : ∀ t, execReqJoinStandby ses s = .next t → Keeps msk sb t := by
  intro t e; unfold execReqJoinStandby at e
  repeat' (first | (cases e; done) | (injection e with e; subst e) | split at e)
  all_goals (with_reducible repeat' (first | assumption | (refine Sub.of 26607615 ?_ hmsk; with_unfolding_all rfl) | apply State.reqCmd_keeps | (dsimp only)))

theorem execReqLeaveService_keeps {msk : Nat} {sb s : State} (ses : Fin 5) (hmsk : Sub 26607615 msk) (hK : Keeps msk sb s) : ∀ t, execReqLeaveService ses s = .next t → Keeps msk sb t := by
  intro t e; unfold execReqLeaveService at e
  repeat' (first | (cases e; done) | (injection e with e; subst e) | split at e)
  all_goals (with_reducible repeat' (first | assumption | (refine Sub.of 26607615 ?_ hmsk; with_unfolding_all rfl) | apply State.reqCmd_keeps | (dsimp only)))

theorem State.reqApply_keeps {msk : Nat} {sb s : State} (hmsk : Sub 1373183 msk) (hK : Keeps msk sb s) : Keeps msk sb (State.reqApply s) := by
  unfold State.reqApply; (with_reducible repeat' (first | assumption | (refine Sub.of 1373183 ?_ hmsk; with_unfolding_all rfl) | (refine fun (hb : msk.testBit 20 = false) => ?_; with_unfolding_all exact (Sub.off (p := .mode) 1373183 hmsk rfl hb).elim) | apply State.onSys_keeps | apply State.bindPrep_keeps | apply State.reqRejected_keeps | apply State.reqAct_keeps | intro _ | split | (dsimp only)))

theorem State.boundaryActs_keeps {msk : Nat} {sb s : State} (hmsk : Sub 1897471 msk) (hK : Keeps msk sb s) : Keeps msk sb (State.boundaryActs s) := by
  unfold State.boundaryActs; (with_reducible repeat' (first | assumption | (refine Sub.of 1897471 ?_ hmsk; with_unfolding_all rfl) | apply State.reqApply_keeps | apply State.firingEnds_keeps | split | (dsimp only)))

theorem execRequestTimeout_keeps {msk : Nat} {sb s : State} (hmsk : Sub 27131903 msk) (hK : Keeps msk sb s) : ∀ t, execRequestTimeout s = .next t → Keeps msk sb t := by
  intro t e; unfold execRequestTimeout at e
  repeat' (first | (cases e; done) | (injection e with e; subst e) | split at e)
  all_goals (with_reducible repeat' (first | assumption | (refine Sub.of 27131903 ?_ hmsk; with_unfolding_all rfl) | apply State.liveF_keeps | apply State.when_keeps | apply State.boundaryActs_keeps | intro _ | (dsimp only)))

theorem execPendingRequestApply_keeps {msk : Nat} {sb s : State} (hmsk : Sub 1373183 msk) (hK : Keeps msk sb s) : ∀ t, execPendingRequestApply s = .next t → Keeps msk sb t := by
  intro t e; unfold execPendingRequestApply at e
  repeat' (first | (cases e; done) | (injection e with e; subst e) | split at e)
  all_goals (with_reducible repeat' (first | assumption | (refine Sub.of 1373183 ?_ hmsk; with_unfolding_all rfl) | apply State.live_keeps | apply State.reqApply_keeps | intro _ | split | (dsimp only)))

end Sys2Proof.Machine
end

