-- ==== Sys2Proof/Laws/KeepsQueues.lean ====
section
/-! SUPPORT. What each operation of Machine/Queues.lean keeps: the queue, and the canonical form of the register maps. -/
set_option Elab.async false
namespace Sys2Proof.Machine

theorem State.segOffer_keeps {msk : Nat} {sb s : State} (q : Fin 64) (x : FrameSeg) (hmsk : Sub 16860172 msk) (hK : Keeps msk sb s) : Keeps msk sb (State.segOffer s q x) := by
  unfold State.segOffer; (with_reducible repeat' (first | assumption | (refine Sub.of 16860172 ?_ hmsk; with_unfolding_all rfl) | apply State.when_keeps | apply State.onCam_keeps | apply State.settle_keeps | apply State.qPut_keeps | apply State.bump_keeps | apply State.missing_keeps | intro _ | split | (dsimp only)))

theorem State.entryIn_keeps {msk : Nat} {sb s : State} (q : Fin 64) (e : Entry) (hmsk : Sub 16860172 msk) (hK : Keeps msk sb s) : Keeps msk sb (State.entryIn s q e) := by
  unfold State.entryIn; (with_reducible repeat' (first | assumption | (refine Sub.of 16860172 ?_ hmsk; with_unfolding_all rfl) | apply State.segPut_keeps | apply State.segOffer_keeps | apply State.qOffer_keeps | split | (dsimp only)))

theorem execQueueEntryWrite_keeps {msk : Nat} {sb s : State} (q : Fin 64) (e : Entry) (hmsk : Sub 16860172 msk) (hK : Keeps msk sb s) : ∀ t, execQueueEntryWrite q e s = .next t → Keeps msk sb t := by
  intro t e; unfold execQueueEntryWrite at e
  repeat' (first | (cases e; done) | (injection e with e; subst e) | split at e)
  all_goals (with_reducible repeat' (first | assumption | (refine Sub.of 16860172 ?_ hmsk; with_unfolding_all rfl) | apply State.live_keeps | apply State.entryIn_keeps | intro _ | (dsimp only)))

theorem State.framesLost_keeps {msk : Nat} {sb s : State} (l : List (Nat × Nat)) (hmsk : Sub 16860172 msk) (hK : Keeps msk sb s) : Keeps msk sb (State.framesLost s l) := by
  unfold State.framesLost; (with_reducible repeat' (first | assumption | (refine Sub.of 16860172 ?_ hmsk; with_unfolding_all rfl) | apply State.onGrp_keeps | apply State.missing_keeps | apply State.onCam_keeps | apply Keeps.foldl | apply Keeps.foldlFst | intro _ | split | (dsimp only)))

theorem State.statsLost_keeps {msk : Nat} {sb s : State} (l : List StatRec) (hmsk : Sub 2052 msk) (hK : Keeps msk sb s) : Keeps msk sb (State.statsLost s l) := by
  unfold State.statsLost; (with_reducible repeat' (first | assumption | (refine Sub.of 2052 ?_ hmsk; with_unfolding_all rfl) | apply State.bumpBy_keeps | apply State.onChl_keeps | intro _ | split | (dsimp only)))

theorem State.qResetCost_keeps {msk : Nat} {sb s : State} (q : Fin 64) (lost : List Entry) (hmsk : Sub 16862236 msk) (hK : Keeps msk sb s) : Keeps msk sb (State.qResetCost s q lost) := by
  unfold State.qResetCost; (with_reducible repeat' (first | assumption | (refine Sub.of 16862236 ?_ hmsk; with_unfolding_all rfl) | (refine fun (hb : msk.testBit 23 = false) => ?_; intro _; first | rfl | (dsimp only; split <;> rfl)) | apply State.when_keeps | apply State.onTbl_keeps | apply State.onIng_keeps | apply State.framesLost_keeps | apply State.statsLost_keeps | apply State.markLost_keeps | apply State.raise_keeps | intro _ | split | (dsimp only)))

theorem State.pointerReset_keeps {msk : Nat} {sb s : State} (q : Fin 64) (hmsk : Sub 16862236 msk) (hK : Keeps msk sb s) : Keeps msk sb (State.pointerReset s q) := by
  unfold State.pointerReset; (with_reducible repeat' (first | assumption | (refine Sub.of 16862236 ?_ hmsk; with_unfolding_all rfl) | apply State.onQ_keeps | apply State.bump_keeps | apply State.evtStore_keeps | apply State.evqLost_keeps | apply State.qResetCost_keeps | apply State.event_keeps | split | (dsimp only)))

theorem execQueuePointerMismatch_keeps {msk : Nat} {sb s : State} (q : Fin 64) (hmsk : Sub 16862236 msk) (hK : Keeps msk sb s) : ∀ t, execQueuePointerMismatch q s = .next t → Keeps msk sb t := by
  intro t e; unfold execQueuePointerMismatch at e
  repeat' (first | (cases e; done) | (injection e with e; subst e) | split at e)
  all_goals (with_reducible repeat' (first | assumption | (refine Sub.of 16862236 ?_ hmsk; with_unfolding_all rfl) | apply State.live_keeps | apply State.pointerReset_keeps | intro _ | (dsimp only)))

end Sys2Proof.Machine
end

