-- ==== Sys2Proof/Laws/KeepsThm.lean ====
section
/-! SUPPORT. What each operation of Machine/Thm.lean keeps: the queue, and the canonical form of the register maps. -/
set_option Elab.async false
namespace Sys2Proof.Machine

theorem State.stepEvent_keeps {msk : Nat} {sb s : State} (hmsk : Sub 12 msk) (hK : Keeps msk sb s) : Keeps msk sb (State.stepEvent s) := by
  unfold State.stepEvent; (with_reducible repeat' (first | assumption | (refine Sub.of 12 ?_ hmsk; with_unfolding_all rfl) | apply State.event_keeps | split | (dsimp only)))

theorem State.stepRise_keeps {msk : Nat} {sb s : State} (hmsk : Sub 32780 msk) (hK : Keeps msk sb s) : Keeps msk sb (State.stepRise s) := by
  unfold State.stepRise; (with_reducible repeat' (first | assumption | (refine Sub.of 32780 ?_ hmsk; with_unfolding_all rfl) | apply State.onThm_keeps | apply State.bump_keeps | apply State.stepEvent_keeps | intro _ | split | (dsimp only)))

theorem State.absTick_keeps {msk : Nat} {sb s : State} (t : Int) (hmsk : Sub 32768 msk) (hK : Keeps msk sb s) : Keeps msk sb (State.absTick s t) := by
  unfold State.absTick; (with_reducible repeat' (first | assumption | (refine Sub.of 32768 ?_ hmsk; with_unfolding_all rfl) | apply State.onThm_keeps | intro _ | split | (dsimp only)))

theorem State.stepDownS_keeps {msk : Nat} {sb s : State} (hmsk : Sub 32780 msk) (hK : Keeps msk sb s) : Keeps msk sb (State.stepDownS s) := by
  unfold State.stepDownS; (with_reducible repeat' (first | assumption | (refine Sub.of 32780 ?_ hmsk; with_unfolding_all rfl) | apply State.onThm_keeps | apply State.stepEvent_keeps | intro _ | split | (dsimp only)))

theorem execThrottleStepDown_keeps {msk : Nat} {sb s : State} (hmsk : Sub 32780 msk) (hK : Keeps msk sb s) : ∀ t, execThrottleStepDown s = .next t → Keeps msk sb t := by
  intro t e; unfold execThrottleStepDown at e
  repeat' (first | (cases e; done) | (injection e with e; subst e) | split at e)
  all_goals (with_reducible repeat' (first | assumption | (refine Sub.of 32780 ?_ hmsk; with_unfolding_all rfl) | apply State.live_keeps | apply State.stepDownS_keeps | intro _ | (dsimp only)))

theorem State.immediate_keeps {msk : Nat} {sb s : State} (hmsk : Sub 1635263 msk) (hK : Keeps msk sb s) : Keeps msk sb (State.immediate s) := by
  unfold State.immediate; (with_reducible repeat' (first | assumption | (refine Sub.of 1635263 ?_ hmsk; with_unfolding_all rfl) | apply State.onThm_keeps | apply State.bump_keeps | apply State.event_keeps | apply State.leaveStep_keeps | apply State.emergency_keeps | intro _ | split | (dsimp only)))

theorem State.thermalStop_keeps {msk : Nat} {sb s : State} (hmsk : Sub 1106879 msk) (hK : Keeps msk sb s) : Keeps msk sb (State.thermalStop s) := by
  unfold State.thermalStop; (with_reducible repeat' (first | assumption | (refine Sub.of 1106879 ?_ hmsk; with_unfolding_all rfl) | apply State.onThm_keeps | apply State.event_keeps | apply State.leaveStep_keeps | apply State.bump_keeps | apply State.orderlyStop_keeps | intro _ | split | (dsimp only)))

theorem State.judgeStop_keeps {msk : Nat} {sb s : State} (hmsk : Sub 1635263 msk) (hK : Keeps msk sb s) : Keeps msk sb (State.judgeStop s) := by
  unfold State.judgeStop; (with_reducible repeat' (first | assumption | (refine Sub.of 1635263 ?_ hmsk; with_unfolding_all rfl) | apply State.onThm_keeps | apply State.immediate_keeps | apply State.thermalStop_keeps | intro _ | split | (dsimp only)))

theorem State.bandTick_keeps {msk : Nat} {sb s : State} (t : Int) (first : Bool) (hmsk : Sub 33292 msk) (hK : Keeps msk sb s) : Keeps msk sb (State.bandTick s t first) := by
  unfold State.bandTick; (with_reducible repeat' (first | assumption | (refine Sub.of 33292 ?_ hmsk; with_unfolding_all rfl) | apply State.onThm_keeps | apply State.event_keeps | apply State.memBand_keeps | intro _ | split | (dsimp only)))

theorem State.thmPeak_keeps {msk : Nat} {sb s : State} (hmsk : Sub 4 msk) (hK : Keeps msk sb s) : Keeps msk sb (State.thmPeak s) := by
  unfold State.thmPeak; (with_reducible repeat' (first | assumption | (refine Sub.of 4 ?_ hmsk; with_unfolding_all rfl) | apply State.setF_keeps | split | (dsimp only)))

theorem State.sensorTick_keeps {msk : Nat} {sb s : State} (raw : Option Int) (bad : Bool) (hmsk : Sub 32780 msk) (hK : Keeps msk sb s) : Keeps msk sb (State.sensorTick s raw bad) := by
  unfold State.sensorTick; (with_reducible repeat' (first | assumption | (refine Sub.of 32780 ?_ hmsk; with_unfolding_all rfl) | apply State.onThm_keeps | apply State.event_keeps | intro _ | split | (dsimp only)))

theorem State.diodeReading_keeps {msk : Nat} {sb s : State} (adc : Option Int) (hmsk : Sub 1635263 msk) (hK : Keeps msk sb s) : Keeps msk sb (State.diodeReading s adc) := by
  unfold State.diodeReading; (with_reducible repeat' (first | assumption | (refine Sub.of 1635263 ?_ hmsk; with_unfolding_all rfl) | apply State.sensorTick_keeps | apply State.onThm_keeps | apply State.thmPeak_keeps | apply State.bandTick_keeps | apply State.absTick_keeps | apply State.stepRise_keeps | apply State.immediate_keeps | apply State.judgeStop_keeps | apply Keeps.getD | intro _ | split | (dsimp only) | (rename_i e; replace e := Option.map_eq_some_iff.mp e; obtain ⟨_, e, rfl⟩ := e) | (rename_i e; cases e; done) | (rename_i e; injection e with e; subst e) | (rename_i e; dsimp only at e) | (rename_i e; split at e)))

theorem execDiodeReading_keeps {msk : Nat} {sb s : State} (raw : Option Int) (hmsk : Sub 27131903 msk) (hK : Keeps msk sb s) : ∀ t, execDiodeReading raw s = .next t → Keeps msk sb t := by
  intro t e; unfold execDiodeReading at e
  repeat' (first | (cases e; done) | (injection e with e; subst e) | split at e)
  all_goals (with_reducible repeat' (first | assumption | (refine Sub.of 27131903 ?_ hmsk; with_unfolding_all rfl) | apply State.liveF_keeps | apply State.diodeReading_keeps | intro _ | (dsimp only)))

theorem State.rateTick_keeps {msk : Nat} {sb s : State} (hmsk : Sub 32768 msk) (hK : Keeps msk sb s) : Keeps msk sb (State.rateTick s) := by
  unfold State.rateTick; (with_reducible repeat' (first | assumption | (refine Sub.of 32768 ?_ hmsk; with_unfolding_all rfl) | apply State.onThm_keeps | intro _ | split | (dsimp only)))

theorem State.stopTick_keeps {msk : Nat} {sb s : State} (hmsk : Sub 1635263 msk) (hK : Keeps msk sb s) : Keeps msk sb (State.stopTick s) := by
  unfold State.stopTick; (with_reducible repeat' (first | assumption | (refine Sub.of 1635263 ?_ hmsk; with_unfolding_all rfl) | apply State.onThm_keeps | apply State.immediate_keeps | intro _ | split | (dsimp only)))

theorem State.riseSample_keeps {msk : Nat} {sb s : State} (hmsk : Sub 1635263 msk) (hK : Keeps msk sb s) : Keeps msk sb (State.riseSample s) := by
  unfold State.riseSample; (with_reducible repeat' (first | assumption | (refine Sub.of 1635263 ?_ hmsk; with_unfolding_all rfl) | apply State.onThm_keeps | apply State.setF_keeps | apply State.rateTick_keeps | apply State.stepRise_keeps | apply State.judgeStop_keeps | apply State.stopTick_keeps | intro _ | split | (dsimp only)))

theorem execRiseHistorySample_keeps {msk : Nat} {sb s : State} (hmsk : Sub 27131903 msk) (hK : Keeps msk sb s) : ∀ t, execRiseHistorySample s = .next t → Keeps msk sb t := by
  intro t e; unfold execRiseHistorySample at e
  repeat' (first | (cases e; done) | (injection e with e; subst e) | split at e)
  all_goals (with_reducible repeat' (first | assumption | (refine Sub.of 27131903 ?_ hmsk; with_unfolding_all rfl) | apply State.liveF_keeps | apply State.riseSample_keeps | intro _ | (dsimp only)))

end Sys2Proof.Machine
end

