-- ==== Sys2Proof/Laws/KeepsBoot.lean ====
section
/-! SUPPORT. What each operation of Machine/Boot.lean keeps: the queue, and the canonical form of the register maps. -/
set_option Elab.async false
namespace Sys2Proof.Machine

theorem swapIn_wf {m : RegMap} (h : RegMap.wf m = true) (q : Nat → Bool) (src : RegMap) : RegMap.wf (swapIn q src m) = true :=
  rmerge_wf (rfilter_wf h _) src

theorem Regs.load_wf {r : Regs} (h : r.wf = true) (img : RegMap) (q : Nat → Bool) : (r.load img q).wf = true := by
  obtain ⟨h1, h2, h3, h4, h5⟩ := (Regs.wf_iff _).mp h
  exact (Regs.wf_iff _).mpr ⟨swapIn_wf h1 _ _, swapIn_wf h2 _ _, rfilter_wf h3 (fun a => !q a), swapIn_wf h4 _ _, swapIn_wf h5 _ _⟩

theorem Regs.unstick_wf {r : Regs} (h : r.wf = true) (q : Nat → Bool) : (r.unstick q).wf = true := by
  obtain ⟨h1, h2, h3, h4, _⟩ := (Regs.wf_iff _).mp h
  exact (Regs.wf_iff _).mpr ⟨h1, h2, h3, h4, foldl_rset_wf (fun e : Nat × Word => e.1) _ _ nil_wf⟩

theorem resetRw_wf : RegMap.wf resetRw = true := by decide

theorem everyBit {m : Nat} (h : Sub 33554431 m) (p : Part) : m.testBit p.bit = true :=
  Sub.bit (Sub.of 33554431 (by cases p <;> rfl) h)

theorem State.qClear_keeps {msk : Nat} {sb s : State} (q : Fin 64) (hmsk : Sub 12 msk) (hK : Keeps msk sb s) : Keeps msk sb (State.qClear s q) := by
  unfold State.qClear; (with_reducible repeat' (first | assumption | (refine Sub.of 12 ?_ hmsk; with_unfolding_all rfl) | apply State.setF_keeps | apply State.onQ_keeps | intro _ | (dsimp only)))

theorem State.qLost_keeps {msk : Nat} {sb s : State} (q : Fin 64) (hmsk : Sub 16862236 msk) (hK : Keeps msk sb s) : Keeps msk sb (State.qLost s q) := by
  unfold State.qLost; (with_reducible repeat' (first | assumption | (refine Sub.of 16862236 ?_ hmsk; with_unfolding_all rfl) | apply State.qFlush_keeps | apply State.qResetCost_keeps | apply State.qClear_keeps | (dsimp only)))

theorem State.qsLost_keeps {msk : Nat} {sb s : State} (p : Nat → Bool) (hmsk : Sub 16862236 msk) (hK : Keeps msk sb s) : Keeps msk sb (State.qsLost s p) := by
  unfold State.qsLost; (with_reducible repeat' (first | assumption | (refine Sub.of 16862236 ?_ hmsk; with_unfolding_all rfl) | apply State.qLost_keeps | apply Keeps.foldl | apply Keeps.foldlFst | intro _ | split | (dsimp only)))

theorem State.ingRestart_keeps {msk : Nat} {sb s : State} (hmsk : Sub 16412 msk) (hK : Keeps msk sb s) : Keeps msk sb (State.ingRestart s) := by
  unfold State.ingRestart; (with_reducible repeat' (first | assumption | (refine Sub.of 16412 ?_ hmsk; with_unfolding_all rfl) | apply State.flr_keeps | apply State.onIng_keeps | intro _ | (dsimp only)))

theorem State.calBar_keeps {msk : Nat} {sb s : State} (b : Fin 8) (hmsk : Sub 36 msk) (hK : Keeps msk sb s) : Keeps msk sb (State.calBar s b) := by
  unfold State.calBar; (with_reducible repeat' (first | assumption | (refine Sub.of 36 ?_ hmsk; with_unfolding_all rfl) | apply State.onRegs_keeps | apply State.onBar_keeps | (refine (Regs.wf_iff _).mpr ⟨?_, ?_, ?_, ?_, ?_⟩) | apply rset_wf | apply rcopy_wf | apply rfilter_wf | apply rmerge_wf | apply foldl_rset_wf | exact nil_wf | apply swapIn_wf | exact ((Regs.wf_iff _).mp ‹_›).1 | exact ((Regs.wf_iff _).mp ‹_›).2.1 | exact ((Regs.wf_iff _).mp ‹_›).2.2.1 | exact ((Regs.wf_iff _).mp ‹_›).2.2.2.1 | exact ((Regs.wf_iff _).mp ‹_›).2.2.2.2 | apply Keeps.foldl | apply Keeps.foldlFst | intro _ | (dsimp only)))

theorem State.barAgain_keeps {msk : Nat} {sb s : State} (b : Fin 8) (hmsk : Sub 1 msk) (hK : Keeps msk sb s) : Keeps msk sb (State.barAgain s b) := by
  unfold State.barAgain; (with_reducible repeat' (first | assumption | (refine Sub.of 1 ?_ hmsk; with_unfolding_all rfl) | apply State.onJobs_keeps | intro _ | split | (dsimp only)))

theorem State.barRestart_keeps {msk : Nat} {sb s : State} (b : Fin 8) (hmsk : Sub 37 msk) (hK : Keeps msk sb s) : Keeps msk sb (State.barRestart s b) := by
  unfold State.barRestart; (with_reducible repeat' (first | assumption | (refine Sub.of 37 ?_ hmsk; with_unfolding_all rfl) | apply State.onBar_keeps | apply State.calBar_keeps | apply State.barAgain_keeps | intro _ | (dsimp only)))

theorem State.ltmRestart_keeps {msk : Nat} {sb s : State} (hmsk : Sub 140 msk) (hK : Keeps msk sb s) : Keeps msk sb (State.ltmRestart s) := by
  unfold State.ltmRestart; (with_reducible repeat' (first | assumption | (refine Sub.of 140 ?_ hmsk; with_unfolding_all rfl) | (refine fun (hb : msk.testBit 22 = false) => ?_; intro _; first | rfl | (dsimp only; split <;> rfl)) | apply State.onLtm_keeps | apply State.fineStart_keeps | intro _ | (dsimp only)))

theorem State.lanesRestart_keeps {msk : Nat} {sb s : State} (p : Fin 52 → Bool) (hmsk : Sub 256 msk) (hK : Keeps msk sb s) : Keeps msk sb (State.lanesRestart s p) := by
  unfold State.lanesRestart; (with_reducible repeat' (first | assumption | (refine Sub.of 256 ?_ hmsk; with_unfolding_all rfl) | apply State.onLane_keeps | apply State.laneDown_keeps | apply State.laneStart_keeps | apply Keeps.foldl | apply Keeps.foldlFst | intro _ | split | (dsimp only)))

theorem State.noStatus_keeps {msk : Nat} {sb s : State} (hmsk : Sub 128 msk) (hK : Keeps msk sb s) : Keeps msk sb (State.noStatus s) := by
  unfold State.noStatus; (with_reducible repeat' (first | assumption | (refine Sub.of 128 ?_ hmsk; with_unfolding_all rfl) | (refine fun (hb : msk.testBit 22 = false) => ?_; intro _; first | rfl | (dsimp only; split <;> rfl)) | apply State.onLtm_keeps | intro _ | (dsimp only)))

theorem State.motRestart_keeps {msk : Nat} {sb s : State} (hmsk : Sub 12364 msk) (hK : Keeps msk sb s) : Keeps msk sb (State.motRestart s) := by
  unfold State.motRestart; (with_reducible repeat' (first | assumption | (refine Sub.of 12364 ?_ hmsk; with_unfolding_all rfl) | apply State.seqFail_keeps | apply State.onMot_keeps | apply State.encRestart_keeps | apply State.lampReset_keeps | apply State.webStop_keeps | apply Keeps.foldl | apply Keeps.foldlFst | intro _ | split | (dsimp only)))

theorem State.timRestart_keeps {msk : Nat} {sb s : State} (hmsk : Sub 131072 msk) (hK : Keeps msk sb s) : Keeps msk sb (State.timRestart s) := by
  unfold State.timRestart; (with_reducible repeat' (first | assumption | (refine Sub.of 131072 ?_ hmsk; with_unfolding_all rfl) | apply State.onTim_keeps | intro _ | (dsimp only)))

theorem State.rolesLost_keeps {msk : Nat} {sb s : State} (hmsk : Sub 2097154 msk) (hK : Keeps msk sb s) : Keeps msk sb (State.rolesLost s) := by
  unfold State.rolesLost; (with_reducible repeat' (first | assumption | (refine Sub.of 2097154 ?_ hmsk; with_unfolding_all rfl) | (refine fun (hb : msk.testBit 21 = false) => ?_; with_unfolding_all exact (Sub.off (p := .roles) 2097154 hmsk rfl hb).elim) | apply State.endBurst_keeps | apply State.onSes_keeps | apply Keeps.foldl | apply Keeps.foldlFst | intro _ | (dsimp only)))

theorem State.calsLost_keeps {msk : Nat} {sb s : State} (hmsk : Sub 2112 msk) (hK : Keeps msk sb s) : Keeps msk sb (State.calsLost s) := by
  unfold State.calsLost; (with_reducible repeat' (first | assumption | (refine Sub.of 2112 ?_ hmsk; with_unfolding_all rfl) | apply State.calAbandon_keeps | apply State.onEnc_keeps | intro _ | (dsimp only)))

theorem State.padRestart_keeps {msk : Nat} {sb s : State} (hmsk : Sub 262144 msk) (hK : Keeps msk sb s) : Keeps msk sb (State.padRestart s) := by
  unfold State.padRestart; (with_reducible repeat' (first | assumption | (refine Sub.of 262144 ?_ hmsk; with_unfolding_all rfl) | apply State.onPad_keeps | intro _ | (dsimp only)))

theorem State.thmRestart_keeps {msk : Nat} {sb s : State} (hmsk : Sub 32768 msk) (hK : Keeps msk sb s) : Keeps msk sb (State.thmRestart s) := by
  unfold State.thmRestart; (with_reducible repeat' (first | assumption | (refine Sub.of 32768 ?_ hmsk; with_unfolding_all rfl) | apply State.onThm_keeps | intro _ | (dsimp only)))

theorem State.eyesHome_keeps {msk : Nat} {sb s : State} (hmsk : Sub 4 msk) (hK : Keeps msk sb s) : Keeps msk sb (State.eyesHome s) := by
  unfold State.eyesHome; (with_reducible repeat' (first | assumption | (refine Sub.of 4 ?_ hmsk; with_unfolding_all rfl) | apply State.onRegs_keeps | (refine (Regs.wf_iff _).mpr ⟨?_, ?_, ?_, ?_, ?_⟩) | apply rset_wf | apply rcopy_wf | apply rfilter_wf | apply rmerge_wf | apply foldl_rset_wf | exact nil_wf | apply swapIn_wf | exact ((Regs.wf_iff _).mp ‹_›).1 | exact ((Regs.wf_iff _).mp ‹_›).2.1 | exact ((Regs.wf_iff _).mp ‹_›).2.2.1 | exact ((Regs.wf_iff _).mp ‹_›).2.2.2.1 | exact ((Regs.wf_iff _).mp ‹_›).2.2.2.2 | apply Keeps.foldl | apply Keeps.foldlFst | intro _ | (dsimp only)))

theorem State.resetNote_keeps {msk : Nat} {sb s : State} (kind island : Nat) (hmsk : Sub 5 msk) (hK : Keeps msk sb s) : Keeps msk sb (State.resetNote s kind island) := by
  unfold State.resetNote; (with_reducible repeat' (first | assumption | (refine Sub.of 5 ?_ hmsk; with_unfolding_all rfl) | (refine fun (hb : msk.testBit 20 = false) => ?_; intro _; first | rfl | (dsimp only; split <;> rfl)) | apply State.onSys_keeps | apply State.bump_keeps | intro _ | (dsimp only)))

theorem State.warm_keeps {msk : Nat} {sb s : State} (hmsk : Sub 20971519 msk) (hK : Keeps msk sb s) : Keeps msk sb (State.warm s) := by
  unfold State.warm; (with_reducible repeat' (first | assumption | (refine Sub.of 20971519 ?_ hmsk; with_unfolding_all rfl) | (refine fun (hb : msk.testBit 20 = false) => ?_; with_unfolding_all exact (Sub.off (p := .mode) 20971519 hmsk rfl hb).elim) | (refine fun (hb : msk.testBit 22 = false) => ?_; intro _; first | rfl | (dsimp only; split <;> rfl)) | apply State.rolesLost_keeps | apply State.unbindAll_keeps | apply State.onSys_keeps | apply State.ingRestart_keeps | apply State.onLtm_keeps | apply State.onBar_keeps | apply State.ltmRestart_keeps | apply State.noStatus_keeps | apply State.visReset_keeps | apply State.onChl_keeps | apply State.motRestart_keeps | apply State.timRestart_keeps | apply State.thmRestart_keeps | apply State.calsLost_keeps | apply State.onLmp_keeps | apply State.onMot_keeps | apply State.onRegs_keeps | apply State.eyesHome_keeps | apply State.qFlush_keeps | apply State.qClear_keeps | apply State.clearBoards_keeps | apply State.coldWarm_keeps | apply State.lanesRestart_keeps | apply State.padRestart_keeps | apply State.resetNote_keeps | apply State.setMode_keeps | apply State.emergency_keeps | apply Regs.unstick_wf | (refine (Regs.wf_iff _).mpr ⟨?_, ?_, ?_, ?_, ?_⟩) | apply rset_wf | apply rcopy_wf | apply rfilter_wf | apply rmerge_wf | apply foldl_rset_wf | exact nil_wf | apply swapIn_wf | exact ((Regs.wf_iff _).mp ‹_›).1 | exact ((Regs.wf_iff _).mp ‹_›).2.1 | exact ((Regs.wf_iff _).mp ‹_›).2.2.1 | exact ((Regs.wf_iff _).mp ‹_›).2.2.2.1 | exact ((Regs.wf_iff _).mp ‹_›).2.2.2.2 | exact ((Regs.wf_iff _).mp (Regs.unstick_wf ‹_› _)).1 | exact ((Regs.wf_iff _).mp (Regs.unstick_wf ‹_› _)).2.1 | exact ((Regs.wf_iff _).mp (Regs.unstick_wf ‹_› _)).2.2.1 | exact ((Regs.wf_iff _).mp (Regs.unstick_wf ‹_› _)).2.2.2.1 | exact ((Regs.wf_iff _).mp (Regs.unstick_wf ‹_› _)).2.2.2.2 | apply Keeps.foldl | apply Keeps.foldlFst | intro _ | split | (dsimp only) | (rename_i e; replace e := Option.map_eq_some_iff.mp e; obtain ⟨_, e, rfl⟩ := e) | (rename_i e; cases e; done) | (rename_i e; injection e with e; subst e) | (rename_i e; dsimp only at e) | (rename_i e; split at e)))

theorem State.tblRestart_keeps {msk : Nat} {sb s : State} (hmsk : Sub 1098687 msk) (hK : Keeps msk sb s) : Keeps msk sb (State.tblRestart s) := by
  unfold State.tblRestart; (with_reducible repeat' (first | assumption | (refine Sub.of 1098687 ?_ hmsk; with_unfolding_all rfl) | (refine fun (hb : msk.testBit 23 = false) => ?_; intro _; first | rfl | (dsimp only; split <;> rfl)) | apply State.lanesRestart_keeps | apply State.onTbl_keeps | apply State.leaveStep_keeps | intro _ | split | (dsimp only)))

theorem State.islandActs_keeps {msk : Nat} {sb s : State} (i : Island) (hmsk : Sub 3604479 msk) (hK : Keeps msk sb s) : Keeps msk sb (State.islandActs s i) := by
  unfold State.islandActs; (with_reducible repeat' (first | assumption | (refine Sub.of 3604479 ?_ hmsk; with_unfolding_all rfl) | (refine fun (hb : msk.testBit 22 = false) => ?_; intro _; first | rfl | (dsimp only; split <;> rfl)) | apply State.rolesLost_keeps | apply State.timRestart_keeps | apply State.calsLost_keeps | apply State.padRestart_keeps | apply State.ingRestart_keeps | apply State.barRestart_keeps | apply State.barAgain_keeps | apply State.onLnk_keeps | apply State.ltmRestart_keeps | apply State.lanesRestart_keeps | apply State.noStatus_keeps | apply State.tblRestart_keeps | apply State.capNow_keeps | apply State.calAbandon_keeps | apply State.visReset_keeps | apply State.onVis_keeps | apply State.calBar_keeps | apply State.chlReset_keeps | apply State.onLtm_keeps | apply State.fineScan_keeps | apply State.onMot_keeps | apply State.motRestart_keeps | apply State.asShadow_keeps | apply State.seqsSince_keeps | apply Keeps.foldl | apply Keeps.foldlFst | intro _ | split | (dsimp only)))

theorem State.islandRegs_keeps {msk : Nat} {sb s : State} (i : Island) (hmsk : Sub 4 msk) (hK : Keeps msk sb s) : Keeps msk sb (State.islandRegs s i) := by
  unfold State.islandRegs; (with_reducible repeat' (first | assumption | (refine Sub.of 4 ?_ hmsk; with_unfolding_all rfl) | apply State.onRegs_keeps | apply Regs.load_wf | (refine (Regs.wf_iff _).mpr ⟨?_, ?_, ?_, ?_, ?_⟩) | apply rset_wf | apply rcopy_wf | apply rfilter_wf | apply rmerge_wf | apply foldl_rset_wf | exact nil_wf | apply swapIn_wf | exact ((Regs.wf_iff _).mp ‹_›).1 | exact ((Regs.wf_iff _).mp ‹_›).2.1 | exact ((Regs.wf_iff _).mp ‹_›).2.2.1 | exact ((Regs.wf_iff _).mp ‹_›).2.2.2.1 | exact ((Regs.wf_iff _).mp ‹_›).2.2.2.2 | exact ((Regs.wf_iff _).mp (Regs.load_wf ‹_› _ _)).1 | exact ((Regs.wf_iff _).mp (Regs.load_wf ‹_› _ _)).2.1 | exact ((Regs.wf_iff _).mp (Regs.load_wf ‹_› _ _)).2.2.1 | exact ((Regs.wf_iff _).mp (Regs.load_wf ‹_› _ _)).2.2.2.1 | exact ((Regs.wf_iff _).mp (Regs.load_wf ‹_› _ _)).2.2.2.2 | intro _ | split | (dsimp only) | (rename_i e; replace e := Option.map_eq_some_iff.mp e; obtain ⟨_, e, rfl⟩ := e) | (rename_i e; cases e; done) | (rename_i e; injection e with e; subst e) | (rename_i e; dsimp only at e) | (rename_i e; split at e)))

theorem State.islandReset_keeps {msk : Nat} {sb s : State} (i : Island) (code : Nat) (hmsk : Sub 20447231 msk) (hK : Keeps msk sb s) : Keeps msk sb (State.islandReset s i code) := by
  unfold State.islandReset; (with_reducible repeat' (first | assumption | (refine Sub.of 20447231 ?_ hmsk; with_unfolding_all rfl) | apply State.clearBoards_keeps | apply State.when_keeps | apply State.islandRegs_keeps | apply State.islandActs_keeps | apply State.qsLost_keeps | apply State.resetNote_keeps | intro _ | split | (dsimp only)))

theorem State.restart_keeps {m : Nat} {sb s : State} (hm : Sub 33554431 m) (hK : Keeps m sb s) : Keeps m sb (State.restart s) :=
  ⟨(State.recCut_keeps (Sub.of 33554431 rfl hm) hK).pending, fun _ => (Regs.wf_iff _).mpr ⟨resetRw_wf, nil_wf, nil_wf, nil_wf, nil_wf⟩,
    fun p hp => absurd (everyBit hm p) (by rw [hp]; exact Bool.false_ne_true)⟩

theorem State.powerReset_keeps {msk : Nat} {sb s : State} (low : Bool) (hmsk : Sub 33554431 msk) (hK : Keeps msk sb s) : Keeps msk sb (State.powerReset s low) := by
  unfold State.powerReset; (with_reducible repeat' (first | assumption | (refine Sub.of 33554431 ?_ hmsk; with_unfolding_all rfl) | (refine fun (hb : msk.testBit 20 = false) => ?_; with_unfolding_all exact (Sub.off (p := .mode) 33554431 hmsk rfl hb).elim) | apply State.restart_keeps | apply State.onSys_keeps | intro _ | (dsimp only)))

theorem State.hardReset_keeps {m : Nat} {sb s : State} (kind : Nat) (low : Bool) (hm : Sub 33554431 m) (hK : Keeps m sb s) :
    Keeps m sb (State.hardReset s kind low) :=
  ⟨(State.restart_keeps hm hK).pending, fun _ => (Regs.wf_iff _).mpr ⟨resetRw_wf, nil_wf, nil_wf, nil_wf, rset_wf nil_wf _ _⟩,
    fun p hp => absurd (everyBit hm p) (by rw [hp]; exact Bool.false_ne_true)⟩

theorem execPowerOn_keeps {msk : Nat} {sb s : State} (hmsk : Sub 33554431 msk) (hK : Keeps msk sb s) : ∀ t, execPowerOn s = .next t → Keeps msk sb t := by
  intro t e; unfold execPowerOn at e
  repeat' (first | (cases e; done) | (injection e with e; subst e) | split at e)
  all_goals (with_reducible repeat' (first | assumption | (refine Sub.of 33554431 ?_ hmsk; with_unfolding_all rfl) | apply State.powerReset_keeps | (dsimp only)))

theorem execPowerLoss_keeps {msk : Nat} {sb s : State} (hmsk : Sub 33554431 msk) (hK : Keeps msk sb s) : ∀ t, execPowerLoss s = .next t → Keeps msk sb t := by
  intro t e; unfold execPowerLoss at e
  repeat' (first | (cases e; done) | (injection e with e; subst e) | split at e)
  all_goals (with_reducible repeat' (first | assumption | (refine Sub.of 33554431 ?_ hmsk; with_unfolding_all rfl) | (refine fun (hb : msk.testBit 20 = false) => ?_; with_unfolding_all exact (Sub.off (p := .mode) 33554431 hmsk rfl hb).elim) | apply State.restart_keeps | apply State.onSys_keeps | intro _ | (dsimp only)))

theorem execSupplyDip_keeps {msk : Nat} {sb s : State} (hmsk : Sub 33554431 msk) (hK : Keeps msk sb s) : ∀ t, execSupplyDip s = .next t → Keeps msk sb t := by
  intro t e; unfold execSupplyDip at e
  repeat' (first | (cases e; done) | (injection e with e; subst e) | split at e)
  all_goals (with_reducible repeat' (first | assumption | (refine Sub.of 33554431 ?_ hmsk; with_unfolding_all rfl) | apply State.when_keeps | apply State.powerReset_keeps | intro _ | (dsimp only)))

theorem State.resetLow_keeps {msk : Nat} {sb s : State} (ns : Nat) (hmsk : Sub 33554431 msk) (hK : Keeps msk sb s) : Keeps msk sb (State.resetLow s ns) := by
  unfold State.resetLow; (with_reducible repeat' (first | assumption | (refine Sub.of 33554431 ?_ hmsk; with_unfolding_all rfl) | apply State.hardReset_keeps | apply State.drawn_keeps | split | (dsimp only)))

theorem execResetNLow_keeps {msk : Nat} {sb s : State} (ns : Nat) (hmsk : Sub 33554431 msk) (hK : Keeps msk sb s) : ∀ t, execResetNLow ns s = .next t → Keeps msk sb t := by
  intro t e; unfold execResetNLow at e
  repeat' (first | (cases e; done) | (injection e with e; subst e) | split at e)
  all_goals (with_reducible repeat' (first | assumption | (refine Sub.of 33554431 ?_ hmsk; with_unfolding_all rfl) | apply State.resetLow_keeps | (dsimp only)))

theorem execResetNRise_keeps {msk : Nat} {sb s : State} (seatId testEn : Bool) (hmsk : Sub 262145 msk) (hK : Keeps msk sb s) : ∀ t, execResetNRise seatId testEn s = .next t → Keeps msk sb t := by
  intro t e; unfold execResetNRise at e
  repeat' (first | (cases e; done) | (injection e with e; subst e) | split at e)
  all_goals (with_reducible repeat' (first | assumption | (refine Sub.of 262145 ?_ hmsk; with_unfolding_all rfl) | (refine fun (hb : msk.testBit 20 = false) => ?_; intro _; first | rfl | (dsimp only; split <;> rfl)) | apply State.when_keeps | apply State.onSys_keeps | apply State.onPad_keeps | intro _ | (dsimp only)))

theorem State.resetCmd_keeps {msk : Nat} {sb s : State} (ses : Fin 5) (w : Word) (hmsk : Sub 33554431 msk) (hK : Keeps msk sb s) : Keeps msk sb (State.resetCmd s ses w) := by
  unfold State.resetCmd; (with_reducible repeat' (first | assumption | (refine Sub.of 33554431 ?_ hmsk; with_unfolding_all rfl) | apply State.sesReach_keeps | apply State.auditWrite_keeps | apply State.hardReset_keeps | apply State.warm_keeps | apply State.islandReset_keeps | intro _ | split | (dsimp only) | (rename_i e; replace e := Option.map_eq_some_iff.mp e; obtain ⟨_, e, rfl⟩ := e) | (rename_i e; cases e; done) | (rename_i e; injection e with e; subst e) | (rename_i e; dsimp only at e) | (rename_i e; split at e)))

theorem execWarmReset_keeps {msk : Nat} {sb s : State} (ses : Fin 5) (confirm : Byte) (hmsk : Sub 33554431 msk) (hK : Keeps msk sb s) : ∀ t, execWarmReset ses confirm s = .next t → Keeps msk sb t := by
  intro t e; unfold execWarmReset at e
  repeat' (first | (cases e; done) | (injection e with e; subst e) | split at e)
  all_goals (with_reducible repeat' (first | assumption | (refine Sub.of 33554431 ?_ hmsk; with_unfolding_all rfl) | apply State.resetCmd_keeps | apply State.settleFaults_keeps | (dsimp only)))

theorem execIslandReset_keeps {msk : Nat} {sb s : State} (ses : Fin 5) (island confirm : Byte) (hmsk : Sub 33554431 msk) (hK : Keeps msk sb s) : ∀ t, execIslandReset ses island confirm s = .next t → Keeps msk sb t := by
  intro t e; unfold execIslandReset at e
  repeat' (first | (cases e; done) | (injection e with e; subst e) | split at e)
  all_goals (with_reducible repeat' (first | assumption | (refine Sub.of 33554431 ?_ hmsk; with_unfolding_all rfl) | apply State.resetCmd_keeps | apply State.settleFaults_keeps | (dsimp only)))

theorem execHardResetCommand_keeps {msk : Nat} {sb s : State} (ses : Fin 5) (confirm : Byte) (hmsk : Sub 33554431 msk) (hK : Keeps msk sb s) : ∀ t, execHardResetCommand ses confirm s = .next t → Keeps msk sb t := by
  intro t e; unfold execHardResetCommand at e
  repeat' (first | (cases e; done) | (injection e with e; subst e) | split at e)
  all_goals (with_reducible repeat' (first | assumption | (refine Sub.of 33554431 ?_ hmsk; with_unfolding_all rfl) | apply State.resetCmd_keeps | (dsimp only)))

theorem Cfg.calLoad_sess (c : Cfg) : c.calLoad.sess = c.sess := by unfold Cfg.calLoad; repeat' (first | rfl | split)

theorem Cfg.auditLoad_sess (c : Cfg) : c.auditLoad.sess = c.sess := by unfold Cfg.auditLoad; repeat' (first | rfl | split)

theorem State.nvmLoad_keeps {m : Nat} {sb s : State} (d : NvmDev) (hm : Sub 2 m) (hK : Keeps m sb s) : Keeps m sb (State.nvmLoad s d) :=
  State.onCfg_keeps _ (Sub.of 2 rfl hm) hK (fun _ c n => by rw [Cfg.auditLoad_sess, Cfg.calLoad_sess]; rfl)

theorem State.imageLoad_keeps {msk : Nat} {sb s : State} (b : Fin 2) (i : Image) (fell : Bool) (hmsk : Sub 2 msk) (hK : Keeps msk sb s) : Keeps msk sb (State.imageLoad s b i fell) := by
  unfold State.imageLoad; (with_reducible repeat' (first | assumption | (refine Sub.of 2 ?_ hmsk; with_unfolding_all rfl) | (refine fun (hb : msk.testBit 21 = false) => ?_; intro _ n; first | rfl | exact role_vmod _ _ n (fun _ => rfl) | (dsimp only; split <;> rfl)) | apply State.onCfg_keeps | intro _ | (dsimp only)))

theorem State.valuesLoad_keeps {msk : Nat} {sb s : State} (hmsk : Sub 81316 msk) (hK : Keeps msk sb s) : Keeps msk sb (State.valuesLoad s) := by
  unfold State.valuesLoad; (with_reducible repeat' (first | assumption | (refine Sub.of 81316 ?_ hmsk; with_unfolding_all rfl) | (refine fun (hb : msk.testBit 22 = false) => ?_; intro _; first | rfl | (dsimp only; split <;> rfl)) | (refine fun (hb : msk.testBit 24 = false) => ?_; intro _; first | rfl | (dsimp only; split <;> rfl)) | apply State.onRegs_keeps | apply State.onLnk_keeps | apply State.onMot_keeps | apply State.onBar_keeps | apply State.calBar_keeps | apply State.onVis_keeps | apply State.onChl_keeps | apply State.onLtm_keeps | apply State.onLmp_keeps | apply State.onFlt_keeps | apply Regs.load_wf | (refine (Regs.wf_iff _).mpr ⟨?_, ?_, ?_, ?_, ?_⟩) | apply rset_wf | apply rcopy_wf | apply rfilter_wf | apply rmerge_wf | apply foldl_rset_wf | exact nil_wf | apply swapIn_wf | exact ((Regs.wf_iff _).mp ‹_›).1 | exact ((Regs.wf_iff _).mp ‹_›).2.1 | exact ((Regs.wf_iff _).mp ‹_›).2.2.1 | exact ((Regs.wf_iff _).mp ‹_›).2.2.2.1 | exact ((Regs.wf_iff _).mp ‹_›).2.2.2.2 | exact ((Regs.wf_iff _).mp (Regs.load_wf ‹_› _ _)).1 | exact ((Regs.wf_iff _).mp (Regs.load_wf ‹_› _ _)).2.1 | exact ((Regs.wf_iff _).mp (Regs.load_wf ‹_› _ _)).2.2.1 | exact ((Regs.wf_iff _).mp (Regs.load_wf ‹_› _ _)).2.2.2.1 | exact ((Regs.wf_iff _).mp (Regs.load_wf ‹_› _ _)).2.2.2.2 | apply Keeps.foldl | apply Keeps.foldlFst | intro _ | split | (dsimp only) | (rename_i e; replace e := Option.map_eq_some_iff.mp e; obtain ⟨_, e, rfl⟩ := e) | (rename_i e; cases e; done) | (rename_i e; injection e with e; subst e) | (rename_i e; dsimp only at e) | (rename_i e; split at e)))

theorem State.bootCal_keeps {msk : Nat} {sb s : State} (item : Nat) (hmsk : Sub 12 msk) (hK : Keeps msk sb s) : Keeps msk sb (State.bootCal s item) := by
  unfold State.bootCal; (with_reducible repeat' (first | assumption | (refine Sub.of 12 ?_ hmsk; with_unfolding_all rfl) | apply State.bump_keeps | apply State.setF_keeps | apply State.event_keeps | (dsimp only)))

theorem State.powerUp_keeps {msk : Nat} {sb s : State} (env : BootEnv) (hmsk : Sub 1635327 msk) (hK : Keeps msk sb s) : Keeps msk sb (State.powerUp s env) := by
  unfold State.powerUp; (with_reducible repeat' (first | assumption | (refine Sub.of 1635327 ?_ hmsk; with_unfolding_all rfl) | apply State.diodeReading_keeps | apply State.onThm_keeps | apply State.onMem_keeps | apply State.onEnc_keeps | apply State.encRestart_keeps | apply State.onLmp_keeps | apply State.capNow_keeps | apply State.fineStart_keeps | apply State.bootCal_keeps | apply Keeps.foldl | apply Keeps.foldlFst | intro _ | split | (dsimp only)))

theorem State.memFails_keeps {msk : Nat} {sb s : State} (hmsk : Sub 512 msk) (hK : Keeps msk sb s) : Keeps msk sb (State.memFails s) := by
  unfold State.memFails; (with_reducible repeat' (first | assumption | (refine Sub.of 512 ?_ hmsk; with_unfolding_all rfl) | apply State.onMem_keeps | intro _ | split | (dsimp only)))

theorem State.rebuildJob_keeps {msk : Nat} {sb s : State} (store : List (Nat × Nat × List Byte)) (j0 : Job) (hmsk : Sub 29 msk) (hK : Keeps msk sb s) : Keeps msk sb (State.rebuildJob s store j0) := by
  unfold State.rebuildJob; (with_reducible repeat' (first | assumption | (refine Sub.of 29 ?_ hmsk; with_unfolding_all rfl) | (refine fun (hb : msk.testBit 20 = false) => ?_; intro _; first | rfl | (dsimp only; split <;> rfl)) | apply State.modJob_keeps | apply State.onIng_keeps | apply State.onSys_keeps | apply State.event_keeps | apply State.retireJob_keeps | apply State.jobEntry_keeps | apply State.failJob_keeps | apply Keeps.foldl | apply Keeps.foldlFst | intro _ | split | (dsimp only)))

theorem State.rebuild_keeps {msk : Nat} {sb s : State} (store : List (Nat × Nat × List Byte)) (hmsk : Sub 29 msk) (hK : Keeps msk sb s) : Keeps msk sb (State.rebuild s store) := by
  unfold State.rebuild; (with_reducible repeat' (first | assumption | (refine Sub.of 29 ?_ hmsk; with_unfolding_all rfl) | apply State.rebuildJob_keeps | apply Keeps.foldl | apply Keeps.foldlFst | intro _ | split | (dsimp only)))

theorem State.bootEnds_keeps {msk : Nat} {sb s : State} (hmsk : Sub 1635263 msk) (hK : Keeps msk sb s) : Keeps msk sb (State.bootEnds s) := by
  unfold State.bootEnds; (with_reducible repeat' (first | assumption | (refine Sub.of 1635263 ?_ hmsk; with_unfolding_all rfl) | (refine fun (hb : msk.testBit 20 = false) => ?_; with_unfolding_all exact (Sub.off (p := .mode) 1635263 hmsk rfl hb).elim) | apply State.onSys_keeps | apply State.setMode_keeps | apply State.event_keeps | apply State.immediate_keeps | apply State.thermalStop_keeps | intro _ | split | (dsimp only)))

theorem State.bootFails_keeps {msk : Nat} {sb s : State} (err phase : Nat) (hmsk : Sub 1 msk) (hK : Keeps msk sb s) : Keeps msk sb (State.bootFails s err phase) := by
  unfold State.bootFails; (with_reducible repeat' (first | assumption | (refine Sub.of 1 ?_ hmsk; with_unfolding_all rfl) | (refine fun (hb : msk.testBit 20 = false) => ?_; intro _; first | rfl | (dsimp only; split <;> rfl)) | apply State.onSys_keeps | intro _ | (dsimp only)))

theorem State.noImage_keeps {msk : Nat} {sb s : State} (b : Fin 2) (hmsk : Sub 2 msk) (hK : Keeps msk sb s) : Keeps msk sb (State.noImage s b) := by
  unfold State.noImage; (with_reducible repeat' (first | assumption | (refine Sub.of 2 ?_ hmsk; with_unfolding_all rfl) | (refine fun (hb : msk.testBit 21 = false) => ?_; intro _ n; first | rfl | exact role_vmod _ _ n (fun _ => rfl) | (dsimp only; split <;> rfl)) | apply State.onCfg_keeps | intro _ | (dsimp only)))

theorem State.bootTick_keeps {msk : Nat} {sb s : State} (hmsk : Sub 1 msk) (hK : Keeps msk sb s) : Keeps msk sb (State.bootTick s) := by
  unfold State.bootTick; (with_reducible repeat' (first | assumption | (refine Sub.of 1 ?_ hmsk; with_unfolding_all rfl) | (refine fun (hb : msk.testBit 20 = false) => ?_; intro _; first | rfl | (dsimp only; split <;> rfl)) | apply State.onSys_keeps | intro _ | split | (dsimp only)))

theorem State.boot_keeps {msk : Nat} {sb s : State} (env : BootEnv) (hmsk : Sub 1703935 msk) (hK : Keeps msk sb s) : Keeps msk sb (State.boot s env) := by
  unfold State.boot; (with_reducible repeat' (first | assumption | (refine Sub.of 1703935 ?_ hmsk; with_unfolding_all rfl) | apply State.bootFails_keeps | apply State.nvmLoad_keeps | apply State.noImage_keeps | apply State.imageLoad_keeps | apply State.valuesLoad_keeps | apply State.memFails_keeps | apply State.powerUp_keeps | apply State.rebuild_keeps | apply State.lanesStart_keeps | apply State.bootEnds_keeps | intro _ | split | (dsimp only)))

theorem execBootDone_keeps {msk : Nat} {sb s : State} (env : BootEnv) (hmsk : Sub 1703935 msk) (hK : Keeps msk sb s) : ∀ t, execBootDone env s = .next t → Keeps msk sb t := by
  intro t e; unfold execBootDone at e
  repeat' (first | (cases e; done) | (injection e with e; subst e) | split at e)
  all_goals (with_reducible repeat' (first | assumption | (refine Sub.of 1703935 ?_ hmsk; with_unfolding_all rfl) | apply State.live_keeps | apply State.when_keeps | apply State.boot_keeps | intro _ | (dsimp only)))

end Sys2Proof.Machine
end

