-- ==== Sys2Proof/Laws/KeepsTime.lean ====
section
/-! SUPPORT. What each operation of Machine/Time.lean keeps: the queue, and the canonical form of the register maps. -/
set_option Elab.async false
namespace Sys2Proof.Machine

theorem State.pulseArm_keeps {msk : Nat} {sb s : State} (k : Fin 4) (hmsk : Sub 131072 msk) (hK : Keeps msk sb s) : Keeps msk sb (State.pulseArm s k) := by
  unfold State.pulseArm; (with_reducible repeat' (first | assumption | (refine Sub.of 131072 ?_ hmsk; with_unfolding_all rfl) | apply State.onTim_keeps | intro _ | split | (dsimp only)))

theorem State.pulseCommit_keeps {msk : Nat} {sb s : State} (k : Fin 4) (hmsk : Sub 131072 msk) (hK : Keeps msk sb s) : Keeps msk sb (State.pulseCommit s k) := by
  unfold State.pulseCommit; (with_reducible repeat' (first | assumption | (refine Sub.of 131072 ?_ hmsk; with_unfolding_all rfl) | apply State.onTim_keeps | apply State.pulseArm_keeps | intro _ | split | (dsimp only)))

theorem State.pulseStep_keeps {msk : Nat} {sb s : State} (k : Fin 4) (hmsk : Sub 131072 msk) (hK : Keeps msk sb s) : Keeps msk sb (State.pulseStep s k) := by
  unfold State.pulseStep; (with_reducible repeat' (first | assumption | (refine Sub.of 131072 ?_ hmsk; with_unfolding_all rfl) | apply State.onTim_keeps | intro _ | split | (dsimp only)))

theorem State.timeStep_keeps {msk : Nat} {sb s : State} (ofs : Int) (hmsk : Sub 131084 msk) (hK : Keeps msk sb s) : Keeps msk sb (State.timeStep s ofs) := by
  unfold State.timeStep; (with_reducible repeat' (first | assumption | (refine Sub.of 131084 ?_ hmsk; with_unfolding_all rfl) | apply State.onTim_keeps | apply State.bump_keeps | apply State.pulseStep_keeps | apply State.event_keeps | intro _ | (dsimp only)))

theorem State.slew_keeps {msk : Nat} {sb s : State} (ofs : Int) (hmsk : Sub 655360 msk) (hK : Keeps msk sb s) : Keeps msk sb (State.slew s ofs) := by
  unfold State.slew; (with_reducible repeat' (first | assumption | (refine Sub.of 655360 ?_ hmsk; with_unfolding_all rfl) | apply State.drawn_keeps | apply State.onTim_keeps | intro _ | (dsimp only)))

theorem State.offsetMeasured_keeps {msk : Nat} {sb s0 : State} (ofs : Int) (hmsk : Sub 655372 msk) (hK : Keeps msk sb s0) : Keeps msk sb (State.offsetMeasured s0 ofs) := by
  unfold State.offsetMeasured; (with_reducible repeat' (first | assumption | (refine Sub.of 655372 ?_ hmsk; with_unfolding_all rfl) | apply State.onTim_keeps | apply State.timeStep_keeps | apply State.slew_keeps | apply State.bump_keeps | apply State.event_keeps | intro _ | split | (dsimp only)))

theorem State.choose_keeps {msk : Nat} {sb s : State} (l : List (Nat × Nat)) (hmsk : Sub 131084 msk) (hK : Keeps msk sb s) : Keeps msk sb (State.choose s l) := by
  unfold State.choose; (with_reducible repeat' (first | assumption | (refine Sub.of 131084 ?_ hmsk; with_unfolding_all rfl) | apply State.onTim_keeps | apply State.event_keeps | intro _ | split | (dsimp only)))

theorem State.announce_keeps {msk : Nat} {sb s : State} (m rank : Nat) (hmsk : Sub 131084 msk) (hK : Keeps msk sb s) : Keeps msk sb (State.announce s m rank) := by
  unfold State.announce; (with_reducible repeat' (first | assumption | (refine Sub.of 131084 ?_ hmsk; with_unfolding_all rfl) | apply State.choose_keeps | intro _ | (dsimp only)))

theorem execPtpAnnounce_keeps {msk : Nat} {sb s : State} (domain : Nat) (master : BitVec 64) (rank : Nat) (hmsk : Sub 131084 msk) (hK : Keeps msk sb s) : ∀ t, execPtpAnnounce domain master rank s = .next t → Keeps msk sb t := by
  intro t e; unfold execPtpAnnounce at e
  repeat' (first | (cases e; done) | (injection e with e; subst e) | split at e)
  all_goals (with_reducible repeat' (first | assumption | (refine Sub.of 131084 ?_ hmsk; with_unfolding_all rfl) | apply State.live_keeps | apply State.when_keeps | apply State.announce_keeps | intro _ | (dsimp only)))

theorem execPtpSync_keeps {msk : Nat} {sb s : State} (domain : Nat) (master : BitVec 64) (t1 : Int) (hmsk : Sub 131072 msk) (hK : Keeps msk sb s) : ∀ t, execPtpSync domain master t1 s = .next t → Keeps msk sb t := by
  intro t e; unfold execPtpSync at e
  repeat' (first | (cases e; done) | (injection e with e; subst e) | split at e)
  all_goals (with_reducible repeat' (first | assumption | (refine Sub.of 131072 ?_ hmsk; with_unfolding_all rfl) | apply State.live_keeps | apply State.when_keeps | apply State.onTim_keeps | intro _ | (dsimp only)))

theorem execPtpDelayReqSend_keeps {msk : Nat} {sb s : State} (hmsk : Sub 131072 msk) (hK : Keeps msk sb s) : ∀ t, execPtpDelayReqSend s = .next t → Keeps msk sb t := by
  intro t e; unfold execPtpDelayReqSend at e
  repeat' (first | (cases e; done) | (injection e with e; subst e) | split at e)
  all_goals (with_reducible repeat' (first | assumption | (refine Sub.of 131072 ?_ hmsk; with_unfolding_all rfl) | apply State.live_keeps | apply State.when_keeps | apply State.onTim_keeps | intro _ | (dsimp only)))

theorem execPtpDelayResp_keeps {msk : Nat} {sb s : State} (domain : Nat) (master : BitVec 64) (t4 : Int) (hmsk : Sub 655372 msk) (hK : Keeps msk sb s) : ∀ t, execPtpDelayResp domain master t4 s = .next t → Keeps msk sb t := by
  intro t e; unfold execPtpDelayResp at e
  repeat' (first | (cases e; done) | (injection e with e; subst e) | split at e)
  all_goals (with_reducible repeat' (first | assumption | (refine Sub.of 655372 ?_ hmsk; with_unfolding_all rfl) | apply State.live_keeps | apply State.when_keeps | apply State.offsetMeasured_keeps | intro _ | split | (dsimp only)))

theorem execAnnounceTimeout_keeps {msk : Nat} {sb s : State} (hmsk : Sub 131084 msk) (hK : Keeps msk sb s) : ∀ t, execAnnounceTimeout s = .next t → Keeps msk sb t := by
  intro t e; unfold execAnnounceTimeout at e
  repeat' (first | (cases e; done) | (injection e with e; subst e) | split at e)
  all_goals (with_reducible repeat' (first | assumption | (refine Sub.of 131084 ?_ hmsk; with_unfolding_all rfl) | apply State.live_keeps | apply State.onTim_keeps | apply State.event_keeps | apply State.choose_keeps | intro _ | split | (dsimp only)))

theorem State.timFx_keeps {msk : Nat} {sb s : State} (r : Role) (w : Nat) (hmsk : Sub 131072 msk) (hK : Keeps msk sb s) : ∀ t, State.timFx s r w = some t → Keeps msk sb t := by
  intro t e; unfold State.timFx at e; (try dsimp only at e)
  repeat' (first | (cases e; done) | (injection e with e; subst e) | split at e)
  all_goals (with_reducible repeat' (first | assumption | (refine Sub.of 131072 ?_ hmsk; with_unfolding_all rfl) | apply State.when_keeps | apply State.onTim_keeps | intro _ | split | (dsimp only)))

theorem State.timCmd_keeps {msk : Nat} {sb s : State} (ses : Fin 5) (w : Word) (hmsk : Sub 147463 msk) (hK : Keeps msk sb s) : Keeps msk sb (State.timCmd s ses w) := by
  unfold State.timCmd; (with_reducible repeat' (first | assumption | (refine Sub.of 147463 ?_ hmsk; with_unfolding_all rfl) | (refine State.timFx_keeps _ _ (Sub.of 147463 (by with_unfolding_all rfl) hmsk) ?_ _ (by assumption)) | apply State.sesCmd_keeps | apply State.forward_keeps | apply Keeps.getD | intro _ | (dsimp only) | (rename_i e; replace e := Option.map_eq_some_iff.mp e; obtain ⟨_, e, rfl⟩ := e) | (rename_i e; cases e; done) | (rename_i e; injection e with e; subst e) | (rename_i e; dsimp only at e) | (rename_i e; split at e)))

theorem execTimeAccept_keeps {msk : Nat} {sb s : State} (ses : Fin 5) (confirm : Byte) (hmsk : Sub 147463 msk) (hK : Keeps msk sb s) : ∀ t, execTimeAccept ses confirm s = .next t → Keeps msk sb t := by
  intro t e; unfold execTimeAccept at e
  repeat' (first | (cases e; done) | (injection e with e; subst e) | split at e)
  all_goals (with_reducible repeat' (first | assumption | (refine Sub.of 147463 ?_ hmsk; with_unfolding_all rfl) | apply State.timCmd_keeps | (dsimp only)))

theorem execClrChg_keeps {msk : Nat} {sb s : State} (ses : Fin 5) (confirm : Byte) (hmsk : Sub 147463 msk) (hK : Keeps msk sb s) : ∀ t, execClrChg ses confirm s = .next t → Keeps msk sb t := by
  intro t e; unfold execClrChg at e
  repeat' (first | (cases e; done) | (injection e with e; subst e) | split at e)
  all_goals (with_reducible repeat' (first | assumption | (refine Sub.of 147463 ?_ hmsk; with_unfolding_all rfl) | apply State.timCmd_keeps | (dsimp only)))

theorem execTimeMark_keeps {msk : Nat} {sb s : State} (hmsk : Sub 16396 msk) (hK : Keeps msk sb s) : ∀ t, execTimeMark s = .next t → Keeps msk sb t := by
  intro t e; unfold execTimeMark at e
  repeat' (first | (cases e; done) | (injection e with e; subst e) | split at e)
  all_goals (with_reducible repeat' (first | assumption | (refine Sub.of 16396 ?_ hmsk; with_unfolding_all rfl) | (refine fun (hb : msk.testBit 23 = false) => ?_; intro _; first | rfl | (dsimp only; split <;> rfl)) | apply State.live_keeps | apply State.onTbl_keeps | apply State.event_keeps | intro _ | split | (dsimp only)))

theorem State.pulseDue_keeps {msk : Nat} {sb s : State} (k : Fin 4) (hmsk : Sub 131072 msk) (hK : Keeps msk sb s) : Keeps msk sb (State.pulseDue s k) := by
  unfold State.pulseDue; (with_reducible repeat' (first | assumption | (refine Sub.of 131072 ?_ hmsk; with_unfolding_all rfl) | apply State.onTim_keeps | intro _ | split | (dsimp only)))

theorem execTimePulseDue_keeps {msk : Nat} {sb s : State} (k : Fin 4) (hmsk : Sub 131072 msk) (hK : Keeps msk sb s) : ∀ t, execTimePulseDue k s = .next t → Keeps msk sb t := by
  intro t e; unfold execTimePulseDue at e
  repeat' (first | (cases e; done) | (injection e with e; subst e) | split at e)
  all_goals (with_reducible repeat' (first | assumption | (refine Sub.of 131072 ?_ hmsk; with_unfolding_all rfl) | apply State.live_keeps | apply State.pulseDue_keeps | intro _ | (dsimp only)))

theorem execTimePulseEnd_keeps {msk : Nat} {sb s : State} (k : Fin 4) (hmsk : Sub 131072 msk) (hK : Keeps msk sb s) : ∀ t, execTimePulseEnd k s = .next t → Keeps msk sb t := by
  intro t e; unfold execTimePulseEnd at e
  repeat' (first | (cases e; done) | (injection e with e; subst e) | split at e)
  all_goals (with_reducible repeat' (first | assumption | (refine Sub.of 131072 ?_ hmsk; with_unfolding_all rfl) | apply State.live_keeps | apply State.onTim_keeps | apply State.pulseArm_keeps | intro _ | split | (dsimp only)))

theorem execTimePulseWake_keeps {msk : Nat} {sb s : State} (k : Fin 4) (hmsk : Sub 1 msk) (hK : Keeps msk sb s) : ∀ t, execTimePulseWake k s = .next t → Keeps msk sb t := by
  intro t e; unfold execTimePulseWake at e
  repeat' (first | (cases e; done) | (injection e with e; subst e) | split at e)
  all_goals (with_reducible repeat' (first | assumption | (refine Sub.of 1 ?_ hmsk; with_unfolding_all rfl) | apply State.live_keeps | apply State.when_keeps | apply State.wake_keeps | intro _ | (dsimp only)))

end Sys2Proof.Machine
end

