-- ==== Sys2Proof/Laws/KeepsGroups.lean ====
section
/-! SUPPORT. What each operation of Machine/Groups.lean keeps: the queue, and the canonical form of the register maps. -/
set_option Elab.async false
namespace Sys2Proof.Machine

theorem State.invFlip_keeps {msk : Nat} {sb s : State} (old : Nat → Bool) (hmsk : Sub 262144 msk) (hK : Keeps msk sb s) : Keeps msk sb (State.invFlip s old) := by
  unfold State.invFlip; (with_reducible repeat' (first | assumption | (refine Sub.of 262144 ?_ hmsk; with_unfolding_all rfl) | apply State.onPad_keeps | apply Keeps.foldl | apply Keeps.foldlFst | intro _ | split | (dsimp only)))

theorem State.applyGroup_keeps {msk : Nat} {sb s : State} (g : Group) (last line : Nat) (hmsk : Sub 417260 msk) (hK : Keeps msk sb s) : Keeps msk sb (State.applyGroup s g last line) := by
  unfold State.applyGroup; (with_reducible repeat' (first | assumption | (refine Sub.of 417260 ?_ hmsk; with_unfolding_all rfl) | apply State.takeEffect_keeps | apply State.knotsFree_keeps | apply State.fineScan_keeps | apply State.pulseCommit_keeps | apply State.invFlip_keeps | apply State.sensCommit_keeps | intro _ | split | (dsimp only)))

theorem State.takeNow_keeps {msk : Nat} {sb s : State} (g : Group) (hmsk : Sub 417260 msk) (hK : Keeps msk sb s) : Keeps msk sb (State.takeNow s g) := by
  unfold State.takeNow; (with_reducible repeat' (first | assumption | (refine Sub.of 417260 ?_ hmsk; with_unfolding_all rfl) | apply State.applyGroup_keeps | split | (dsimp only)))

theorem execCommitTakeEffect_keeps {msk : Nat} {sb s : State} (g : Group) (hmsk : Sub 417260 msk) (hK : Keeps msk sb s) : ∀ t, execCommitTakeEffect g s = .next t → Keeps msk sb t := by
  intro t e; unfold execCommitTakeEffect at e
  repeat' (first | (cases e; done) | (injection e with e; subst e) | split at e)
  all_goals (with_reducible repeat' (first | assumption | (refine Sub.of 417260 ?_ hmsk; with_unfolding_all rfl) | apply State.live_keeps | apply State.takeNow_keeps | intro _ | (dsimp only)))

theorem State.visCommits_keeps {msk : Nat} {sb s : State} (hmsk : Sub 417260 msk) (hK : Keeps msk sb s) : Keeps msk sb (State.visCommits s) := by
  unfold State.visCommits; (with_reducible repeat' (first | assumption | (refine Sub.of 417260 ?_ hmsk; with_unfolding_all rfl) | apply State.takeNow_keeps | apply Keeps.foldl | apply Keeps.foldlFst | intro _ | (dsimp only)))

theorem State.fwdGroup_keeps {msk : Nat} {sb s : State} (ses : Fin 5) (g : Group) (data : Word) (hmsk : Sub 16388 msk) (hK : Keeps msk sb s) : Keeps msk sb (State.fwdGroup s ses g data) := by
  unfold State.fwdGroup; (with_reducible repeat' (first | assumption | (refine Sub.of 16388 ?_ hmsk; with_unfolding_all rfl) | apply State.fwdWrite_keeps | split | (dsimp only)))

theorem State.goStage_keeps {msk : Nat} {sb s : State} (g : Group) (hmsk : Sub 417260 msk) (hK : Keeps msk sb s) : Keeps msk sb (State.goStage s g) := by
  unfold State.goStage; (with_reducible repeat' (first | assumption | (refine Sub.of 417260 ?_ hmsk; with_unfolding_all rfl) | apply State.stage_keeps | apply State.takeNow_keeps | split | (dsimp only)))

theorem State.commitGo_keeps {msk : Nat} {sb s : State} (ses : Fin 5) (g : Group) (hmsk : Sub 417263 msk) (hK : Keeps msk sb s) : Keeps msk sb (State.commitGo s ses g) := by
  unfold State.commitGo; (with_reducible repeat' (first | assumption | (refine Sub.of 417263 ?_ hmsk; with_unfolding_all rfl) | apply State.sesCmd_keeps | apply State.fwdGroup_keeps | apply State.goStage_keeps | intro _ | split | (dsimp only) | (rename_i e; replace e := Option.map_eq_some_iff.mp e; obtain ⟨_, e, rfl⟩ := e) | (rename_i e; cases e; done) | (rename_i e; injection e with e; subst e) | (rename_i e; dsimp only at e) | (rename_i e; split at e)))

theorem execCommitGo_keeps {msk : Nat} {sb s : State} (ses : Fin 5) (g : Group) (hmsk : Sub 417263 msk) (hK : Keeps msk sb s) : ∀ t, execCommitGo ses g s = .next t → Keeps msk sb t := by
  intro t e; unfold execCommitGo at e
  repeat' (first | (cases e; done) | (injection e with e; subst e) | split at e)
  all_goals (with_reducible repeat' (first | assumption | (refine Sub.of 417263 ?_ hmsk; with_unfolding_all rfl) | apply State.commitGo_keeps | (dsimp only)))

theorem State.commitDiscard_keeps {msk : Nat} {sb s : State} (ses : Fin 5) (g : Group) (hmsk : Sub 16391 msk) (hK : Keeps msk sb s) : Keeps msk sb (State.commitDiscard s ses g) := by
  unfold State.commitDiscard; (with_reducible repeat' (first | assumption | (refine Sub.of 16391 ?_ hmsk; with_unfolding_all rfl) | apply State.sesCmd_keeps | apply State.unstage_keeps | apply State.fwdGroup_keeps | intro _ | split | (dsimp only) | (rename_i e; replace e := Option.map_eq_some_iff.mp e; obtain ⟨_, e, rfl⟩ := e) | (rename_i e; cases e; done) | (rename_i e; injection e with e; subst e) | (rename_i e; dsimp only at e) | (rename_i e; split at e)))

theorem execCommitDiscard_keeps {msk : Nat} {sb s : State} (ses : Fin 5) (g : Group) (hmsk : Sub 16391 msk) (hK : Keeps msk sb s) : ∀ t, execCommitDiscard ses g s = .next t → Keeps msk sb t := by
  intro t e; unfold execCommitDiscard at e
  repeat' (first | (cases e; done) | (injection e with e; subst e) | split at e)
  all_goals (with_reducible repeat' (first | assumption | (refine Sub.of 16391 ?_ hmsk; with_unfolding_all rfl) | apply State.commitDiscard_keeps | (dsimp only)))

end Sys2Proof.Machine
end

