-- ==== Sys2Proof/Laws/KeepsCamera.lean ====
section
/-! SUPPORT. What each operation of Machine/Camera.lean keeps: the queue, and the canonical form of the register maps. -/
set_option Elab.async false
namespace Sys2Proof.Machine

theorem execFrameStart_keeps {msk : Nat} {sb s : State} (p vc : Fin 4) (hdrOk first : Bool) (hmsk : Sub 26738687 msk) (hK : Keeps msk sb s) : ∀ t, execFrameStart p vc hdrOk first s = .next t → Keeps msk sb t := by
  intro t e; unfold execFrameStart at e
  repeat' (first | (cases e; done) | (injection e with e; subst e) | split at e)
  all_goals (with_reducible repeat' (first | assumption | (refine Sub.of 26738687 ?_ hmsk; with_unfolding_all rfl) | apply State.liveF_keeps | apply State.frameEndIn_keeps | apply State.visCommits_keeps | apply State.frameStartIn_keeps | intro _ | split | (dsimp only)))

theorem execLinePacket_keeps {msk : Nat} {sb s : State} (p vc : Fin 4) (dt : Fin 64) (hdrOk crcOk : Bool) (pix : List (BitVec 14)) (hmsk : Sub 26607615 msk) (hK : Keeps msk sb s) : ∀ t, execLinePacket p vc dt hdrOk crcOk pix s = .next t → Keeps msk sb t := by
  intro t e; unfold execLinePacket at e
  repeat' (first | (cases e; done) | (injection e with e; subst e) | split at e)
  all_goals (with_reducible repeat' (first | assumption | (refine Sub.of 26607615 ?_ hmsk; with_unfolding_all rfl) | apply State.liveF_keeps | apply State.linePacketIn_keeps | intro _ | (dsimp only)))

theorem execFrameEnd_keeps {msk : Nat} {sb s : State} (p vc : Fin 4) (hdrOk : Bool) (hmsk : Sub 26738687 msk) (hK : Keeps msk sb s) : ∀ t, execFrameEnd p vc hdrOk s = .next t → Keeps msk sb t := by
  intro t e; unfold execFrameEnd at e
  repeat' (first | (cases e; done) | (injection e with e; subst e) | split at e)
  all_goals (with_reducible repeat' (first | assumption | (refine Sub.of 26738687 ?_ hmsk; with_unfolding_all rfl) | apply State.liveF_keeps | apply State.frameEndIn_keeps | apply State.visCommits_keeps | intro _ | (dsimp only)))

theorem execFrameTimeout_keeps {msk : Nat} {sb s : State} (k : Fin 8) (hmsk : Sub 26738687 msk) (hK : Keeps msk sb s) : ∀ t, execFrameTimeout k s = .next t → Keeps msk sb t := by
  intro t e; unfold execFrameTimeout at e
  repeat' (first | (cases e; done) | (injection e with e; subst e) | split at e)
  all_goals (with_reducible repeat' (first | assumption | (refine Sub.of 26738687 ?_ hmsk; with_unfolding_all rfl) | apply State.liveF_keeps | apply State.frameTimeout_keeps | apply State.visCommits_keeps | intro _ | (dsimp only)))

theorem execTriggerTimeout_keeps {msk : Nat} {sb s : State} (k : Fin 8) (hmsk : Sub 26607615 msk) (hK : Keeps msk sb s) : ∀ t, execTriggerTimeout k s = .next t → Keeps msk sb t := by
  intro t e; unfold execTriggerTimeout at e
  repeat' (first | (cases e; done) | (injection e with e; subst e) | split at e)
  all_goals (with_reducible repeat' (first | assumption | (refine Sub.of 26607615 ?_ hmsk; with_unfolding_all rfl) | apply State.liveF_keeps | apply State.triggerTimeout_keeps | intro _ | (dsimp only)))

theorem execSensorSequenceSend_keeps {msk : Nat} {sb s : State} (k : Fin 8) (ack : Bool) (hmsk : Sub 26607615 msk) (hK : Keeps msk sb s) : ∀ t, execSensorSequenceSend k ack s = .next t → Keeps msk sb t := by
  intro t e; unfold execSensorSequenceSend at e
  repeat' (first | (cases e; done) | (injection e with e; subst e) | split at e)
  all_goals (with_reducible repeat' (first | assumption | (refine Sub.of 26607615 ?_ hmsk; with_unfolding_all rfl) | apply State.liveF_keeps | apply State.sensSend_keeps | intro _ | (dsimp only)))

theorem State.imageArch_keeps {msk : Nat} {sb s : State} (i : Fin 2) (k : Fin 8) (g : Grp) (hmsk : Sub 524316 msk) (hK : Keeps msk sb s) : Keeps msk sb (State.imageArch s i k g) := by
  unfold State.imageArch; (with_reducible repeat' (first | assumption | (refine Sub.of 524316 ?_ hmsk; with_unfolding_all rfl) | apply State.ctxTake_keeps | apply Keeps.foldl | apply Keeps.foldlFst | intro _ | split | (dsimp only)))

theorem State.groupDone_keeps {msk : Nat} {sb s : State} (i : Fin 2) (hmsk : Sub 543772 msk) (hK : Keeps msk sb s) : Keeps msk sb (State.groupDone s i) := by
  unfold State.groupDone; (with_reducible repeat' (first | assumption | (refine Sub.of 543772 ?_ hmsk; with_unfolding_all rfl) | apply State.visTake_keeps | apply State.statOut_keeps | apply State.countFlags_keeps | apply State.drawn_keeps | apply State.onCam_keeps | apply State.whiteMove_keeps | apply State.whiteTake_keeps | apply State.imageArch_keeps | apply Keeps.foldl | apply Keeps.foldlFst | intro _ | split | (dsimp only)))

theorem execPipelineGroupDone_keeps {msk : Nat} {sb s : State} (i : Fin 2) (hmsk : Sub 543772 msk) (hK : Keeps msk sb s) : ∀ t, execPipelineGroupDone i s = .next t → Keeps msk sb t := by
  intro t e; unfold execPipelineGroupDone at e
  repeat' (first | (cases e; done) | (injection e with e; subst e) | split at e)
  all_goals (with_reducible repeat' (first | assumption | (refine Sub.of 543772 ?_ hmsk; with_unfolding_all rfl) | apply State.live_keeps | apply State.groupDone_keeps | intro _ | (dsimp only)))

theorem execLampFrame_keeps {msk : Nat} {sb s : State} (c : Fin 4) (i : LampIn) (hmsk : Sub 27131903 msk) (hK : Keeps msk sb s) : ∀ t, execLampFrame c i s = .next t → Keeps msk sb t := by
  intro t e; unfold execLampFrame at e
  repeat' (first | (cases e; done) | (injection e with e; subst e) | split at e)
  all_goals (with_reducible repeat' (first | assumption | (refine Sub.of 27131903 ?_ hmsk; with_unfolding_all rfl) | apply State.liveF_keeps | apply State.when_keeps | apply State.lampFrameIn_keeps | intro _ | (dsimp only)))

end Sys2Proof.Machine
end

