-- ==== Sys2Proof/Laws/KeepsGrid.lean ====
section
/-! SUPPORT. What each operation of Machine/Grid.lean keeps: the queue, and the canonical form of the register maps. -/
set_option Elab.async false
namespace Sys2Proof.Machine

theorem State.afterLine_keeps {msk : Nat} {sb s : State} (s0 : State) (hmsk : Sub 10354687 msk) (hK : Keeps msk sb s) : Keeps msk sb (State.afterLine s0 s) := by
  unfold State.afterLine; (with_reducible repeat' (first | assumption | (refine Sub.of 10354687 ?_ hmsk; with_unfolding_all rfl) | apply State.calSnap_keeps | apply State.when_keeps | apply State.lampStops_keeps | apply State.orderlyStop_keeps | apply State.boundaryActs_keeps | apply State.healthTry_keeps | apply State.yieldTry_keeps | apply State.revertTry_keeps | apply State.checkpointTry_keeps | apply State.trimsOn_keeps | apply State.settleReg_keeps | apply State.camTriggers_keeps | apply State.digestsOut_keeps | intro _ | (dsimp only)))

theorem execLineTrigger_keeps {msk : Nat} {sb s : State} (hmsk : Sub 31326207 msk) (hK : Keeps msk sb s) : ∀ t, execLineTrigger s = .next t → Keeps msk sb t := by
  intro t e; unfold execLineTrigger at e
  repeat' (first | (cases e; done) | (injection e with e; subst e) | split at e)
  all_goals (with_reducible repeat' (first | assumption | (refine Sub.of 31326207 ?_ hmsk; with_unfolding_all rfl) | apply State.liveF_keeps | apply State.when_keeps | apply State.afterLine_keeps | apply State.trigger_keeps | intro _ | (dsimp only)))

theorem execLtmSampleArrival_keeps {msk : Nat} {sb s : State} (hmsk : Sub 31326207 msk) (hK : Keeps msk sb s) : ∀ t, execLtmSampleArrival s = .next t → Keeps msk sb t := by
  intro t e; unfold execLtmSampleArrival at e
  repeat' (first | (cases e; done) | (injection e with e; subst e) | split at e)
  all_goals (with_reducible repeat' (first | assumption | (refine Sub.of 31326207 ?_ hmsk; with_unfolding_all rfl) | apply State.liveF_keeps | apply State.standbySample_keeps | apply State.sampleArrives_keeps | apply State.afterLine_keeps | intro _ | split | (dsimp only)))

theorem State.standbyGov_keeps {msk : Nat} {sb s : State} (hmsk : Sub 1098687 msk) (hK : Keeps msk sb s) : Keeps msk sb (State.standbyGov s) := by
  unfold State.standbyGov; (with_reducible repeat' (first | assumption | (refine Sub.of 1098687 ?_ hmsk; with_unfolding_all rfl) | apply State.govern_keeps | apply State.leaveStep_keeps | intro _ | split | (dsimp only)))

theorem execGovernorSample_keeps {msk : Nat} {sb s : State} (hmsk : Sub 26607615 msk) (hK : Keeps msk sb s) : ∀ t, execGovernorSample s = .next t → Keeps msk sb t := by
  intro t e; unfold execGovernorSample at e
  repeat' (first | (cases e; done) | (injection e with e; subst e) | split at e)
  all_goals (with_reducible repeat' (first | assumption | (refine Sub.of 26607615 ?_ hmsk; with_unfolding_all rfl) | apply State.liveF_keeps | apply State.governor_keeps | apply State.when_keeps | apply State.standbyGov_keeps | intro _ | split | (dsimp only)))

theorem State.peakWeb_keeps {msk : Nat} {sb s : State} (hmsk : Sub 64 msk) (hK : Keeps msk sb s) : Keeps msk sb (State.peakWeb s) := by
  unfold State.peakWeb; (with_reducible repeat' (first | assumption | (refine Sub.of 64 ?_ hmsk; with_unfolding_all rfl) | apply State.onEnc_keeps | intro _ | split | (dsimp only)))

theorem State.reversal_keeps {msk : Nat} {sb s : State} (hmsk : Sub 8269 msk) (hK : Keeps msk sb s) : Keeps msk sb (State.reversal s) := by
  unfold State.reversal; (with_reducible repeat' (first | assumption | (refine Sub.of 8269 ?_ hmsk; with_unfolding_all rfl) | apply State.onEnc_keeps | apply State.setF_keeps | apply State.event_keeps | apply State.orderlyStop_keeps | intro _ | split | (dsimp only)))

theorem execEncoderSample_keeps {msk : Nat} {sb s : State} (ch : Fin 4) (sin cos idx : BitVec 14) (hmsk : Sub 26607615 msk) (hK : Keeps msk sb s) : ∀ t, execEncoderSample ch sin cos idx s = .next t → Keeps msk sb t := by
  intro t e; unfold execEncoderSample at e
  repeat' (first | (cases e; done) | (injection e with e; subst e) | split at e)
  all_goals (with_reducible repeat' (first | assumption | (refine Sub.of 26607615 ?_ hmsk; with_unfolding_all rfl) | apply State.liveF_keeps | apply State.when_keeps | apply State.encSample_keeps | apply State.peakWeb_keeps | apply State.reversal_keeps | intro _ | (dsimp only)))

end Sys2Proof.Machine
end

