-- ==== Sys2Proof/Laws/KeepsWindows.lean ====
section
/-! SUPPORT. What each operation of Machine/Windows.lean keeps: the queue, and the canonical form of the register maps. -/
set_option Elab.async false
namespace Sys2Proof.Machine

theorem State.winPut_keeps {msk : Nat} {sb s : State} (b : Fin 8) (a : Nat) (data : Word) (hmsk : Sub 10528 msk) (hK : Keeps msk sb s) : Keeps msk sb (State.winPut s b a data) := by
  unfold State.winPut; (with_reducible repeat' (first | assumption | (refine Sub.of 10528 ?_ hmsk; with_unfolding_all rfl) | apply State.onBar_keeps | apply State.columnWritten_keeps | apply State.onLnk_keeps | apply State.onMot_keeps | intro _ | split | (dsimp only)))

theorem State.winFx_keeps {msk : Nat} {sb s : State} (w : Writer) (a : Nat) (data : Word) (hmsk : Sub 26916 msk) (hK : Keeps msk sb s) : ∀ t, State.winFx s w a data = some t → Keeps msk sb t := by
  intro t e; unfold State.winFx at e; (try dsimp only at e)
  repeat' (first | (cases e; done) | (injection e with e; subst e) | split at e)
  all_goals (with_reducible repeat' (first | assumption | (refine Sub.of 26916 ?_ hmsk; with_unfolding_all rfl) | apply State.onBar_keeps | apply State.winPut_keeps | apply State.fwdBy_keeps | intro _ | split | (dsimp only)))

theorem State.winCmd_keeps {msk : Nat} {sb s : State} (ses : Fin 5) (a : Nat) (data : Word) (hmsk : Sub 26919 msk) (hK : Keeps msk sb s) : Keeps msk sb (State.winCmd s ses a data) := by
  unfold State.winCmd; (with_reducible repeat' (first | assumption | (refine Sub.of 26919 ?_ hmsk; with_unfolding_all rfl) | (refine State.winFx_keeps _ _ _ (Sub.of 26919 (by with_unfolding_all rfl) hmsk) ?_ _ (by assumption)) | apply State.winWrite_keeps | intro _ | (dsimp only) | (rename_i e; replace e := Option.map_eq_some_iff.mp e; obtain ⟨_, e, rfl⟩ := e) | (rename_i e; cases e; done) | (rename_i e; injection e with e; subst e) | (rename_i e; dsimp only at e) | (rename_i e; split at e)))

theorem State.winRow_keeps {msk : Nat} {sb s : State} (ses : Fin 5) (n : Nat) (addr : BitVec 24) (data : Word) (hmsk : Sub 26919 msk) (hK : Keeps msk sb s) : Keeps msk sb (State.winRow s ses n addr data) := by
  unfold State.winRow; (with_reducible repeat' (first | assumption | (refine Sub.of 26919 ?_ hmsk; with_unfolding_all rfl) | apply State.winCmd_keeps | split | (dsimp only)))

theorem execCorrectionWindowWrite_keeps {msk : Nat} {sb s : State} (ses : Fin 5) (addr : BitVec 24) (data : Word) (hmsk : Sub 26919 msk) (hK : Keeps msk sb s) : ∀ t, execCorrectionWindowWrite ses addr data s = .next t → Keeps msk sb t := by
  intro t e; unfold execCorrectionWindowWrite at e
  repeat' (first | (cases e; done) | (injection e with e; subst e) | split at e)
  all_goals (with_reducible repeat' (first | assumption | (refine Sub.of 26919 ?_ hmsk; with_unfolding_all rfl) | apply State.winRow_keeps | (dsimp only)))

theorem execMatrixWindowWrite_keeps {msk : Nat} {sb s : State} (ses : Fin 5) (addr : BitVec 24) (data : Word) (hmsk : Sub 26919 msk) (hK : Keeps msk sb s) : ∀ t, execMatrixWindowWrite ses addr data s = .next t → Keeps msk sb t := by
  intro t e; unfold execMatrixWindowWrite at e
  repeat' (first | (cases e; done) | (injection e with e; subst e) | split at e)
  all_goals (with_reducible repeat' (first | assumption | (refine Sub.of 26919 ?_ hmsk; with_unfolding_all rfl) | apply State.winRow_keeps | (dsimp only)))

theorem execToneCurveWindowWrite_keeps {msk : Nat} {sb s : State} (ses : Fin 5) (addr : BitVec 24) (data : Word) (hmsk : Sub 26919 msk) (hK : Keeps msk sb s) : ∀ t, execToneCurveWindowWrite ses addr data s = .next t → Keeps msk sb t := by
  intro t e; unfold execToneCurveWindowWrite at e
  repeat' (first | (cases e; done) | (injection e with e; subst e) | split at e)
  all_goals (with_reducible repeat' (first | assumption | (refine Sub.of 26919 ?_ hmsk; with_unfolding_all rfl) | apply State.winRow_keeps | (dsimp only)))

theorem execDescriptorWindowWrite_keeps {msk : Nat} {sb s : State} (ses : Fin 5) (addr : BitVec 24) (data : Word) (hmsk : Sub 26919 msk) (hK : Keeps msk sb s) : ∀ t, execDescriptorWindowWrite ses addr data s = .next t → Keeps msk sb t := by
  intro t e; unfold execDescriptorWindowWrite at e
  repeat' (first | (cases e; done) | (injection e with e; subst e) | split at e)
  all_goals (with_reducible repeat' (first | assumption | (refine Sub.of 26919 ?_ hmsk; with_unfolding_all rfl) | apply State.winRow_keeps | (dsimp only)))

theorem execSegmentTableWrite_keeps {msk : Nat} {sb s : State} (ses : Fin 5) (addr : BitVec 24) (data : Word) (hmsk : Sub 26919 msk) (hK : Keeps msk sb s) : ∀ t, execSegmentTableWrite ses addr data s = .next t → Keeps msk sb t := by
  intro t e; unfold execSegmentTableWrite at e
  repeat' (first | (cases e; done) | (injection e with e; subst e) | split at e)
  all_goals (with_reducible repeat' (first | assumption | (refine Sub.of 26919 ?_ hmsk; with_unfolding_all rfl) | apply State.winRow_keeps | (dsimp only)))

end Sys2Proof.Machine
end

