-- ==== Sys2Proof/Laws/KeepsMgmt.lean ====
section
/-! SUPPORT. What each operation of Machine/Mgmt.lean keeps: the queue, and the canonical form of the register maps. -/
set_option Elab.async false
namespace Sys2Proof.Machine

theorem State.rcClear_keeps {msk : Nat} {sb s : State} (ses : Fin 5) (a : Nat) (r : RegRow) (ix : List Nat) (hmsk : Sub 4 msk) (hK : Keeps msk sb s) : Keeps msk sb (State.rcClear s ses a r ix) := by
  unfold State.rcClear; (with_reducible repeat' (first | assumption | (refine Sub.of 4 ?_ hmsk; with_unfolding_all rfl) | apply State.onRegs_keeps | (refine (Regs.wf_iff _).mpr ⟨?_, ?_, ?_, ?_, ?_⟩) | apply rset_wf | apply rcopy_wf | apply rfilter_wf | apply rmerge_wf | apply foldl_rset_wf | exact nil_wf | exact ((Regs.wf_iff _).mp ‹_›).1 | exact ((Regs.wf_iff _).mp ‹_›).2.1 | exact ((Regs.wf_iff _).mp ‹_›).2.2.1 | exact ((Regs.wf_iff _).mp ‹_›).2.2.2.1 | exact ((Regs.wf_iff _).mp ‹_›).2.2.2.2 | apply Keeps.foldl | apply Keeps.foldlFst | intro _ | (dsimp only)))

theorem State.latchHi_keeps {msk : Nat} {sb s : State} (ses : Fin 5) (l : List Nat) (hmsk : Sub 2 msk) (hK : Keeps msk sb s) : Keeps msk sb (State.latchHi s ses l) := by
  unfold State.latchHi; (with_reducible repeat' (first | assumption | (refine Sub.of 2 ?_ hmsk; with_unfolding_all rfl) | (refine fun (hb : msk.testBit 21 = false) => ?_; intro _ n; first | rfl | exact role_vmod _ _ n (fun _ => rfl) | (dsimp only; split <;> rfl)) | apply State.onSes_keeps | apply Keeps.foldl | apply Keeps.foldlFst | intro _ | split | (dsimp only)))

theorem State.tblNext_keeps {msk : Nat} {sb s : State} (hmsk : Sub 4 msk) (hK : Keeps msk sb s) : Keeps msk sb (State.tblNext s) := by
  unfold State.tblNext; (with_reducible repeat' (first | assumption | (refine Sub.of 4 ?_ hmsk; with_unfolding_all rfl) | apply State.setF_keeps | (dsimp only)))

theorem State.regRead_keeps {msk : Nat} {sb s : State} (ses : Fin 5) (a : Nat) (r : RegRow) (ix : List Nat) (hmsk : Sub 524294 msk) (hK : Keeps msk sb s) : Keeps msk sb (State.regRead s ses a r ix).1 := by
  unfold State.regRead; (with_reducible repeat' (first | assumption | (refine Sub.of 524294 ?_ hmsk; with_unfolding_all rfl) | apply State.tblNext_keeps | apply State.rcClear_keeps | apply State.drawn_keeps | apply State.latchHi_keeps | apply Keeps.getD | intro _ | split | (dsimp only) | (rename_i e; replace e := Option.map_eq_some_iff.mp e; obtain ⟨_, e, rfl⟩ := e) | (rename_i e; cases e; done) | (rename_i e; injection e with e; subst e) | (rename_i e; dsimp only at e) | (rename_i e; split at e)))

theorem State.readAt_keeps {msk : Nat} {sb s : State} (ses : Fin 5) (a : Nat) (hmsk : Sub 524294 msk) (hK : Keeps msk sb s) : Keeps msk sb (State.readAt s ses a).1 := by
  unfold State.readAt; (with_reducible repeat' (first | assumption | (refine Sub.of 524294 ?_ hmsk; with_unfolding_all rfl) | apply State.regRead_keeps | split | (dsimp only)))

theorem State.sesRead_keeps {msk : Nat} {sb s : State} (ses : Fin 5) (addr : Nat) (hmsk : Sub 524295 msk) (hK : Keeps msk sb s) : Keeps msk sb (State.sesRead s ses addr) := by
  unfold State.sesRead; (with_reducible repeat' (first | assumption | (refine Sub.of 524295 ?_ hmsk; with_unfolding_all rfl) | (refine fun (hb : msk.testBit 20 = false) => ?_; intro _; first | rfl | (dsimp only; split <;> rfl)) | apply State.live_keeps | apply State.wake_keeps | apply State.onSys_keeps | apply State.readAt_keeps | intro _ | split | (dsimp only)))

theorem execReadClear_keeps {msk : Nat} {sb s : State} (ses : Fin 5) (addr : BitVec 24) (hmsk : Sub 524295 msk) (hK : Keeps msk sb s) : ∀ t, execReadClear ses addr s = .next t → Keeps msk sb t := by
  intro t e; unfold execReadClear at e
  repeat' (first | (cases e; done) | (injection e with e; subst e) | split at e)
  all_goals (with_reducible repeat' (first | assumption | (refine Sub.of 524295 ?_ hmsk; with_unfolding_all rfl) | apply State.sesRead_keeps | (dsimp only)))

theorem execLoReadLatch_keeps {msk : Nat} {sb s : State} (ses : Fin 5) (addr : BitVec 24) (hmsk : Sub 524295 msk) (hK : Keeps msk sb s) : ∀ t, execLoReadLatch ses addr s = .next t → Keeps msk sb t := by
  intro t e; unfold execLoReadLatch at e
  repeat' (first | (cases e; done) | (injection e with e; subst e) | split at e)
  all_goals (with_reducible repeat' (first | assumption | (refine Sub.of 524295 ?_ hmsk; with_unfolding_all rfl) | apply State.sesRead_keeps | (dsimp only)))

theorem State.putReg_keeps {msk : Nat} {sb s : State} (a : Nat) (ix : List Nat) (base : Nat) (fs : List RegField) (data : Word) (hmsk : Sub 4 msk) (hK : Keeps msk sb s) : Keeps msk sb (State.putReg s a ix base fs data) := by
  unfold State.putReg; (with_reducible repeat' (first | assumption | (refine Sub.of 4 ?_ hmsk; with_unfolding_all rfl) | apply State.onRegs_keeps | (refine (Regs.wf_iff _).mpr ⟨?_, ?_, ?_, ?_, ?_⟩) | apply rset_wf | apply rcopy_wf | apply rfilter_wf | apply rmerge_wf | apply foldl_rset_wf | exact nil_wf | exact ((Regs.wf_iff _).mp ‹_›).1 | exact ((Regs.wf_iff _).mp ‹_›).2.1 | exact ((Regs.wf_iff _).mp ‹_›).2.2.1 | exact ((Regs.wf_iff _).mp ‹_›).2.2.2.1 | exact ((Regs.wf_iff _).mp ‹_›).2.2.2.2 | intro _ | (dsimp only)))

theorem State.regAfter_keeps {msk : Nat} {sb s : State} (s0 : State) (base : Nat) (ix : List Nat) (data : Word) (hmsk : Sub 2320 msk) (hK : Keeps msk sb s) : Keeps msk sb (State.regAfter s s0 base ix data) := by
  unfold State.regAfter; (with_reducible repeat' (first | assumption | (refine Sub.of 2320 ?_ hmsk; with_unfolding_all rfl) | apply State.knotCleared_keeps | apply State.onIng_keeps | apply State.lanesStart_keeps | apply State.laneReview_keeps | apply Keeps.foldl | apply Keeps.foldlFst | apply Keeps.getD | intro _ | split | (dsimp only) | (rename_i e; replace e := Option.map_eq_some_iff.mp e; obtain ⟨_, e, rfl⟩ := e) | (rename_i e; cases e; done) | (rename_i e; injection e with e; subst e) | (rename_i e; dsimp only at e) | (rename_i e; split at e)))

theorem State.visPut_keeps {msk : Nat} {sb s : State} (fwd : Bool) (data : Word) (hmsk : Sub 1024 msk) (hK : Keeps msk sb s) : ∀ t, State.visPut s fwd data = some t → Keeps msk sb t := by
  intro t e; unfold State.visPut at e; (try dsimp only at e)
  repeat' (first | (cases e; done) | (injection e with e; subst e) | split at e)
  all_goals (with_reducible repeat' (first | assumption | (refine Sub.of 1024 ?_ hmsk; with_unfolding_all rfl) | apply State.onVis_keeps | intro _ | split | (dsimp only)))

theorem State.regFx_keeps {msk : Nat} {sb s : State} (w : Writer) (fwd : Bool) (a : Nat) (r : RegRow) (ix : List Nat) (data : Word) (hmsk : Sub 3348 msk) (hK : Keeps msk sb s) : ∀ t, State.regFx s w fwd a r ix data = some t → Keeps msk sb t := by
  intro t e; unfold State.regFx at e; (try dsimp only at e)
  repeat' (first | (cases e; done) | (injection e with e; subst e) | split at e)
  all_goals (with_reducible repeat' (first | assumption | (refine Sub.of 3348 ?_ hmsk; with_unfolding_all rfl) | (refine State.visPut_keeps _ _ (Sub.of 3348 (by with_unfolding_all rfl) hmsk) ?_ _ (by assumption)) | apply State.tblNext_keeps | apply State.setF_keeps | apply State.putReg_keeps | apply State.regAfter_keeps | intro _ | split | (dsimp only) | (rename_i e; replace e := Option.map_eq_some_iff.mp e; obtain ⟨_, e, rfl⟩ := e) | (rename_i e; cases e; done) | (rename_i e; injection e with e; subst e) | (rename_i e; dsimp only at e) | (rename_i e; split at e)))

theorem State.regCmd_keeps {msk : Nat} {sb s : State} (ses : Fin 5) (a : Nat) (data : Word) (hmsk : Sub 19735 msk) (hK : Keeps msk sb s) : Keeps msk sb (State.regCmd s ses a data) := by
  unfold State.regCmd; (with_reducible repeat' (first | assumption | (refine Sub.of 19735 ?_ hmsk; with_unfolding_all rfl) | (refine State.regFx_keeps _ _ _ _ _ _ (Sub.of 19735 (by with_unfolding_all rfl) hmsk) ?_ _ (by assumption)) | apply State.sesWriteBy_keeps | apply State.tblNext_keeps | apply State.auditWrite_keeps | apply State.fwdBy_keeps | intro _ | split | (dsimp only) | (rename_i e; replace e := Option.map_eq_some_iff.mp e; obtain ⟨_, e, rfl⟩ := e) | (rename_i e; cases e; done) | (rename_i e; injection e with e; subst e) | (rename_i e; dsimp only at e) | (rename_i e; split at e)))

theorem State.motFx_keeps {msk : Nat} {sb s : State} (r : Role) (a : Fin 16) (w : Word) (hmsk : Sub 8196 msk) (hK : Keeps msk sb s) : ∀ t, State.motFx s r a w = some t → Keeps msk sb t := by
  intro t e; unfold State.motFx at e; (try dsimp only at e)
  repeat' (first | (cases e; done) | (injection e with e; subst e) | split at e)
  all_goals (with_reducible repeat' (first | assumption | (refine Sub.of 8196 ?_ hmsk; with_unfolding_all rfl) | (refine State.motGo_keeps _ (Sub.of 8196 (by with_unfolding_all rfl) hmsk) ?_ _ (by assumption)) | (refine State.motStop_keeps _ (Sub.of 8196 (by with_unfolding_all rfl) hmsk) ?_ _ (by assumption)) | apply Keeps.getD | intro _ | split | (dsimp only) | (rename_i e; replace e := Option.map_eq_some_iff.mp e; obtain ⟨_, e, rfl⟩ := e) | (rename_i e; cases e; done) | (rename_i e; injection e with e; subst e) | (rename_i e; dsimp only at e) | (rename_i e; split at e)))

theorem State.motCmd_keeps {msk : Nat} {sb s : State} (ses : Fin 5) (a : Fin 16) (w : Word) (hmsk : Sub 24583 msk) (hK : Keeps msk sb s) : Keeps msk sb (State.motCmd s ses a w) := by
  unfold State.motCmd; (with_reducible repeat' (first | assumption | (refine Sub.of 24583 ?_ hmsk; with_unfolding_all rfl) | (refine State.motFx_keeps _ _ _ (Sub.of 24583 (by with_unfolding_all rfl) hmsk) ?_ _ (by assumption)) | apply State.sesCmd_keeps | apply State.fwdWrite_keeps | intro _ | (dsimp only) | (rename_i e; replace e := Option.map_eq_some_iff.mp e; obtain ⟨_, e, rfl⟩ := e) | (rename_i e; cases e; done) | (rename_i e; injection e with e; subst e) | (rename_i e; dsimp only at e) | (rename_i e; split at e)))

theorem State.commitCmd_keeps {msk : Nat} {sb s : State} (ses : Fin 5) (g : Group) (w : Nat) (hmsk : Sub 417263 msk) (hK : Keeps msk sb s) : Keeps msk sb (State.commitCmd s ses g w) := by
  unfold State.commitCmd; (with_reducible repeat' (first | assumption | (refine Sub.of 417263 ?_ hmsk; with_unfolding_all rfl) | apply State.commitGo_keeps | apply State.commitDiscard_keeps | split | (dsimp only)))

theorem State.tblWrite_keeps {msk : Nat} {sb s : State} (ses : Fin 5) (w : Nat) (hmsk : Sub 9749439 msk) (hK : Keeps msk sb s) : Keeps msk sb (State.tblWrite s ses w) := by
  unfold State.tblWrite; (with_reducible repeat' (first | assumption | (refine Sub.of 9749439 ?_ hmsk; with_unfolding_all rfl) | apply State.tblCmd_keeps | split | (dsimp only)))

theorem State.diagCmd_keeps {msk : Nat} {sb s : State} (ses : Fin 5) (w : Word) (hmsk : Sub 524295 msk) (hK : Keeps msk sb s) : Keeps msk sb (State.diagCmd s ses w) := by
  unfold State.diagCmd; (with_reducible repeat' (first | assumption | (refine Sub.of 524295 ?_ hmsk; with_unfolding_all rfl) | (refine State.diagBeat_keeps _ _ (Sub.of 524295 (by with_unfolding_all rfl) hmsk) ?_ _ (by assumption)) | apply State.sesCmd_keeps | apply State.drawn_keeps | intro _ | split | (dsimp only) | (rename_i e; replace e := Option.map_eq_some_iff.mp e; obtain ⟨_, e, rfl⟩ := e) | (rename_i e; cases e; done) | (rename_i e; injection e with e; subst e) | (rename_i e; dsimp only at e) | (rename_i e; split at e)))

theorem State.cmdAt_keeps {msk : Nat} {sb s : State} (ses : Fin 5) (a : Nat) (w : Word) (hmsk : Sub 33554431 msk) (hK : Keeps msk sb s) : ∀ t, State.cmdAt s ses a w = some t → Keeps msk sb t := by
  intro t e; unfold State.cmdAt at e; (try dsimp only at e)
  repeat' (first | (cases e; done) | (injection e with e; subst e) | split at e)
  all_goals (with_reducible repeat' (first | assumption | (refine Sub.of 33554431 ?_ hmsk; with_unfolding_all rfl) | apply State.modeReq_keeps | apply State.resetCmd_keeps | apply State.nvmCmd_keeps | apply State.diagCmd_keeps | apply State.calCmd_keeps | apply State.seqCommand_keeps | apply State.tblWrite_keeps | apply State.timCmd_keeps | apply State.duneWrite_keeps | apply State.encCmd_keeps | apply State.motCmd_keeps | apply State.cmdTarget_keeps | split | (dsimp only)))

theorem State.laneCmdAt_keeps {msk : Nat} {sb s : State} (ses : Fin 5) (a : Nat) (w : Word) (hmsk : Sub 263 msk) (hK : Keeps msk sb s) : ∀ t, State.laneCmdAt s ses a w = some t → Keeps msk sb t := by
  intro t e; unfold State.laneCmdAt at e; (try dsimp only at e)
  repeat' (first | (cases e; done) | (injection e with e; subst e) | split at e)
  all_goals (with_reducible repeat' (first | assumption | (refine Sub.of 263 ?_ hmsk; with_unfolding_all rfl) | apply State.patGo_keeps | apply State.injCmd_keeps | apply State.eyeCmd_keeps | split | (dsimp only)))

theorem State.writeAt_keeps {msk : Nat} {sb s0 : State} (ses : Fin 5) (a : Nat) (w : Word) (hmsk : Sub 33554431 msk) (hK : Keeps msk sb s0) : Keeps msk sb (State.writeAt s0 ses a w) := by
  unfold State.writeAt; (with_reducible repeat' (first | assumption | (refine Sub.of 33554431 ?_ hmsk; with_unfolding_all rfl) | (refine State.cmdAt_keeps _ _ _ (Sub.of 33554431 (by with_unfolding_all rfl) hmsk) ?_ _ (by assumption)) | (refine State.laneCmdAt_keeps _ _ _ (Sub.of 33554431 (by with_unfolding_all rfl) hmsk) ?_ _ (by assumption)) | apply State.live_keeps | apply State.burstCut_keeps | apply State.winCmd_keeps | apply State.commitCmd_keeps | apply State.regCmd_keeps | intro _ | split | (dsimp only) | (rename_i e; replace e := Option.map_eq_some_iff.mp e; obtain ⟨_, e, rfl⟩ := e) | (rename_i e; cases e; done) | (rename_i e; injection e with e; subst e) | (rename_i e; dsimp only at e) | (rename_i e; split at e)))

theorem State.hostWrite_keeps {msk : Nat} {sb s : State} (a : Nat) (w : Word) (hmsk : Sub 16413 msk) (hK : Keeps msk sb s) : Keeps msk sb (State.hostWrite s a w) := by
  unfold State.hostWrite; (with_reducible repeat' (first | assumption | (refine Sub.of 16413 ?_ hmsk; with_unfolding_all rfl) | apply State.live_keeps | apply State.doorbell_keeps | apply State.hostLive_keeps | apply State.cplAck_keeps | apply State.when_keeps | apply State.ringReset_keeps | apply State.onRing_keeps | intro _ | split | (dsimp only)))

theorem execRegisterWrite_keeps {msk : Nat} {sb s : State} (by_ : Port) (addr : BitVec 24) (data : Word) (hmsk : Sub 33554431 msk) (hK : Keeps msk sb s) : ∀ t, execRegisterWrite by_ addr data s = .next t → Keeps msk sb t := by
  intro t e; unfold execRegisterWrite at e
  repeat' (first | (cases e; done) | (injection e with e; subst e) | split at e)
  all_goals (with_reducible repeat' (first | assumption | (refine Sub.of 33554431 ?_ hmsk; with_unfolding_all rfl) | apply State.writeAt_keeps | apply State.settleFaults_keeps | apply State.hostWrite_keeps | split | (dsimp only)))

theorem State.heldReplay_keeps {msk : Nat} {sb s : State} (hmsk : Sub 33554431 msk) (hK : Keeps msk sb s) : Keeps msk sb (State.heldReplay s) := by
  unfold State.heldReplay; (with_reducible repeat' (first | assumption | (refine Sub.of 33554431 ?_ hmsk; with_unfolding_all rfl) | (refine fun (hb : msk.testBit 21 = false) => ?_; with_unfolding_all exact (Sub.off (p := .roles) 33554431 hmsk rfl hb).elim) | apply State.writeAt_keeps | apply State.onCfg_keeps | apply Keeps.foldl | apply Keeps.foldlFst | intro _ | (dsimp only)))

theorem execAuditPageProgram_keeps {msk : Nat} {sb s : State} (hmsk : Sub 33554431 msk) (hK : Keeps msk sb s) : ∀ t, execAuditPageProgram s = .next t → Keeps msk sb t := by
  intro t e; unfold execAuditPageProgram at e
  repeat' (first | (cases e; done) | (injection e with e; subst e) | split at e)
  all_goals (with_reducible repeat' (first | assumption | (refine Sub.of 33554431 ?_ hmsk; with_unfolding_all rfl) | apply State.live_keeps | apply State.auditPage_keeps | apply State.heldReplay_keeps | apply State.settleFaults_keeps | intro _ | (dsimp only)))

theorem State.wakeReplay_keeps {msk : Nat} {sb s : State} (hmsk : Sub 33554431 msk) (hK : Keeps msk sb s) : Keeps msk sb (State.wakeReplay s) := by
  unfold State.wakeReplay; (with_reducible repeat' (first | assumption | (refine Sub.of 33554431 ?_ hmsk; with_unfolding_all rfl) | (refine fun (hb : msk.testBit 20 = false) => ?_; with_unfolding_all exact (Sub.off (p := .mode) 33554431 hmsk rfl hb).elim) | apply State.writeAt_keeps | apply State.sesRead_keeps | apply State.onSys_keeps | apply Keeps.foldl | apply Keeps.foldlFst | intro _ | split | (dsimp only)))

theorem State.wakeDone_keeps {msk : Nat} {sb s : State} (hmsk : Sub 33554431 msk) (hK : Keeps msk sb s) : Keeps msk sb (State.wakeDone s) := by
  unfold State.wakeDone; (with_reducible repeat' (first | assumption | (refine Sub.of 33554431 ?_ hmsk; with_unfolding_all rfl) | (refine fun (hb : msk.testBit 20 = false) => ?_; with_unfolding_all exact (Sub.off (p := .mode) 33554431 hmsk rfl hb).elim) | apply State.onSys_keeps | apply State.coldWarm_keeps | apply State.setMode_keeps | apply State.wakeReplay_keeps | intro _ | split | (dsimp only)))

theorem execColdWakeComplete_keeps {msk : Nat} {sb s : State} (hmsk : Sub 33554431 msk) (hK : Keeps msk sb s) : ∀ t, execColdWakeComplete s = .next t → Keeps msk sb t := by
  intro t e; unfold execColdWakeComplete at e
  repeat' (first | (cases e; done) | (injection e with e; subst e) | split at e)
  all_goals (with_reducible repeat' (first | assumption | (refine Sub.of 33554431 ?_ hmsk; with_unfolding_all rfl) | apply State.live_keeps | apply State.wakeDone_keeps | apply State.settleFaults_keeps | intro _ | (dsimp only)))

theorem State.fwdBurstWrite_keeps {msk : Nat} {sb s : State} (w : Writer) (a : Nat) (data : Word) (hmsk : Sub 2 msk) (hK : Keeps msk sb s) : Keeps msk sb (State.fwdBurstWrite s w a data) := by
  unfold State.fwdBurstWrite; (with_reducible repeat' (first | assumption | (refine Sub.of 2 ?_ hmsk; with_unfolding_all rfl) | (refine fun (hb : msk.testBit 21 = false) => ?_; intro _ n; first | rfl | exact role_vmod _ _ n (fun _ => rfl) | (dsimp only; split <;> rfl)) | apply State.endFwdBurst_keeps | apply State.onCfg_keeps | intro _ | split | (dsimp only)))

theorem State.fwdCmdAt_keeps {msk : Nat} {sb s : State} (w : Writer) (a : Nat) (data : Word) (hmsk : Sub 1238015 msk) (hK : Keeps msk sb s) : ∀ t, State.fwdCmdAt s w a data = some t → Keeps msk sb t := by
  intro t e; unfold State.fwdCmdAt at e; (try dsimp only at e)
  repeat' (first | (cases e; done) | (injection e with e; subst e) | split at e)
  all_goals (with_reducible repeat' (first | assumption | (refine Sub.of 1238015 ?_ hmsk; with_unfolding_all rfl) | (refine State.seqFx_keeps _ (Sub.of 1238015 (by with_unfolding_all rfl) hmsk) ?_ _ (by assumption)) | (refine State.timFx_keeps _ _ (Sub.of 1238015 (by with_unfolding_all rfl) hmsk) ?_ _ (by assumption)) | (refine State.motFx_keeps _ _ _ (Sub.of 1238015 (by with_unfolding_all rfl) hmsk) ?_ _ (by assumption)) | apply State.asShadow_keeps | apply State.duneFx_keeps | apply State.encFx_keeps | apply State.targetFx_keeps | apply Keeps.getD | intro _ | split | (dsimp only) | (rename_i e; replace e := Option.map_eq_some_iff.mp e; obtain ⟨_, e, rfl⟩ := e) | (rename_i e; cases e; done) | (rename_i e; injection e with e; subst e) | (rename_i e; dsimp only at e) | (rename_i e; split at e)))

theorem State.fwdApply_keeps {msk : Nat} {sb s : State} (w : Writer) (addr : Nat) (data : Word) (hmsk : Sub 1507327 msk) (hK : Keeps msk sb s) : Keeps msk sb (State.fwdApply s w addr data) := by
  unfold State.fwdApply; (with_reducible repeat' (first | assumption | (refine Sub.of 1507327 ?_ hmsk; with_unfolding_all rfl) | (refine State.fwdCmdAt_keeps _ _ _ (Sub.of 1507327 (by with_unfolding_all rfl) hmsk) ?_ _ (by assumption)) | (refine State.regFx_keeps _ _ _ _ _ _ (Sub.of 1507327 (by with_unfolding_all rfl) hmsk) ?_ _ (by assumption)) | apply State.winPut_keeps | apply State.fwdBurstWrite_keeps | apply State.endFwdBurst_keeps | apply State.auditBy_keeps | apply State.goStage_keeps | apply State.unstage_keeps | intro _ | split | (dsimp only) | (rename_i e; replace e := Option.map_eq_some_iff.mp e; obtain ⟨_, e, rfl⟩ := e) | (rename_i e; cases e; done) | (rename_i e; injection e with e; subst e) | (rename_i e; dsimp only at e) | (rename_i e; split at e)))

end Sys2Proof.Machine
end

