-- ==== Sys2Proof/Laws/KeepsStandby.lean ====
section
/-! SUPPORT. What each operation of Machine/Standby.lean keeps: the queue, and the canonical form of the register maps. -/
set_option Elab.async false
namespace Sys2Proof.Machine

theorem Regs.adopt_wf {r : Regs} (h : r.wf = true) (c : Checkpoint) : (r.adopt c).wf = true := by
  obtain ⟨h1, h2, h3, h4, h5⟩ := (Regs.wf_iff _).mp h
  exact (Regs.wf_iff _).mpr ⟨rcopy_wf h1 _ _, rcopy_wf h2 _ _, rcopy_wf h3 _ _, rcopy_wf h4 _ _, h5⟩

theorem State.descItem_keeps {msk : Nat} {sb s : State} (r : Fin 8) (d : Desc) (p : List Byte) (hmsk : Sub 1631167 msk) (hK : Keeps msk sb s) : Keeps msk sb (State.descItem s r d p) := by
  unfold State.descItem; (with_reducible repeat' (first | assumption | (refine Sub.of 1631167 ?_ hmsk; with_unfolding_all rfl) | apply State.openJob_keeps | apply State.dataDesc_keeps | apply State.closeJob_keeps | apply State.asShadow_keeps | apply State.abortDesc_keeps | intro _ | split | (dsimp only)))

theorem State.jobItem_keeps {msk : Nat} {sb s : State} (h : BitVec 16) (kind status obj : Nat) (hmsk : Sub 16703 msk) (hK : Keeps msk sb s) : Keeps msk sb (State.jobItem s h kind status obj) := by
  unfold State.jobItem; (with_reducible repeat' (first | assumption | (refine Sub.of 16703 ?_ hmsk; with_unfolding_all rfl) | apply State.stale_keeps | apply State.settleClose_keeps | apply State.asShadow_keeps | apply State.leaveJob_keeps | apply State.objLost_keeps | apply State.ctxDrop_keeps | apply State.failJob_keeps | apply State.dropJobs_keeps | intro _ | split | (dsimp only)))

theorem State.requestItem_keeps {msk : Nat} {sb s0 : State} (r : ModeReq) (hmsk : Sub 1897471 msk) (hK : Keeps msk sb s0) : Keeps msk sb (State.requestItem s0 r) := by
  unfold State.requestItem; (with_reducible repeat' (first | assumption | (refine Sub.of 1897471 ?_ hmsk; with_unfolding_all rfl) | apply State.auditBy_keeps | apply State.asShadow_keeps | apply State.reqDo_keeps | apply State.bindPrep_keeps | apply State.firingEnds_keeps | intro _ | split | (dsimp only)))

theorem State.holdItem_keeps {msk : Nat} {sb s : State} (hmsk : Sub 2212 msk) (hK : Keeps msk sb s) : ∀ (z0 : HoldAct), Keeps msk sb (State.holdItem s z0) := by
  intro z0; unfold State.holdItem; (with_reducible repeat' (first | assumption | (refine Sub.of 2212 ?_ hmsk; with_unfolding_all rfl) | (refine fun (hb : msk.testBit 22 = false) => ?_; intro _; first | rfl | (dsimp only; split <;> rfl)) | apply State.onBar_keeps | apply State.onChl_keeps | apply State.setF_keeps | apply State.knotsFree_keeps | apply State.onLtm_keeps | intro _ | split | (dsimp only)))

theorem State.statsItem_keeps {msk : Nat} {sb s : State} (r : StatRec) (hmsk : Sub 1036 msk) (hK : Keeps msk sb s) : Keeps msk sb (State.statsItem s r) := by
  unfold State.statsItem; (with_reducible repeat' (first | assumption | (refine Sub.of 1036 ?_ hmsk; with_unfolding_all rfl) | apply State.onVis_keeps | apply State.visPump_keeps | intro _ | (dsimp only)))

theorem State.shadowHalts_keeps {msk : Nat} {sb s : State} (hmsk : Sub 532925 msk) (hK : Keeps msk sb s) : Keeps msk sb (State.shadowHalts s) := by
  unfold State.shadowHalts; (with_reducible repeat' (first | assumption | (refine Sub.of 532925 ?_ hmsk; with_unfolding_all rfl) | (refine fun (hb : msk.testBit 20 = false) => ?_; intro _; first | rfl | (dsimp only; split <;> rfl)) | (refine fun (hb : msk.testBit 22 = false) => ?_; intro _; first | rfl | (dsimp only; split <;> rfl)) | apply State.onLtm_keeps | apply State.cutOff_keeps | apply State.onSys_keeps | apply State.onMot_keeps | intro _ | split | (dsimp only)))

theorem State.modeItem_keeps {msk : Nat} {sb s : State} (m : Mode) (cold : Bool) (hmsk : Sub 1631231 msk) (hK : Keeps msk sb s) : Keeps msk sb (State.modeItem s m cold) := by
  unfold State.modeItem; (with_reducible repeat' (first | assumption | (refine Sub.of 1631231 ?_ hmsk; with_unfolding_all rfl) | apply State.asShadow_keeps | apply State.shadowHalts_keeps | apply State.coldRest_keeps | apply State.coldWarm_keeps | apply State.setMode_keeps | intro _ | split | (dsimp only)))

theorem State.commitItem_keeps {msk : Nat} {sb s : State} (g : Group) (line : Nat) (hmsk : Sub 417260 msk) (hK : Keeps msk sb s) : Keeps msk sb (State.commitItem s g line) := by
  unfold State.commitItem; (with_reducible repeat' (first | assumption | (refine Sub.of 417260 ?_ hmsk; with_unfolding_all rfl) | apply State.applyGroup_keeps | split | (dsimp only)))

theorem State.applyItem_keeps {msk : Nat} {sb s : State} (hmsk : Sub 2031615 msk) (hK : Keeps msk sb s) : ∀ (z0 : FwdItem), Keeps msk sb (State.applyItem s z0) := by
  intro z0; unfold State.applyItem; (with_reducible repeat' (first | assumption | (refine Sub.of 2031615 ?_ hmsk; with_unfolding_all rfl) | (refine fun (hb : msk.testBit 23 = false) => ?_; intro _; first | rfl | (dsimp only; split <;> rfl)) | apply State.descItem_keeps | apply State.jobItem_keeps | apply State.fwdApply_keeps | apply State.requestItem_keeps | apply State.commitItem_keeps | apply State.holdItem_keeps | apply State.statsItem_keeps | apply State.onChl_keeps | apply State.asShadow_keeps | apply State.lampFrame_keeps | apply State.onPad_keeps | apply State.onTbl_keeps | apply State.modeItem_keeps | apply Keeps.getD | intro _ | split | (dsimp only) | (rename_i e; replace e := Option.map_eq_some_iff.mp e; obtain ⟨_, e, rfl⟩ := e) | (rename_i e; cases e; done) | (rename_i e; injection e with e; subst e) | (rename_i e; dsimp only at e) | (rename_i e; split at e)))

theorem State.itemsPass_keeps {m : Nat} {sb : State} (hm : Sub 2031615 m) :
    ∀ (l kept : List FwdItem) {s : State}, Keeps m sb s → Keeps m sb (s.itemsPass kept l)
  | [], kept, s, h => by
    unfold State.itemsPass
    split
    · exact State.onTbl_keeps _ (Sub.of 2031615 rfl hm) h (fun _ _ => rfl)
    · exact h
  | i :: t, kept, s, h => by
    unfold State.itemsPass
    split
    · exact h
    · split
      · exact State.itemsPass_keeps hm t kept (State.applyItem_keeps (Sub.of 2031615 rfl hm) h i)
      · exact State.itemsPass_keeps hm t (kept ++ [i]) h

theorem State.settleLater_keeps {msk : Nat} {sb s : State} (hmsk : Sub 2031615 msk) (hK : Keeps msk sb s) : Keeps msk sb (State.settleLater s) := by
  unfold State.settleLater; (with_reducible repeat' (first | assumption | (refine Sub.of 2031615 ?_ hmsk; with_unfolding_all rfl) | apply State.itemsPass_keeps | split | (dsimp only)))

theorem State.runEvts_keeps {msk : Nat} {sb s : State} (hmsk : Sub 6291455 msk) (hK : Keeps msk sb s) : ∀ (z0 : Nat), Keeps msk sb (State.runEvts s z0) := by
  intro z0
  induction z0 generalizing s with
  | zero => (unfold State.runEvts); (with_reducible repeat' (first | assumption | (refine Sub.of 6291455 ?_ hmsk; with_unfolding_all rfl) | (refine fun (hb : msk.testBit 23 = false) => ?_; intro _; first | rfl | (dsimp only; split <;> rfl)) | apply State.onTbl_keeps | apply State.lineEvt_keeps | apply State.settleLater_keeps | intro _ | split | (dsimp only)))
  | succ k ih => (unfold State.runEvts); (with_reducible repeat' (first | assumption | (refine Sub.of 6291455 ?_ hmsk; with_unfolding_all rfl) | (refine fun (hb : msk.testBit 23 = false) => ?_; intro _; first | rfl | (dsimp only; split <;> rfl)) | apply ih | apply State.onTbl_keeps | apply State.lineEvt_keeps | apply State.settleLater_keeps | intro _ | split | (dsimp only)))

theorem State.standbyOn_keeps {msk : Nat} {sb s : State} (hmsk : Sub 6291455 msk) (hK : Keeps msk sb s) : Keeps msk sb (State.standbyOn s) := by
  unfold State.standbyOn; (with_reducible repeat' (first | assumption | (refine Sub.of 6291455 ?_ hmsk; with_unfolding_all rfl) | apply State.settleLater_keeps | apply State.runEvts_keeps | (dsimp only)))

theorem State.recordIn_keeps {msk : Nat} {sb s : State} (r : FwdRec) (crcOk : Bool) (hmsk : Sub 23068671 msk) (hK : Keeps msk sb s) : Keeps msk sb (State.recordIn s r crcOk) := by
  unfold State.recordIn; (with_reducible repeat' (first | assumption | (refine Sub.of 23068671 ?_ hmsk; with_unfolding_all rfl) | (refine fun (hb : msk.testBit 23 = false) => ?_; intro _; first | rfl | (dsimp only; split <;> rfl)) | apply State.askReplay_keeps | apply State.onTbl_keeps | apply State.standbyOn_keeps | intro _ | split | (dsimp only)))

theorem execForwardRecord_keeps {msk : Nat} {sb s : State} (r : FwdRec) (crcOk : Bool) (hmsk : Sub 31457279 msk) (hK : Keeps msk sb s) : ∀ t, execForwardRecord r crcOk s = .next t → Keeps msk sb t := by
  intro t e; unfold execForwardRecord at e
  repeat' (first | (cases e; done) | (injection e with e; subst e) | split at e)
  all_goals (with_reducible repeat' (first | assumption | (refine Sub.of 31457279 ?_ hmsk; with_unfolding_all rfl) | apply State.liveF_keeps | apply State.recordIn_keeps | intro _ | (dsimp only)))

theorem execLineEvent_keeps {msk : Nat} {sb s : State} (g : BitVec 48) (f : Nat) (void : Bool) (deal fseq : BitVec 32) (hmsk : Sub 31457279 msk) (hK : Keeps msk sb s) : ∀ t, execLineEvent g f void deal fseq s = .next t → Keeps msk sb t := by
  intro t e; unfold execLineEvent at e
  repeat' (first | (cases e; done) | (injection e with e; subst e) | split at e)
  all_goals (with_reducible repeat' (first | assumption | (refine Sub.of 31457279 ?_ hmsk; with_unfolding_all rfl) | (refine fun (hb : msk.testBit 23 = false) => ?_; with_unfolding_all exact (Sub.off (p := .trump) 31457279 hmsk rfl hb).elim) | apply State.liveF_keeps | apply State.when_keeps | apply State.onTbl_keeps | apply State.standbyOn_keeps | intro _ | (dsimp only)))

theorem State.lateTakes_keeps {msk : Nat} {sb s : State} (b : Fin 8) (hmsk : Sub 81928 msk) (hK : Keeps msk sb s) : Keeps msk sb (State.lateTakes s b) := by
  unfold State.lateTakes; (with_reducible repeat' (first | assumption | (refine Sub.of 81928 ?_ hmsk; with_unfolding_all rfl) | apply State.standbyTake_keeps | apply Keeps.foldl | apply Keeps.foldlFst | intro _ | split | (dsimp only)))

theorem State.barWorks_keeps {msk : Nat} {sb s : State} (b : Fin 8) (hmsk : Sub 2097151 msk) (hK : Keeps msk sb s) : Keeps msk sb (State.barWorks s b) := by
  unfold State.barWorks; (with_reducible repeat' (first | assumption | (refine Sub.of 2097151 ?_ hmsk; with_unfolding_all rfl) | apply State.settleLater_keeps | apply State.composeLine_keeps | apply State.settleBar_keeps | apply State.lateTakes_keeps | apply State.when_keeps | apply State.digestsOut_keeps | intro _ | split | (dsimp only)))

theorem execBarComposeLine_keeps {msk : Nat} {sb s : State} (b : Fin 8) (hmsk : Sub 27262975 msk) (hK : Keeps msk sb s) : ∀ t, execBarComposeLine b s = .next t → Keeps msk sb t := by
  intro t e; unfold execBarComposeLine at e
  repeat' (first | (cases e; done) | (injection e with e; subst e) | split at e)
  all_goals (with_reducible repeat' (first | assumption | (refine Sub.of 27262975 ?_ hmsk; with_unfolding_all rfl) | apply State.liveF_keeps | apply State.barWorks_keeps | intro _ | (dsimp only)))

theorem execSlewerWriteback_keeps {msk : Nat} {sb s : State} (b : Fin 8) (hmsk : Sub 2080 msk) (hK : Keeps msk sb s) : ∀ t, execSlewerWriteback b s = .next t → Keeps msk sb t := by
  intro t e; unfold execSlewerWriteback at e
  repeat' (first | (cases e; done) | (injection e with e; subst e) | split at e)
  all_goals (with_reducible repeat' (first | assumption | (refine Sub.of 2080 ?_ hmsk; with_unfolding_all rfl) | apply State.live_keeps | apply State.slewerWriteback_keeps | apply State.settleBar_keeps | intro _ | (dsimp only)))

theorem execIdleTableUpdate_keeps {msk : Nat} {sb s : State} (b : Fin 8) (block : Nat) (hmsk : Sub 2080 msk) (hK : Keeps msk sb s) : ∀ t, execIdleTableUpdate b block s = .next t → Keeps msk sb t := by
  intro t e; unfold execIdleTableUpdate at e
  repeat' (first | (cases e; done) | (injection e with e; subst e) | split at e)
  all_goals (with_reducible repeat' (first | assumption | (refine Sub.of 2080 ?_ hmsk; with_unfolding_all rfl) | apply State.live_keeps | apply State.when_keeps | apply State.onBar_keeps | apply State.settleBar_keeps | intro _ | (dsimp only)))

theorem State.adopt_keeps {m : Nat} {sb s : State} (c : Checkpoint) (hm : Sub 5308351 m) (hK : Keeps m sb s) :
    Keeps m sb (State.adopt s c) := by
  unfold State.adopt
  extract_lets s1 l2 x2 y2 s2 s3 s4 s5 s6 q
  have h1 : Keeps m sb s1 := State.onRegs_keeps (Sub.of 5308351 rfl hm) hK (fun r hr => Regs.adopt_wf hr c)
  have h2 : Keeps m sb s2 := ⟨h1.pending, h1.regs, fun p hp => by
    cases p <;> first | exact h1.parts _ hp | exact (Sub.off 5308351 hm rfl hp).elim⟩
  have h6 : Keeps m sb s6 := State.onSys_keeps _ (Sub.of 5308351 rfl hm) (State.onTbl_keeps _ (Sub.of 5308351 rfl hm)
    (State.onVis_keeps _ (Sub.of 5308351 rfl hm) (State.onLnk_keeps _ (Sub.of 5308351 rfl hm) (State.onIng_keeps _ (Sub.of 5308351 rfl hm) h2)))
    (fun _ _ => rfl)) (fun _ _ => rfl)
  have hq : Keeps m sb q := by
    refine Keeps.foldl (fun x a hx => ?_) h6
    refine State.ringTest_keeps _ (Sub.of 5308351 rfl hm) ?_
    split
    · exact State.qFlush_keeps _ (Sub.of 5308351 rfl hm) hx
    · exact hx
  clear_value q
  refine State.setMode_keeps _ _ (Sub.of 5308351 rfl hm) ?_
  split
  · exact State.coldRest_keeps (Sub.of 5308351 rfl hm) hq
  · exact hq

theorem State.copyDone_keeps {msk : Nat} {sb s : State} (cp : Option Checkpoint) (hmsk : Sub 5308351 msk) (hK : Keeps msk sb s) : Keeps msk sb (State.copyDone s cp) := by
  unfold State.copyDone; (with_reducible repeat' (first | assumption | (refine Sub.of 5308351 ?_ hmsk; with_unfolding_all rfl) | (refine fun (hb : msk.testBit 23 = false) => ?_; intro _; first | rfl | (dsimp only; split <;> rfl)) | apply State.onTbl_keeps | apply State.checkpointTry_keeps | apply State.adopt_keeps | intro _ | split | (dsimp only)))

theorem execResyncCopyDone_keeps {msk : Nat} {sb s : State} (cp : Option Checkpoint) (hmsk : Sub 5308351 msk) (hK : Keeps msk sb s) : ∀ t, execResyncCopyDone cp s = .next t → Keeps msk sb t := by
  intro t e; unfold execResyncCopyDone at e
  repeat' (first | (cases e; done) | (injection e with e; subst e) | split at e)
  all_goals (with_reducible repeat' (first | assumption | (refine Sub.of 5308351 ?_ hmsk; with_unfolding_all rfl) | apply State.live_keeps | apply State.copyDone_keeps | intro _ | (dsimp only)))

theorem State.autoJoin_keeps {msk : Nat} {sb s : State} (hmsk : Sub 1373183 msk) (hK : Keeps msk sb s) : Keeps msk sb (State.autoJoin s) := by
  unfold State.autoJoin; (with_reducible repeat' (first | assumption | (refine Sub.of 1373183 ?_ hmsk; with_unfolding_all rfl) | apply State.reqDo_keeps | split | (dsimp only)))

theorem execAutoJoin_keeps {msk : Nat} {sb s : State} (hmsk : Sub 1373183 msk) (hK : Keeps msk sb s) : ∀ t, execAutoJoin s = .next t → Keeps msk sb t := by
  intro t e; unfold execAutoJoin at e
  repeat' (first | (cases e; done) | (injection e with e; subst e) | split at e)
  all_goals (with_reducible repeat' (first | assumption | (refine Sub.of 1373183 ?_ hmsk; with_unfolding_all rfl) | apply State.live_keeps | apply State.autoJoin_keeps | intro _ | (dsimp only)))

theorem State.idleTick_keeps {msk : Nat} {sb s : State} (hmsk : Sub 672263 msk) (hK : Keeps msk sb s) : Keeps msk sb (State.idleTick s) := by
  unfold State.idleTick; (with_reducible repeat' (first | assumption | (refine Sub.of 672263 ?_ hmsk; with_unfolding_all rfl) | (refine fun (hb : msk.testBit 21 = false) => ?_; intro _ n; first | rfl | exact role_vmod _ _ n (fun _ => rfl) | (dsimp only; split <;> rfl)) | (refine fun (hb : msk.testBit 23 = false) => ?_; intro _; first | rfl | (dsimp only; split <;> rfl)) | apply State.live_keeps | apply State.onCfg_keeps | apply State.onTbl_keeps | apply State.onTim_keeps | apply State.memTick_keeps | apply State.bootTick_keeps | apply State.forward_keeps | intro _ | split | (dsimp only)))

end Sys2Proof.Machine
end

