-- ==== Sys2Proof/Laws/KeepsSignals.lean ====
section
/-! SUPPORT. What each operation of Machine/Signals.lean keeps: the queue, and the canonical form of the register maps. -/
set_option Elab.async false
namespace Sys2Proof.Machine

theorem State.consume_keeps {msk : Nat} {sb s : State} (q : Fin 64) (hmsk : Sub 1961919 msk) (hK : Keeps msk sb s) : Keeps msk sb (State.consume s q) := by
  unfold State.consume; (with_reducible repeat' (first | assumption | (refine Sub.of 1961919 ?_ hmsk; with_unfolding_all rfl) | apply State.when_keeps | apply State.standbyTake_keeps | apply State.takeChunk_keeps | apply State.visTake_keeps | apply State.statsRead_keeps | apply State.settle_keeps | apply State.archTake_keeps | apply State.qFree_keeps | intro _ | split | (dsimp only)))

theorem execQueueEntryConsume_keeps {msk : Nat} {sb s : State} (q : Fin 64) (hmsk : Sub 1961919 msk) (hK : Keeps msk sb s) : ∀ t, execQueueEntryConsume q s = .next t → Keeps msk sb t := by
  intro t e; unfold execQueueEntryConsume at e
  repeat' (first | (cases e; done) | (injection e with e; subst e) | split at e)
  all_goals (with_reducible repeat' (first | assumption | (refine Sub.of 1961919 ?_ hmsk; with_unfolding_all rfl) | apply State.live_keeps | apply State.consume_keeps | intro _ | (dsimp only)))

theorem State.producers_keeps {msk : Nat} {sb s : State} (q : Fin 64) (hmsk : Sub 1084 msk) (hK : Keeps msk sb s) : Keeps msk sb (State.producers s q) := by
  unfold State.producers; (with_reducible repeat' (first | assumption | (refine Sub.of 1084 ?_ hmsk; with_unfolding_all rfl) | apply State.resume_keeps | apply State.visPump_keeps | apply State.pump_keeps | apply Keeps.foldl | apply Keeps.foldlFst | intro _ | split | (dsimp only)))

theorem execProducerResume_keeps {msk : Nat} {sb s : State} (q : Fin 64) (hmsk : Sub 1084 msk) (hK : Keeps msk sb s) : ∀ t, execProducerResume q s = .next t → Keeps msk sb t := by
  intro t e; unfold execProducerResume at e
  repeat' (first | (cases e; done) | (injection e with e; subst e) | split at e)
  all_goals (with_reducible repeat' (first | assumption | (refine Sub.of 1084 ?_ hmsk; with_unfolding_all rfl) | apply State.live_keeps | apply State.producers_keeps | intro _ | (dsimp only)))

theorem State.trip_keeps {msk : Nat} {sb s : State} (a : Fin 16) (phaseB atMaskEnd : Bool) (hmsk : Sub 16850956 msk) (hK : Keeps msk sb s) : Keeps msk sb (State.trip s a phaseB atMaskEnd) := by
  unfold State.trip; (with_reducible repeat' (first | assumption | (refine Sub.of 16850956 ?_ hmsk; with_unfolding_all rfl) | apply State.onPhase_keeps | apply State.setF_keeps | apply State.upset_keeps | intro _ | split | (dsimp only)))

theorem execChopperTrip_keeps {msk : Nat} {sb s : State} (a : Fin 12) (phaseB atMaskEnd : Bool) (hmsk : Sub 26607615 msk) (hK : Keeps msk sb s) : ∀ t, execChopperTrip a phaseB atMaskEnd s = .next t → Keeps msk sb t := by
  intro t e; unfold execChopperTrip at e
  repeat' (first | (cases e; done) | (injection e with e; subst e) | split at e)
  all_goals (with_reducible repeat' (first | assumption | (refine Sub.of 26607615 ?_ hmsk; with_unfolding_all rfl) | apply State.liveF_keeps | apply State.trip_keeps | intro _ | (dsimp only)))

theorem State.onMax_keeps {msk : Nat} {sb s : State} (a : Fin 16) (phaseB : Bool) (hmsk : Sub 16850956 msk) (hK : Keeps msk sb s) : Keeps msk sb (State.onMax s a phaseB) := by
  unfold State.onMax; (with_reducible repeat' (first | assumption | (refine Sub.of 16850956 ?_ hmsk; with_unfolding_all rfl) | apply State.onPhase_keeps | apply State.setF_keeps | apply State.upset_keeps | intro _ | split | (dsimp only)))

theorem execChopperOnMax_keeps {msk : Nat} {sb s : State} (a : Fin 12) (phaseB : Bool) (hmsk : Sub 26607615 msk) (hK : Keeps msk sb s) : ∀ t, execChopperOnMax a phaseB s = .next t → Keeps msk sb t := by
  intro t e; unfold execChopperOnMax at e
  repeat' (first | (cases e; done) | (injection e with e; subst e) | split at e)
  all_goals (with_reducible repeat' (first | assumption | (refine Sub.of 26607615 ?_ hmsk; with_unfolding_all rfl) | apply State.liveF_keeps | apply State.onMax_keeps | intro _ | (dsimp only)))

theorem State.telemetry_keeps {msk : Nat} {sb s : State} (hmsk : Sub 65548 msk) (hK : Keeps msk sb s) : Keeps msk sb (State.telemetry s) := by
  unfold State.telemetry; (with_reducible repeat' (first | assumption | (refine Sub.of 65548 ?_ hmsk; with_unfolding_all rfl) | (refine fun (hb : msk.testBit 24 = false) => ?_; intro _; first | rfl | (dsimp only; split <;> rfl)) | apply State.raise_keeps | apply State.onFlt_keeps | apply Keeps.foldl | apply Keeps.foldlFst | intro _ | split | (dsimp only)))

theorem execTelemetryInterval_keeps {msk : Nat} {sb s : State} (hmsk : Sub 65548 msk) (hK : Keeps msk sb s) : ∀ t, execTelemetryInterval s = .next t → Keeps msk sb t := by
  intro t e; unfold execTelemetryInterval at e
  repeat' (first | (cases e; done) | (injection e with e; subst e) | split at e)
  all_goals (with_reducible repeat' (first | assumption | (refine Sub.of 65548 ?_ hmsk; with_unfolding_all rfl) | apply State.live_keeps | apply State.telemetry_keeps | intro _ | (dsimp only)))

theorem State.estopLow_keeps {msk : Nat} {sb s : State} (hmsk : Sub 799165 msk) (hK : Keeps msk sb s) : Keeps msk sb (State.estopLow s) := by
  unfold State.estopLow; (with_reducible repeat' (first | assumption | (refine Sub.of 799165 ?_ hmsk; with_unfolding_all rfl) | apply State.bump_keeps | apply State.onPad_keeps | apply State.emergency_keeps | intro _ | split | (dsimp only)))

theorem State.estopPulse_keeps {msk : Nat} {sb s : State} (ns : Nat) (hmsk : Sub 799165 msk) (hK : Keeps msk sb s) : Keeps msk sb (State.estopPulse s ns) := by
  unfold State.estopPulse; (with_reducible repeat' (first | assumption | (refine Sub.of 799165 ?_ hmsk; with_unfolding_all rfl) | apply State.estopLow_keeps | apply State.drawn_keeps | split | (dsimp only)))

theorem execEstop_keeps {msk : Nat} {sb s : State} (ns : Nat) (hmsk : Sub 27131903 msk) (hK : Keeps msk sb s) : ∀ t, execEstop ns s = .next t → Keeps msk sb t := by
  intro t e; unfold execEstop at e
  repeat' (first | (cases e; done) | (injection e with e; subst e) | split at e)
  all_goals (with_reducible repeat' (first | assumption | (refine Sub.of 27131903 ?_ hmsk; with_unfolding_all rfl) | apply State.liveF_keeps | apply State.estopPulse_keeps | intro _ | (dsimp only)))

theorem execEstopRelease_keeps {msk : Nat} {sb s : State} (hmsk : Sub 1369023 msk) (hK : Keeps msk sb s) : ∀ t, execEstopRelease s = .next t → Keeps msk sb t := by
  intro t e; unfold execEstopRelease at e
  repeat' (first | (cases e; done) | (injection e with e; subst e) | split at e)
  all_goals (with_reducible repeat' (first | assumption | (refine Sub.of 1369023 ?_ hmsk; with_unfolding_all rfl) | apply State.live_keeps | apply State.onPad_keeps | apply State.when_keeps | apply State.asShadow_keeps | apply State.flowResume_keeps | intro _ | (dsimp only)))

theorem State.pinRequest_keeps {msk : Nat} {sb s : State} (pin : Fin 32) (fn code : Nat) (hmsk : Sub 1373183 msk) (hK : Keeps msk sb s) : Keeps msk sb (State.pinRequest s pin fn code) := by
  unfold State.pinRequest; (with_reducible repeat' (first | assumption | (refine Sub.of 1373183 ?_ hmsk; with_unfolding_all rfl) | apply State.onPad_keeps | apply State.request_keeps | intro _ | split | (dsimp only)))

theorem execRunReq_keeps {msk : Nat} {sb s : State} (pin : Fin 32) (hmsk : Sub 26607615 msk) (hK : Keeps msk sb s) : ∀ t, execRunReq pin s = .next t → Keeps msk sb t := by
  intro t e; unfold execRunReq at e
  repeat' (first | (cases e; done) | (injection e with e; subst e) | split at e)
  all_goals (with_reducible repeat' (first | assumption | (refine Sub.of 26607615 ?_ hmsk; with_unfolding_all rfl) | apply State.liveF_keeps | apply State.pinRequest_keeps | intro _ | (dsimp only)))

theorem execStopReq_keeps {msk : Nat} {sb s : State} (pin : Fin 32) (hmsk : Sub 26607615 msk) (hK : Keeps msk sb s) : ∀ t, execStopReq pin s = .next t → Keeps msk sb t := by
  intro t e; unfold execStopReq at e
  repeat' (first | (cases e; done) | (injection e with e; subst e) | split at e)
  all_goals (with_reducible repeat' (first | assumption | (refine Sub.of 26607615 ?_ hmsk; with_unfolding_all rfl) | apply State.liveF_keeps | apply State.pinRequest_keeps | intro _ | (dsimp only)))

theorem State.gpInput_keeps {msk : Nat} {sb s : State} (pin : Fin 32) (level : Bool) (hmsk : Sub 278532 msk) (hK : Keeps msk sb s) : Keeps msk sb (State.gpInput s pin level) := by
  unfold State.gpInput; (with_reducible repeat' (first | assumption | (refine Sub.of 278532 ?_ hmsk; with_unfolding_all rfl) | apply State.onPad_keeps | apply State.forward_keeps | intro _ | split | (dsimp only)))

theorem execGpIn_keeps {msk : Nat} {sb s : State} (pin : Fin 32) (level : Bool) (hmsk : Sub 278532 msk) (hK : Keeps msk sb s) : ∀ t, execGpIn pin level s = .next t → Keeps msk sb t := by
  intro t e; unfold execGpIn at e
  repeat' (first | (cases e; done) | (injection e with e; subst e) | split at e)
  all_goals (with_reducible repeat' (first | assumption | (refine Sub.of 278532 ?_ hmsk; with_unfolding_all rfl) | apply State.live_keeps | apply State.gpInput_keeps | intro _ | (dsimp only)))

end Sys2Proof.Machine
end

