-- ==== Sys2Proof/Laws/Regs.lean ====
section
/-! SUPPORT. Laws of reading after writing: sparse maps, indexed updates, bit fields, and register fields. -/

set_option Elab.async false
namespace Sys2Proof.Machine

/-! ### Sparse maps -/

theorem rget_rfilter (p : Nat → Bool) (a : Nat) : ∀ m : RegMap, rget (rfilter p m) a = if p a then rget m a else 0
  | [] => by simp [rfilter, rget]
  | (k, v) :: t => by
    have ih := rget_rfilter p a t
    unfold rfilter at ih ⊢
    rw [List.filter_cons]
    by_cases hk : k = a
    · subst hk
      cases hp : p k
      · rw [if_neg Bool.false_ne_true, ih, hp]; simp
      · simp [rget]
    · rw [rget, if_neg hk, ← ih]
      split
      · rw [rget, if_neg hk]
      · rfl

theorem rget_rput (a c : Nat) (v : Word) : ∀ m : RegMap, rget (rput m a v) c = if a = c then v else rget m c
  | [] => rfl
  | (k, w) :: t => by
    simp only [rput]
    split
    · rw [rget]
    · split
      · rename_i _ h; rw [rget, rget, h]; split <;> rfl
      · rw [rget, rget_rput a c v t, rget]
        grind

/-- What a map holds after a write. -/
theorem rget_rset (m : RegMap) (a c : Nat) (v : Word) : rget (rset m a v) c = if c = a then v else rget m c := by
  unfold rset
  split
  · rename_i h
    rw [rget_rfilter, h]
    by_cases hc : c = a <;> simp [hc]
  · rw [rget_rput]
    by_cases hc : c = a
    · rw [if_pos hc, if_pos hc.symm]
    · rw [if_neg hc, if_neg (Ne.symm hc)]

/-- A map holds what was written. -/
@[simp] theorem rget_rset_self (m : RegMap) (a : Nat) (v : Word) : rget (rset m a v) a = v := by rw [rget_rset, if_pos rfl]

/-- Every other index of a map is left as it was. -/
theorem rget_rset_ne (m : RegMap) {a c : Nat} (n : c ≠ a) (v : Word) : rget (rset m a v) c = rget m c := by
  rw [rget_rset, if_neg n]

/-- A map with another's entries written into it holds the other's at the indexes it lists. -/
theorem rget_rmerge (d : RegMap) (a : Nat) : ∀ m : RegMap,
    rget (rmerge m d) a = if m.any (fun e => e.1 == a) then rget m a else rget d a
  | [] => rfl
  | (k, v) :: t => by
    have ih := rget_rmerge d a t
    unfold rmerge at ih ⊢
    rw [List.foldr_cons, rget_rset, ih, rget, List.any_cons]
    by_cases hk : k = a
    · subst hk; simp
    · rw [if_neg (Ne.symm hk), if_neg hk]; simp [hk]

theorem rget_unlisted (a : Nat) : ∀ m : RegMap, m.any (fun e => e.1 == a) = false → rget m a = 0
  | [], _ => rfl
  | (k, v) :: t, h => by
    simp only [List.any_cons, Bool.or_eq_false_iff, beq_eq_false_iff_ne] at h
    rw [rget, if_neg h.1, rget_unlisted a t h.2]

/-- R53, R55: a copy takes the indexes of `p` from its source and keeps the others. -/
theorem rget_rcopy (p : Nat → Bool) (src dst : RegMap) (a : Nat) :
    rget (rcopy p src dst) a = if p a then rget src a else rget dst a := by
  unfold rcopy
  rw [rget_rmerge, rget_rfilter, rget_rfilter]
  cases hp : p a
  · have : (rfilter p src).any (fun e => e.1 == a) = false := by
      rw [List.any_eq_false]; intro e he
      rw [rfilter, List.mem_filter] at he
      intro hb
      rw [eq_of_beq hb, hp] at he
      exact Bool.false_ne_true he.2
    simp [this]
  · cases ha : (rfilter p src).any (fun e => e.1 == a)
    · have := rget_unlisted a _ ha
      rw [rget_rfilter, hp] at this
      simp at this ⊢
      exact this.symm
    · simp

/-! ### Indexed updates -/

@[simp] theorem vmod_self {α : Type} {n : Nat} (v : Vector α n) (i : Fin n) (f : α → α) : (vmod v i f)[i] = f v[i] := by
  unfold vmod; rw [Fin.getElem_fin, Vector.getElem_set_self]

theorem vmod_ne {α : Type} {n : Nat} (v : Vector α n) {i j : Fin n} (f : α → α) (h : j ≠ i) : (vmod v i f)[j] = v[j] := by
  unfold vmod
  rw [Fin.getElem_fin, Vector.getElem_set_ne i.isLt j.isLt (fun e => h (Fin.ext e).symm), Fin.getElem_fin]

@[simp] theorem vset_self {α : Type} {n : Nat} (v : Vector α n) (i : Fin n) (x : α) : (vset v i x)[i] = x := by
  unfold vset; rw [Fin.getElem_fin, Vector.getElem_set_self]

theorem vset_ne {α : Type} {n : Nat} (v : Vector α n) {i j : Fin n} (x : α) (h : j ≠ i) : (vset v i x)[j] = v[j] := by
  unfold vset
  rw [Fin.getElem_fin, Vector.getElem_set_ne i.isLt j.isLt (fun e => h (Fin.ext e).symm), Fin.getElem_fin]

/-! ### Bit fields -/

theorem bits_lt (v lo w : Nat) : bits v lo w < 2 ^ w := Nat.mod_lt _ (Nat.two_pow_pos w)

/-- A number cut at a field: what lies above, the field, what lies below. -/
theorem bits_split (v lo w : Nat) : v = (v / 2 ^ (lo + w)) * 2 ^ (lo + w) + bits v lo w * 2 ^ lo + v % 2 ^ lo := by
  unfold bits
  rw [Nat.shiftRight_eq_div_pow, Nat.pow_add, ← Nat.div_div_eq_div_mul]
  have h1 := Nat.div_add_mod v (2 ^ lo)
  have h2 := Nat.div_add_mod (v / 2 ^ lo) (2 ^ w)
  generalize v / 2 ^ lo / 2 ^ w = q at *
  generalize v / 2 ^ lo % 2 ^ w = r at *
  rw [← h2] at h1
  calc v = 2 ^ lo * (2 ^ w * q + r) + v % 2 ^ lo := h1.symm
    _ = q * (2 ^ lo * 2 ^ w) + r * 2 ^ lo + v % 2 ^ lo := by grind

theorem insBits_split (v lo w x : Nat) :
    insBits v lo w x = (v / 2 ^ (lo + w)) * 2 ^ (lo + w) + (x % 2 ^ w) * 2 ^ lo + v % 2 ^ lo := by
  unfold insBits
  have h := bits_split v lo w
  omega

/-- A field holds what was put into it. -/
theorem bits_insBits_self (v lo w x : Nat) : bits (insBits v lo w x) lo w = x % 2 ^ w := by
  rw [insBits_split]
  unfold bits
  rw [Nat.shiftRight_eq_div_pow]
  have hr := Nat.mod_lt v (Nat.two_pow_pos lo)
  have : v / 2 ^ (lo + w) * 2 ^ (lo + w) + x % 2 ^ w * 2 ^ lo + v % 2 ^ lo
      = 2 ^ lo * (2 ^ w * (v / 2 ^ (lo + w)) + x % 2 ^ w) + v % 2 ^ lo := by
    rw [Nat.pow_add]; grind
  rw [this, Nat.mul_add_div (Nat.two_pow_pos lo), Nat.div_eq_of_lt hr, Nat.add_zero, Nat.mul_add_mod, Nat.mod_mod]

/-- A word of 32 bits stays one. -/
theorem insBits_lt {v lo w : Nat} (x : Nat) (h : v < 2 ^ 32) (hw : lo + w ≤ 32) : insBits v lo w x < 2 ^ 32 := by
  rw [insBits_split]
  have h1 : v / 2 ^ (lo + w) < 2 ^ (32 - (lo + w)) := by
    rw [Nat.div_lt_iff_lt_mul (Nat.two_pow_pos _), ← Nat.pow_add, Nat.sub_add_cancel hw]; exact h
  have h2 : x % 2 ^ w * 2 ^ lo + v % 2 ^ lo < 2 ^ (lo + w) := by
    have a := Nat.mod_lt x (Nat.two_pow_pos w)
    have b := Nat.mod_lt v (Nat.two_pow_pos lo)
    calc x % 2 ^ w * 2 ^ lo + v % 2 ^ lo < x % 2 ^ w * 2 ^ lo + 2 ^ lo := by omega
      _ = (x % 2 ^ w + 1) * 2 ^ lo := by grind
      _ ≤ 2 ^ w * 2 ^ lo := Nat.mul_le_mul_right _ a
      _ = 2 ^ (lo + w) := by rw [← Nat.pow_add, Nat.add_comm]
  have h3 : (v / 2 ^ (lo + w) + 1) * 2 ^ (lo + w) ≤ 2 ^ 32 := by
    calc (v / 2 ^ (lo + w) + 1) * 2 ^ (lo + w) ≤ 2 ^ (32 - (lo + w)) * 2 ^ (lo + w) := Nat.mul_le_mul_right _ h1
      _ = 2 ^ 32 := by rw [← Nat.pow_add, Nat.sub_add_cancel hw]
  have : (v / 2 ^ (lo + w) + 1) * 2 ^ (lo + w) = v / 2 ^ (lo + w) * 2 ^ (lo + w) + 2 ^ (lo + w) := by grind
  omega

/-! ### Register fields -/

theorem bits_putFld (w : Word) (f : Fld) (v : Nat) (h : f.lo + f.w ≤ 32) : bits (putFld w f v).toNat f.lo f.w = v % 2 ^ f.w := by
  unfold putFld
  rw [BitVec.toNat_ofNat, Nat.mod_eq_of_lt (insBits_lt v w.isLt h), bits_insBits_self]

/-- A register field holds the value it was given, cut to its width. -/
theorem State.f_setF_self (s : State) (f : Fld) (v : Nat) (h : f.lo + f.w ≤ 32) : (s.setF f v).f f = v % 2 ^ f.w := by
  obtain ⟨a, lo, w, acc⟩ := f
  unfold State.f State.word State.setF
  cases acc <;> dsimp only <;> rw [rget_rset_self] <;> exact bits_putFld _ ⟨a, lo, w, _⟩ v h

/-- Every field of another register keeps its value. -/
theorem State.f_setF_ne (s : State) (f g : Fld) (v : Nat) (h : g.addr ≠ f.addr) : (s.setF f v).f g = s.f g := by
  obtain ⟨a, lo, w, acc⟩ := f
  obtain ⟨b, lo', w', acc'⟩ := g
  unfold State.f State.word State.setF
  dsimp only at h
  cases acc <;> cases acc' <;> dsimp only <;> first | rfl | rw [rget_rset_ne _ h]

/-- A counter below its largest value is raised by one. -/
theorem State.f_bump_self (s : State) (f : Fld) (h : f.lo + f.w ≤ 32) : (s.bump f).f f = min (2 ^ f.w - 1) (s.f f + 1) := by
  unfold State.bump State.bumpBy
  rw [s.f_setF_self f _ h, Nat.mod_eq_of_lt]
  · rfl
  · unfold satAdd; have := Nat.two_pow_pos f.w; omega

/-- A write of a register field keeps the maps canonical. -/
theorem State.setF_wf (s : State) (f : Fld) (v : Nat) (hw : s.regs.wf = true) : (s.setF f v).regs.wf = true := by
  obtain ⟨h1, h2, h3, h4, h5⟩ := (Regs.wf_iff _).mp hw
  unfold State.setF
  split <;> exact (Regs.wf_iff _).mpr (by
    first
    | exact ⟨rset_wf h1 _ _, h2, h3, h4, h5⟩
    | exact ⟨h1, h2, h3, rset_wf h4 _ _, h5⟩
    | exact ⟨h1, h2, h3, h4, rset_wf h5 _ _⟩)

end Sys2Proof.Machine
end

