-- ==== Sys2Proof/Laws/State.lean ====
section
/-! SUPPORT. One lemma per field of `State` per update: what an update of one block leaves as it was, and what it changes. -/

set_option Elab.async false
namespace Sys2Proof.Machine

variable (s : State)

@[simp] theorem State.onSys_sys (f : Sys → Sys) : (s.onSys f).sys = f s.sys := rfl
@[simp] theorem State.onSys_pending (f : Sys → Sys) : (s.onSys f).pending = s.pending := rfl
@[simp] theorem State.onSys_free (f : Sys → Sys) : (s.onSys f).free = s.free := rfl
@[simp] theorem State.onSys_cfg (f : Sys → Sys) : (s.onSys f).cfg = s.cfg := rfl
@[simp] theorem State.onSys_regs (f : Sys → Sys) : (s.onSys f).regs = s.regs := rfl
@[simp] theorem State.onSys_cvq (f : Sys → Sys) : (s.onSys f).cvq = s.cvq := rfl
@[simp] theorem State.onSys_ing (f : Sys → Sys) : (s.onSys f).ing = s.ing := rfl
@[simp] theorem State.onSys_bars (f : Sys → Sys) : (s.onSys f).bars = s.bars := rfl
@[simp] theorem State.onSys_enc (f : Sys → Sys) : (s.onSys f).enc = s.enc := rfl
@[simp] theorem State.onSys_ltm (f : Sys → Sys) : (s.onSys f).ltm = s.ltm := rfl
@[simp] theorem State.onSys_lnk (f : Sys → Sys) : (s.onSys f).lnk = s.lnk := rfl
@[simp] theorem State.onSys_mem (f : Sys → Sys) : (s.onSys f).mem = s.mem := rfl
@[simp] theorem State.onSys_vis (f : Sys → Sys) : (s.onSys f).vis = s.vis := rfl
@[simp] theorem State.onSys_chl (f : Sys → Sys) : (s.onSys f).chl = s.chl := rfl
@[simp] theorem State.onSys_lmp (f : Sys → Sys) : (s.onSys f).lmp = s.lmp := rfl
@[simp] theorem State.onSys_mot (f : Sys → Sys) : (s.onSys f).mot = s.mot := rfl
@[simp] theorem State.onSys_tbl (f : Sys → Sys) : (s.onSys f).tbl = s.tbl := rfl
@[simp] theorem State.onSys_thm (f : Sys → Sys) : (s.onSys f).thm = s.thm := rfl
@[simp] theorem State.onSys_flt (f : Sys → Sys) : (s.onSys f).flt = s.flt := rfl
@[simp] theorem State.onSys_tim (f : Sys → Sys) : (s.onSys f).tim = s.tim := rfl
@[simp] theorem State.onSys_pad (f : Sys → Sys) : (s.onSys f).pad = s.pad := rfl

@[simp] theorem State.onCfg_cfg (f : Cfg → Cfg) : (s.onCfg f).cfg = f s.cfg := rfl
@[simp] theorem State.onCfg_pending (f : Cfg → Cfg) : (s.onCfg f).pending = s.pending := rfl
@[simp] theorem State.onCfg_free (f : Cfg → Cfg) : (s.onCfg f).free = s.free := rfl
@[simp] theorem State.onCfg_sys (f : Cfg → Cfg) : (s.onCfg f).sys = s.sys := rfl
@[simp] theorem State.onCfg_regs (f : Cfg → Cfg) : (s.onCfg f).regs = s.regs := rfl
@[simp] theorem State.onCfg_cvq (f : Cfg → Cfg) : (s.onCfg f).cvq = s.cvq := rfl
@[simp] theorem State.onCfg_ing (f : Cfg → Cfg) : (s.onCfg f).ing = s.ing := rfl
@[simp] theorem State.onCfg_bars (f : Cfg → Cfg) : (s.onCfg f).bars = s.bars := rfl
@[simp] theorem State.onCfg_enc (f : Cfg → Cfg) : (s.onCfg f).enc = s.enc := rfl
@[simp] theorem State.onCfg_ltm (f : Cfg → Cfg) : (s.onCfg f).ltm = s.ltm := rfl
@[simp] theorem State.onCfg_lnk (f : Cfg → Cfg) : (s.onCfg f).lnk = s.lnk := rfl
@[simp] theorem State.onCfg_mem (f : Cfg → Cfg) : (s.onCfg f).mem = s.mem := rfl
@[simp] theorem State.onCfg_vis (f : Cfg → Cfg) : (s.onCfg f).vis = s.vis := rfl
@[simp] theorem State.onCfg_chl (f : Cfg → Cfg) : (s.onCfg f).chl = s.chl := rfl
@[simp] theorem State.onCfg_lmp (f : Cfg → Cfg) : (s.onCfg f).lmp = s.lmp := rfl
@[simp] theorem State.onCfg_mot (f : Cfg → Cfg) : (s.onCfg f).mot = s.mot := rfl
@[simp] theorem State.onCfg_tbl (f : Cfg → Cfg) : (s.onCfg f).tbl = s.tbl := rfl
@[simp] theorem State.onCfg_thm (f : Cfg → Cfg) : (s.onCfg f).thm = s.thm := rfl
@[simp] theorem State.onCfg_flt (f : Cfg → Cfg) : (s.onCfg f).flt = s.flt := rfl
@[simp] theorem State.onCfg_tim (f : Cfg → Cfg) : (s.onCfg f).tim = s.tim := rfl
@[simp] theorem State.onCfg_pad (f : Cfg → Cfg) : (s.onCfg f).pad = s.pad := rfl

@[simp] theorem State.onRegs_regs (f : Regs → Regs) : (s.onRegs f).regs = f s.regs := rfl
@[simp] theorem State.onRegs_pending (f : Regs → Regs) : (s.onRegs f).pending = s.pending := rfl
@[simp] theorem State.onRegs_free (f : Regs → Regs) : (s.onRegs f).free = s.free := rfl
@[simp] theorem State.onRegs_sys (f : Regs → Regs) : (s.onRegs f).sys = s.sys := rfl
@[simp] theorem State.onRegs_cfg (f : Regs → Regs) : (s.onRegs f).cfg = s.cfg := rfl
@[simp] theorem State.onRegs_cvq (f : Regs → Regs) : (s.onRegs f).cvq = s.cvq := rfl
@[simp] theorem State.onRegs_ing (f : Regs → Regs) : (s.onRegs f).ing = s.ing := rfl
@[simp] theorem State.onRegs_bars (f : Regs → Regs) : (s.onRegs f).bars = s.bars := rfl
@[simp] theorem State.onRegs_enc (f : Regs → Regs) : (s.onRegs f).enc = s.enc := rfl
@[simp] theorem State.onRegs_ltm (f : Regs → Regs) : (s.onRegs f).ltm = s.ltm := rfl
@[simp] theorem State.onRegs_lnk (f : Regs → Regs) : (s.onRegs f).lnk = s.lnk := rfl
@[simp] theorem State.onRegs_mem (f : Regs → Regs) : (s.onRegs f).mem = s.mem := rfl
@[simp] theorem State.onRegs_vis (f : Regs → Regs) : (s.onRegs f).vis = s.vis := rfl
@[simp] theorem State.onRegs_chl (f : Regs → Regs) : (s.onRegs f).chl = s.chl := rfl
@[simp] theorem State.onRegs_lmp (f : Regs → Regs) : (s.onRegs f).lmp = s.lmp := rfl
@[simp] theorem State.onRegs_mot (f : Regs → Regs) : (s.onRegs f).mot = s.mot := rfl
@[simp] theorem State.onRegs_tbl (f : Regs → Regs) : (s.onRegs f).tbl = s.tbl := rfl
@[simp] theorem State.onRegs_thm (f : Regs → Regs) : (s.onRegs f).thm = s.thm := rfl
@[simp] theorem State.onRegs_flt (f : Regs → Regs) : (s.onRegs f).flt = s.flt := rfl
@[simp] theorem State.onRegs_tim (f : Regs → Regs) : (s.onRegs f).tim = s.tim := rfl
@[simp] theorem State.onRegs_pad (f : Regs → Regs) : (s.onRegs f).pad = s.pad := rfl

@[simp] theorem State.onIng_ing (f : Ing → Ing) : (s.onIng f).ing = f s.ing := rfl
@[simp] theorem State.onIng_pending (f : Ing → Ing) : (s.onIng f).pending = s.pending := rfl
@[simp] theorem State.onIng_free (f : Ing → Ing) : (s.onIng f).free = s.free := rfl
@[simp] theorem State.onIng_sys (f : Ing → Ing) : (s.onIng f).sys = s.sys := rfl
@[simp] theorem State.onIng_cfg (f : Ing → Ing) : (s.onIng f).cfg = s.cfg := rfl
@[simp] theorem State.onIng_regs (f : Ing → Ing) : (s.onIng f).regs = s.regs := rfl
@[simp] theorem State.onIng_cvq (f : Ing → Ing) : (s.onIng f).cvq = s.cvq := rfl
@[simp] theorem State.onIng_bars (f : Ing → Ing) : (s.onIng f).bars = s.bars := rfl
@[simp] theorem State.onIng_enc (f : Ing → Ing) : (s.onIng f).enc = s.enc := rfl
@[simp] theorem State.onIng_ltm (f : Ing → Ing) : (s.onIng f).ltm = s.ltm := rfl
@[simp] theorem State.onIng_lnk (f : Ing → Ing) : (s.onIng f).lnk = s.lnk := rfl
@[simp] theorem State.onIng_mem (f : Ing → Ing) : (s.onIng f).mem = s.mem := rfl
@[simp] theorem State.onIng_vis (f : Ing → Ing) : (s.onIng f).vis = s.vis := rfl
@[simp] theorem State.onIng_chl (f : Ing → Ing) : (s.onIng f).chl = s.chl := rfl
@[simp] theorem State.onIng_lmp (f : Ing → Ing) : (s.onIng f).lmp = s.lmp := rfl
@[simp] theorem State.onIng_mot (f : Ing → Ing) : (s.onIng f).mot = s.mot := rfl
@[simp] theorem State.onIng_tbl (f : Ing → Ing) : (s.onIng f).tbl = s.tbl := rfl
@[simp] theorem State.onIng_thm (f : Ing → Ing) : (s.onIng f).thm = s.thm := rfl
@[simp] theorem State.onIng_flt (f : Ing → Ing) : (s.onIng f).flt = s.flt := rfl
@[simp] theorem State.onIng_tim (f : Ing → Ing) : (s.onIng f).tim = s.tim := rfl
@[simp] theorem State.onIng_pad (f : Ing → Ing) : (s.onIng f).pad = s.pad := rfl

@[simp] theorem State.onEnc_enc (f : Enc → Enc) : (s.onEnc f).enc = f s.enc := rfl
@[simp] theorem State.onEnc_pending (f : Enc → Enc) : (s.onEnc f).pending = s.pending := rfl
@[simp] theorem State.onEnc_free (f : Enc → Enc) : (s.onEnc f).free = s.free := rfl
@[simp] theorem State.onEnc_sys (f : Enc → Enc) : (s.onEnc f).sys = s.sys := rfl
@[simp] theorem State.onEnc_cfg (f : Enc → Enc) : (s.onEnc f).cfg = s.cfg := rfl
@[simp] theorem State.onEnc_regs (f : Enc → Enc) : (s.onEnc f).regs = s.regs := rfl
@[simp] theorem State.onEnc_cvq (f : Enc → Enc) : (s.onEnc f).cvq = s.cvq := rfl
@[simp] theorem State.onEnc_ing (f : Enc → Enc) : (s.onEnc f).ing = s.ing := rfl
@[simp] theorem State.onEnc_bars (f : Enc → Enc) : (s.onEnc f).bars = s.bars := rfl
@[simp] theorem State.onEnc_ltm (f : Enc → Enc) : (s.onEnc f).ltm = s.ltm := rfl
@[simp] theorem State.onEnc_lnk (f : Enc → Enc) : (s.onEnc f).lnk = s.lnk := rfl
@[simp] theorem State.onEnc_mem (f : Enc → Enc) : (s.onEnc f).mem = s.mem := rfl
@[simp] theorem State.onEnc_vis (f : Enc → Enc) : (s.onEnc f).vis = s.vis := rfl
@[simp] theorem State.onEnc_chl (f : Enc → Enc) : (s.onEnc f).chl = s.chl := rfl
@[simp] theorem State.onEnc_lmp (f : Enc → Enc) : (s.onEnc f).lmp = s.lmp := rfl
@[simp] theorem State.onEnc_mot (f : Enc → Enc) : (s.onEnc f).mot = s.mot := rfl
@[simp] theorem State.onEnc_tbl (f : Enc → Enc) : (s.onEnc f).tbl = s.tbl := rfl
@[simp] theorem State.onEnc_thm (f : Enc → Enc) : (s.onEnc f).thm = s.thm := rfl
@[simp] theorem State.onEnc_flt (f : Enc → Enc) : (s.onEnc f).flt = s.flt := rfl
@[simp] theorem State.onEnc_tim (f : Enc → Enc) : (s.onEnc f).tim = s.tim := rfl
@[simp] theorem State.onEnc_pad (f : Enc → Enc) : (s.onEnc f).pad = s.pad := rfl

@[simp] theorem State.onLtm_ltm (f : Ltm → Ltm) : (s.onLtm f).ltm = f s.ltm := rfl
@[simp] theorem State.onLtm_pending (f : Ltm → Ltm) : (s.onLtm f).pending = s.pending := rfl
@[simp] theorem State.onLtm_free (f : Ltm → Ltm) : (s.onLtm f).free = s.free := rfl
@[simp] theorem State.onLtm_sys (f : Ltm → Ltm) : (s.onLtm f).sys = s.sys := rfl
@[simp] theorem State.onLtm_cfg (f : Ltm → Ltm) : (s.onLtm f).cfg = s.cfg := rfl
@[simp] theorem State.onLtm_regs (f : Ltm → Ltm) : (s.onLtm f).regs = s.regs := rfl
@[simp] theorem State.onLtm_cvq (f : Ltm → Ltm) : (s.onLtm f).cvq = s.cvq := rfl
@[simp] theorem State.onLtm_ing (f : Ltm → Ltm) : (s.onLtm f).ing = s.ing := rfl
@[simp] theorem State.onLtm_bars (f : Ltm → Ltm) : (s.onLtm f).bars = s.bars := rfl
@[simp] theorem State.onLtm_enc (f : Ltm → Ltm) : (s.onLtm f).enc = s.enc := rfl
@[simp] theorem State.onLtm_lnk (f : Ltm → Ltm) : (s.onLtm f).lnk = s.lnk := rfl
@[simp] theorem State.onLtm_mem (f : Ltm → Ltm) : (s.onLtm f).mem = s.mem := rfl
@[simp] theorem State.onLtm_vis (f : Ltm → Ltm) : (s.onLtm f).vis = s.vis := rfl
@[simp] theorem State.onLtm_chl (f : Ltm → Ltm) : (s.onLtm f).chl = s.chl := rfl
@[simp] theorem State.onLtm_lmp (f : Ltm → Ltm) : (s.onLtm f).lmp = s.lmp := rfl
@[simp] theorem State.onLtm_mot (f : Ltm → Ltm) : (s.onLtm f).mot = s.mot := rfl
@[simp] theorem State.onLtm_tbl (f : Ltm → Ltm) : (s.onLtm f).tbl = s.tbl := rfl
@[simp] theorem State.onLtm_thm (f : Ltm → Ltm) : (s.onLtm f).thm = s.thm := rfl
@[simp] theorem State.onLtm_flt (f : Ltm → Ltm) : (s.onLtm f).flt = s.flt := rfl
@[simp] theorem State.onLtm_tim (f : Ltm → Ltm) : (s.onLtm f).tim = s.tim := rfl
@[simp] theorem State.onLtm_pad (f : Ltm → Ltm) : (s.onLtm f).pad = s.pad := rfl

@[simp] theorem State.onLnk_lnk (f : Lnk → Lnk) : (s.onLnk f).lnk = f s.lnk := rfl
@[simp] theorem State.onLnk_pending (f : Lnk → Lnk) : (s.onLnk f).pending = s.pending := rfl
@[simp] theorem State.onLnk_free (f : Lnk → Lnk) : (s.onLnk f).free = s.free := rfl
@[simp] theorem State.onLnk_sys (f : Lnk → Lnk) : (s.onLnk f).sys = s.sys := rfl
@[simp] theorem State.onLnk_cfg (f : Lnk → Lnk) : (s.onLnk f).cfg = s.cfg := rfl
@[simp] theorem State.onLnk_regs (f : Lnk → Lnk) : (s.onLnk f).regs = s.regs := rfl
@[simp] theorem State.onLnk_cvq (f : Lnk → Lnk) : (s.onLnk f).cvq = s.cvq := rfl
@[simp] theorem State.onLnk_ing (f : Lnk → Lnk) : (s.onLnk f).ing = s.ing := rfl
@[simp] theorem State.onLnk_bars (f : Lnk → Lnk) : (s.onLnk f).bars = s.bars := rfl
@[simp] theorem State.onLnk_enc (f : Lnk → Lnk) : (s.onLnk f).enc = s.enc := rfl
@[simp] theorem State.onLnk_ltm (f : Lnk → Lnk) : (s.onLnk f).ltm = s.ltm := rfl
@[simp] theorem State.onLnk_mem (f : Lnk → Lnk) : (s.onLnk f).mem = s.mem := rfl
@[simp] theorem State.onLnk_vis (f : Lnk → Lnk) : (s.onLnk f).vis = s.vis := rfl
@[simp] theorem State.onLnk_chl (f : Lnk → Lnk) : (s.onLnk f).chl = s.chl := rfl
@[simp] theorem State.onLnk_lmp (f : Lnk → Lnk) : (s.onLnk f).lmp = s.lmp := rfl
@[simp] theorem State.onLnk_mot (f : Lnk → Lnk) : (s.onLnk f).mot = s.mot := rfl
@[simp] theorem State.onLnk_tbl (f : Lnk → Lnk) : (s.onLnk f).tbl = s.tbl := rfl
@[simp] theorem State.onLnk_thm (f : Lnk → Lnk) : (s.onLnk f).thm = s.thm := rfl
@[simp] theorem State.onLnk_flt (f : Lnk → Lnk) : (s.onLnk f).flt = s.flt := rfl
@[simp] theorem State.onLnk_tim (f : Lnk → Lnk) : (s.onLnk f).tim = s.tim := rfl
@[simp] theorem State.onLnk_pad (f : Lnk → Lnk) : (s.onLnk f).pad = s.pad := rfl

@[simp] theorem State.onMem_mem (f : Mem → Mem) : (s.onMem f).mem = f s.mem := rfl
@[simp] theorem State.onMem_pending (f : Mem → Mem) : (s.onMem f).pending = s.pending := rfl
@[simp] theorem State.onMem_free (f : Mem → Mem) : (s.onMem f).free = s.free := rfl
@[simp] theorem State.onMem_sys (f : Mem → Mem) : (s.onMem f).sys = s.sys := rfl
@[simp] theorem State.onMem_cfg (f : Mem → Mem) : (s.onMem f).cfg = s.cfg := rfl
@[simp] theorem State.onMem_regs (f : Mem → Mem) : (s.onMem f).regs = s.regs := rfl
@[simp] theorem State.onMem_cvq (f : Mem → Mem) : (s.onMem f).cvq = s.cvq := rfl
@[simp] theorem State.onMem_ing (f : Mem → Mem) : (s.onMem f).ing = s.ing := rfl
@[simp] theorem State.onMem_bars (f : Mem → Mem) : (s.onMem f).bars = s.bars := rfl
@[simp] theorem State.onMem_enc (f : Mem → Mem) : (s.onMem f).enc = s.enc := rfl
@[simp] theorem State.onMem_ltm (f : Mem → Mem) : (s.onMem f).ltm = s.ltm := rfl
@[simp] theorem State.onMem_lnk (f : Mem → Mem) : (s.onMem f).lnk = s.lnk := rfl
@[simp] theorem State.onMem_vis (f : Mem → Mem) : (s.onMem f).vis = s.vis := rfl
@[simp] theorem State.onMem_chl (f : Mem → Mem) : (s.onMem f).chl = s.chl := rfl
@[simp] theorem State.onMem_lmp (f : Mem → Mem) : (s.onMem f).lmp = s.lmp := rfl
@[simp] theorem State.onMem_mot (f : Mem → Mem) : (s.onMem f).mot = s.mot := rfl
@[simp] theorem State.onMem_tbl (f : Mem → Mem) : (s.onMem f).tbl = s.tbl := rfl
@[simp] theorem State.onMem_thm (f : Mem → Mem) : (s.onMem f).thm = s.thm := rfl
@[simp] theorem State.onMem_flt (f : Mem → Mem) : (s.onMem f).flt = s.flt := rfl
@[simp] theorem State.onMem_tim (f : Mem → Mem) : (s.onMem f).tim = s.tim := rfl
@[simp] theorem State.onMem_pad (f : Mem → Mem) : (s.onMem f).pad = s.pad := rfl

@[simp] theorem State.onVis_vis (f : Vis → Vis) : (s.onVis f).vis = f s.vis := rfl
@[simp] theorem State.onVis_pending (f : Vis → Vis) : (s.onVis f).pending = s.pending := rfl
@[simp] theorem State.onVis_free (f : Vis → Vis) : (s.onVis f).free = s.free := rfl
@[simp] theorem State.onVis_sys (f : Vis → Vis) : (s.onVis f).sys = s.sys := rfl
@[simp] theorem State.onVis_cfg (f : Vis → Vis) : (s.onVis f).cfg = s.cfg := rfl
@[simp] theorem State.onVis_regs (f : Vis → Vis) : (s.onVis f).regs = s.regs := rfl
@[simp] theorem State.onVis_cvq (f : Vis → Vis) : (s.onVis f).cvq = s.cvq := rfl
@[simp] theorem State.onVis_ing (f : Vis → Vis) : (s.onVis f).ing = s.ing := rfl
@[simp] theorem State.onVis_bars (f : Vis → Vis) : (s.onVis f).bars = s.bars := rfl
@[simp] theorem State.onVis_enc (f : Vis → Vis) : (s.onVis f).enc = s.enc := rfl
@[simp] theorem State.onVis_ltm (f : Vis → Vis) : (s.onVis f).ltm = s.ltm := rfl
@[simp] theorem State.onVis_lnk (f : Vis → Vis) : (s.onVis f).lnk = s.lnk := rfl
@[simp] theorem State.onVis_mem (f : Vis → Vis) : (s.onVis f).mem = s.mem := rfl
@[simp] theorem State.onVis_chl (f : Vis → Vis) : (s.onVis f).chl = s.chl := rfl
@[simp] theorem State.onVis_lmp (f : Vis → Vis) : (s.onVis f).lmp = s.lmp := rfl
@[simp] theorem State.onVis_mot (f : Vis → Vis) : (s.onVis f).mot = s.mot := rfl
@[simp] theorem State.onVis_tbl (f : Vis → Vis) : (s.onVis f).tbl = s.tbl := rfl
@[simp] theorem State.onVis_thm (f : Vis → Vis) : (s.onVis f).thm = s.thm := rfl
@[simp] theorem State.onVis_flt (f : Vis → Vis) : (s.onVis f).flt = s.flt := rfl
@[simp] theorem State.onVis_tim (f : Vis → Vis) : (s.onVis f).tim = s.tim := rfl
@[simp] theorem State.onVis_pad (f : Vis → Vis) : (s.onVis f).pad = s.pad := rfl

@[simp] theorem State.onChl_chl (f : Chl → Chl) : (s.onChl f).chl = f s.chl := rfl
@[simp] theorem State.onChl_pending (f : Chl → Chl) : (s.onChl f).pending = s.pending := rfl
@[simp] theorem State.onChl_free (f : Chl → Chl) : (s.onChl f).free = s.free := rfl
@[simp] theorem State.onChl_sys (f : Chl → Chl) : (s.onChl f).sys = s.sys := rfl
@[simp] theorem State.onChl_cfg (f : Chl → Chl) : (s.onChl f).cfg = s.cfg := rfl
@[simp] theorem State.onChl_regs (f : Chl → Chl) : (s.onChl f).regs = s.regs := rfl
@[simp] theorem State.onChl_cvq (f : Chl → Chl) : (s.onChl f).cvq = s.cvq := rfl
@[simp] theorem State.onChl_ing (f : Chl → Chl) : (s.onChl f).ing = s.ing := rfl
@[simp] theorem State.onChl_bars (f : Chl → Chl) : (s.onChl f).bars = s.bars := rfl
@[simp] theorem State.onChl_enc (f : Chl → Chl) : (s.onChl f).enc = s.enc := rfl
@[simp] theorem State.onChl_ltm (f : Chl → Chl) : (s.onChl f).ltm = s.ltm := rfl
@[simp] theorem State.onChl_lnk (f : Chl → Chl) : (s.onChl f).lnk = s.lnk := rfl
@[simp] theorem State.onChl_mem (f : Chl → Chl) : (s.onChl f).mem = s.mem := rfl
@[simp] theorem State.onChl_vis (f : Chl → Chl) : (s.onChl f).vis = s.vis := rfl
@[simp] theorem State.onChl_lmp (f : Chl → Chl) : (s.onChl f).lmp = s.lmp := rfl
@[simp] theorem State.onChl_mot (f : Chl → Chl) : (s.onChl f).mot = s.mot := rfl
@[simp] theorem State.onChl_tbl (f : Chl → Chl) : (s.onChl f).tbl = s.tbl := rfl
@[simp] theorem State.onChl_thm (f : Chl → Chl) : (s.onChl f).thm = s.thm := rfl
@[simp] theorem State.onChl_flt (f : Chl → Chl) : (s.onChl f).flt = s.flt := rfl
@[simp] theorem State.onChl_tim (f : Chl → Chl) : (s.onChl f).tim = s.tim := rfl
@[simp] theorem State.onChl_pad (f : Chl → Chl) : (s.onChl f).pad = s.pad := rfl

@[simp] theorem State.onLmp_lmp (f : Lmp → Lmp) : (s.onLmp f).lmp = f s.lmp := rfl
@[simp] theorem State.onLmp_pending (f : Lmp → Lmp) : (s.onLmp f).pending = s.pending := rfl
@[simp] theorem State.onLmp_free (f : Lmp → Lmp) : (s.onLmp f).free = s.free := rfl
@[simp] theorem State.onLmp_sys (f : Lmp → Lmp) : (s.onLmp f).sys = s.sys := rfl
@[simp] theorem State.onLmp_cfg (f : Lmp → Lmp) : (s.onLmp f).cfg = s.cfg := rfl
@[simp] theorem State.onLmp_regs (f : Lmp → Lmp) : (s.onLmp f).regs = s.regs := rfl
@[simp] theorem State.onLmp_cvq (f : Lmp → Lmp) : (s.onLmp f).cvq = s.cvq := rfl
@[simp] theorem State.onLmp_ing (f : Lmp → Lmp) : (s.onLmp f).ing = s.ing := rfl
@[simp] theorem State.onLmp_bars (f : Lmp → Lmp) : (s.onLmp f).bars = s.bars := rfl
@[simp] theorem State.onLmp_enc (f : Lmp → Lmp) : (s.onLmp f).enc = s.enc := rfl
@[simp] theorem State.onLmp_ltm (f : Lmp → Lmp) : (s.onLmp f).ltm = s.ltm := rfl
@[simp] theorem State.onLmp_lnk (f : Lmp → Lmp) : (s.onLmp f).lnk = s.lnk := rfl
@[simp] theorem State.onLmp_mem (f : Lmp → Lmp) : (s.onLmp f).mem = s.mem := rfl
@[simp] theorem State.onLmp_vis (f : Lmp → Lmp) : (s.onLmp f).vis = s.vis := rfl
@[simp] theorem State.onLmp_chl (f : Lmp → Lmp) : (s.onLmp f).chl = s.chl := rfl
@[simp] theorem State.onLmp_mot (f : Lmp → Lmp) : (s.onLmp f).mot = s.mot := rfl
@[simp] theorem State.onLmp_tbl (f : Lmp → Lmp) : (s.onLmp f).tbl = s.tbl := rfl
@[simp] theorem State.onLmp_thm (f : Lmp → Lmp) : (s.onLmp f).thm = s.thm := rfl
@[simp] theorem State.onLmp_flt (f : Lmp → Lmp) : (s.onLmp f).flt = s.flt := rfl
@[simp] theorem State.onLmp_tim (f : Lmp → Lmp) : (s.onLmp f).tim = s.tim := rfl
@[simp] theorem State.onLmp_pad (f : Lmp → Lmp) : (s.onLmp f).pad = s.pad := rfl

@[simp] theorem State.onMot_mot (f : Mot → Mot) : (s.onMot f).mot = f s.mot := rfl
@[simp] theorem State.onMot_pending (f : Mot → Mot) : (s.onMot f).pending = s.pending := rfl
@[simp] theorem State.onMot_free (f : Mot → Mot) : (s.onMot f).free = s.free := rfl
@[simp] theorem State.onMot_sys (f : Mot → Mot) : (s.onMot f).sys = s.sys := rfl
@[simp] theorem State.onMot_cfg (f : Mot → Mot) : (s.onMot f).cfg = s.cfg := rfl
@[simp] theorem State.onMot_regs (f : Mot → Mot) : (s.onMot f).regs = s.regs := rfl
@[simp] theorem State.onMot_cvq (f : Mot → Mot) : (s.onMot f).cvq = s.cvq := rfl
@[simp] theorem State.onMot_ing (f : Mot → Mot) : (s.onMot f).ing = s.ing := rfl
@[simp] theorem State.onMot_bars (f : Mot → Mot) : (s.onMot f).bars = s.bars := rfl
@[simp] theorem State.onMot_enc (f : Mot → Mot) : (s.onMot f).enc = s.enc := rfl
@[simp] theorem State.onMot_ltm (f : Mot → Mot) : (s.onMot f).ltm = s.ltm := rfl
@[simp] theorem State.onMot_lnk (f : Mot → Mot) : (s.onMot f).lnk = s.lnk := rfl
@[simp] theorem State.onMot_mem (f : Mot → Mot) : (s.onMot f).mem = s.mem := rfl
@[simp] theorem State.onMot_vis (f : Mot → Mot) : (s.onMot f).vis = s.vis := rfl
@[simp] theorem State.onMot_chl (f : Mot → Mot) : (s.onMot f).chl = s.chl := rfl
@[simp] theorem State.onMot_lmp (f : Mot → Mot) : (s.onMot f).lmp = s.lmp := rfl
@[simp] theorem State.onMot_tbl (f : Mot → Mot) : (s.onMot f).tbl = s.tbl := rfl
@[simp] theorem State.onMot_thm (f : Mot → Mot) : (s.onMot f).thm = s.thm := rfl
@[simp] theorem State.onMot_flt (f : Mot → Mot) : (s.onMot f).flt = s.flt := rfl
@[simp] theorem State.onMot_tim (f : Mot → Mot) : (s.onMot f).tim = s.tim := rfl
@[simp] theorem State.onMot_pad (f : Mot → Mot) : (s.onMot f).pad = s.pad := rfl

@[simp] theorem State.onTbl_tbl (f : Tbl → Tbl) : (s.onTbl f).tbl = f s.tbl := rfl
@[simp] theorem State.onTbl_pending (f : Tbl → Tbl) : (s.onTbl f).pending = s.pending := rfl
@[simp] theorem State.onTbl_free (f : Tbl → Tbl) : (s.onTbl f).free = s.free := rfl
@[simp] theorem State.onTbl_sys (f : Tbl → Tbl) : (s.onTbl f).sys = s.sys := rfl
@[simp] theorem State.onTbl_cfg (f : Tbl → Tbl) : (s.onTbl f).cfg = s.cfg := rfl
@[simp] theorem State.onTbl_regs (f : Tbl → Tbl) : (s.onTbl f).regs = s.regs := rfl
@[simp] theorem State.onTbl_cvq (f : Tbl → Tbl) : (s.onTbl f).cvq = s.cvq := rfl
@[simp] theorem State.onTbl_ing (f : Tbl → Tbl) : (s.onTbl f).ing = s.ing := rfl
@[simp] theorem State.onTbl_bars (f : Tbl → Tbl) : (s.onTbl f).bars = s.bars := rfl
@[simp] theorem State.onTbl_enc (f : Tbl → Tbl) : (s.onTbl f).enc = s.enc := rfl
@[simp] theorem State.onTbl_ltm (f : Tbl → Tbl) : (s.onTbl f).ltm = s.ltm := rfl
@[simp] theorem State.onTbl_lnk (f : Tbl → Tbl) : (s.onTbl f).lnk = s.lnk := rfl
@[simp] theorem State.onTbl_mem (f : Tbl → Tbl) : (s.onTbl f).mem = s.mem := rfl
@[simp] theorem State.onTbl_vis (f : Tbl → Tbl) : (s.onTbl f).vis = s.vis := rfl
@[simp] theorem State.onTbl_chl (f : Tbl → Tbl) : (s.onTbl f).chl = s.chl := rfl
@[simp] theorem State.onTbl_lmp (f : Tbl → Tbl) : (s.onTbl f).lmp = s.lmp := rfl
@[simp] theorem State.onTbl_mot (f : Tbl → Tbl) : (s.onTbl f).mot = s.mot := rfl
@[simp] theorem State.onTbl_thm (f : Tbl → Tbl) : (s.onTbl f).thm = s.thm := rfl
@[simp] theorem State.onTbl_flt (f : Tbl → Tbl) : (s.onTbl f).flt = s.flt := rfl
@[simp] theorem State.onTbl_tim (f : Tbl → Tbl) : (s.onTbl f).tim = s.tim := rfl
@[simp] theorem State.onTbl_pad (f : Tbl → Tbl) : (s.onTbl f).pad = s.pad := rfl

@[simp] theorem State.onThm_thm (f : Thm → Thm) : (s.onThm f).thm = f s.thm := rfl
@[simp] theorem State.onThm_pending (f : Thm → Thm) : (s.onThm f).pending = s.pending := rfl
@[simp] theorem State.onThm_free (f : Thm → Thm) : (s.onThm f).free = s.free := rfl
@[simp] theorem State.onThm_sys (f : Thm → Thm) : (s.onThm f).sys = s.sys := rfl
@[simp] theorem State.onThm_cfg (f : Thm → Thm) : (s.onThm f).cfg = s.cfg := rfl
@[simp] theorem State.onThm_regs (f : Thm → Thm) : (s.onThm f).regs = s.regs := rfl
@[simp] theorem State.onThm_cvq (f : Thm → Thm) : (s.onThm f).cvq = s.cvq := rfl
@[simp] theorem State.onThm_ing (f : Thm → Thm) : (s.onThm f).ing = s.ing := rfl
@[simp] theorem State.onThm_bars (f : Thm → Thm) : (s.onThm f).bars = s.bars := rfl
@[simp] theorem State.onThm_enc (f : Thm → Thm) : (s.onThm f).enc = s.enc := rfl
@[simp] theorem State.onThm_ltm (f : Thm → Thm) : (s.onThm f).ltm = s.ltm := rfl
@[simp] theorem State.onThm_lnk (f : Thm → Thm) : (s.onThm f).lnk = s.lnk := rfl
@[simp] theorem State.onThm_mem (f : Thm → Thm) : (s.onThm f).mem = s.mem := rfl
@[simp] theorem State.onThm_vis (f : Thm → Thm) : (s.onThm f).vis = s.vis := rfl
@[simp] theorem State.onThm_chl (f : Thm → Thm) : (s.onThm f).chl = s.chl := rfl
@[simp] theorem State.onThm_lmp (f : Thm → Thm) : (s.onThm f).lmp = s.lmp := rfl
@[simp] theorem State.onThm_mot (f : Thm → Thm) : (s.onThm f).mot = s.mot := rfl
@[simp] theorem State.onThm_tbl (f : Thm → Thm) : (s.onThm f).tbl = s.tbl := rfl
@[simp] theorem State.onThm_flt (f : Thm → Thm) : (s.onThm f).flt = s.flt := rfl
@[simp] theorem State.onThm_tim (f : Thm → Thm) : (s.onThm f).tim = s.tim := rfl
@[simp] theorem State.onThm_pad (f : Thm → Thm) : (s.onThm f).pad = s.pad := rfl

@[simp] theorem State.onFlt_flt (f : Flt → Flt) : (s.onFlt f).flt = f s.flt := rfl
@[simp] theorem State.onFlt_pending (f : Flt → Flt) : (s.onFlt f).pending = s.pending := rfl
@[simp] theorem State.onFlt_free (f : Flt → Flt) : (s.onFlt f).free = s.free := rfl
@[simp] theorem State.onFlt_sys (f : Flt → Flt) : (s.onFlt f).sys = s.sys := rfl
@[simp] theorem State.onFlt_cfg (f : Flt → Flt) : (s.onFlt f).cfg = s.cfg := rfl
@[simp] theorem State.onFlt_regs (f : Flt → Flt) : (s.onFlt f).regs = s.regs := rfl
@[simp] theorem State.onFlt_cvq (f : Flt → Flt) : (s.onFlt f).cvq = s.cvq := rfl
@[simp] theorem State.onFlt_ing (f : Flt → Flt) : (s.onFlt f).ing = s.ing := rfl
@[simp] theorem State.onFlt_bars (f : Flt → Flt) : (s.onFlt f).bars = s.bars := rfl
@[simp] theorem State.onFlt_enc (f : Flt → Flt) : (s.onFlt f).enc = s.enc := rfl
@[simp] theorem State.onFlt_ltm (f : Flt → Flt) : (s.onFlt f).ltm = s.ltm := rfl
@[simp] theorem State.onFlt_lnk (f : Flt → Flt) : (s.onFlt f).lnk = s.lnk := rfl
@[simp] theorem State.onFlt_mem (f : Flt → Flt) : (s.onFlt f).mem = s.mem := rfl
@[simp] theorem State.onFlt_vis (f : Flt → Flt) : (s.onFlt f).vis = s.vis := rfl
@[simp] theorem State.onFlt_chl (f : Flt → Flt) : (s.onFlt f).chl = s.chl := rfl
@[simp] theorem State.onFlt_lmp (f : Flt → Flt) : (s.onFlt f).lmp = s.lmp := rfl
@[simp] theorem State.onFlt_mot (f : Flt → Flt) : (s.onFlt f).mot = s.mot := rfl
@[simp] theorem State.onFlt_tbl (f : Flt → Flt) : (s.onFlt f).tbl = s.tbl := rfl
@[simp] theorem State.onFlt_thm (f : Flt → Flt) : (s.onFlt f).thm = s.thm := rfl
@[simp] theorem State.onFlt_tim (f : Flt → Flt) : (s.onFlt f).tim = s.tim := rfl
@[simp] theorem State.onFlt_pad (f : Flt → Flt) : (s.onFlt f).pad = s.pad := rfl

@[simp] theorem State.onTim_tim (f : Tim → Tim) : (s.onTim f).tim = f s.tim := rfl
@[simp] theorem State.onTim_pending (f : Tim → Tim) : (s.onTim f).pending = s.pending := rfl
@[simp] theorem State.onTim_free (f : Tim → Tim) : (s.onTim f).free = s.free := rfl
@[simp] theorem State.onTim_sys (f : Tim → Tim) : (s.onTim f).sys = s.sys := rfl
@[simp] theorem State.onTim_cfg (f : Tim → Tim) : (s.onTim f).cfg = s.cfg := rfl
@[simp] theorem State.onTim_regs (f : Tim → Tim) : (s.onTim f).regs = s.regs := rfl
@[simp] theorem State.onTim_cvq (f : Tim → Tim) : (s.onTim f).cvq = s.cvq := rfl
@[simp] theorem State.onTim_ing (f : Tim → Tim) : (s.onTim f).ing = s.ing := rfl
@[simp] theorem State.onTim_bars (f : Tim → Tim) : (s.onTim f).bars = s.bars := rfl
@[simp] theorem State.onTim_enc (f : Tim → Tim) : (s.onTim f).enc = s.enc := rfl
@[simp] theorem State.onTim_ltm (f : Tim → Tim) : (s.onTim f).ltm = s.ltm := rfl
@[simp] theorem State.onTim_lnk (f : Tim → Tim) : (s.onTim f).lnk = s.lnk := rfl
@[simp] theorem State.onTim_mem (f : Tim → Tim) : (s.onTim f).mem = s.mem := rfl
@[simp] theorem State.onTim_vis (f : Tim → Tim) : (s.onTim f).vis = s.vis := rfl
@[simp] theorem State.onTim_chl (f : Tim → Tim) : (s.onTim f).chl = s.chl := rfl
@[simp] theorem State.onTim_lmp (f : Tim → Tim) : (s.onTim f).lmp = s.lmp := rfl
@[simp] theorem State.onTim_mot (f : Tim → Tim) : (s.onTim f).mot = s.mot := rfl
@[simp] theorem State.onTim_tbl (f : Tim → Tim) : (s.onTim f).tbl = s.tbl := rfl
@[simp] theorem State.onTim_thm (f : Tim → Tim) : (s.onTim f).thm = s.thm := rfl
@[simp] theorem State.onTim_flt (f : Tim → Tim) : (s.onTim f).flt = s.flt := rfl
@[simp] theorem State.onTim_pad (f : Tim → Tim) : (s.onTim f).pad = s.pad := rfl

@[simp] theorem State.onPad_pad (f : Pad → Pad) : (s.onPad f).pad = f s.pad := rfl
@[simp] theorem State.onPad_pending (f : Pad → Pad) : (s.onPad f).pending = s.pending := rfl
@[simp] theorem State.onPad_free (f : Pad → Pad) : (s.onPad f).free = s.free := rfl
@[simp] theorem State.onPad_sys (f : Pad → Pad) : (s.onPad f).sys = s.sys := rfl
@[simp] theorem State.onPad_cfg (f : Pad → Pad) : (s.onPad f).cfg = s.cfg := rfl
@[simp] theorem State.onPad_regs (f : Pad → Pad) : (s.onPad f).regs = s.regs := rfl
@[simp] theorem State.onPad_cvq (f : Pad → Pad) : (s.onPad f).cvq = s.cvq := rfl
@[simp] theorem State.onPad_ing (f : Pad → Pad) : (s.onPad f).ing = s.ing := rfl
@[simp] theorem State.onPad_bars (f : Pad → Pad) : (s.onPad f).bars = s.bars := rfl
@[simp] theorem State.onPad_enc (f : Pad → Pad) : (s.onPad f).enc = s.enc := rfl
@[simp] theorem State.onPad_ltm (f : Pad → Pad) : (s.onPad f).ltm = s.ltm := rfl
@[simp] theorem State.onPad_lnk (f : Pad → Pad) : (s.onPad f).lnk = s.lnk := rfl
@[simp] theorem State.onPad_mem (f : Pad → Pad) : (s.onPad f).mem = s.mem := rfl
@[simp] theorem State.onPad_vis (f : Pad → Pad) : (s.onPad f).vis = s.vis := rfl
@[simp] theorem State.onPad_chl (f : Pad → Pad) : (s.onPad f).chl = s.chl := rfl
@[simp] theorem State.onPad_lmp (f : Pad → Pad) : (s.onPad f).lmp = s.lmp := rfl
@[simp] theorem State.onPad_mot (f : Pad → Pad) : (s.onPad f).mot = s.mot := rfl
@[simp] theorem State.onPad_tbl (f : Pad → Pad) : (s.onPad f).tbl = s.tbl := rfl
@[simp] theorem State.onPad_thm (f : Pad → Pad) : (s.onPad f).thm = s.thm := rfl
@[simp] theorem State.onPad_flt (f : Pad → Pad) : (s.onPad f).flt = s.flt := rfl
@[simp] theorem State.onPad_tim (f : Pad → Pad) : (s.onPad f).tim = s.tim := rfl

@[simp] theorem State.onBar_bars (b : Fin 8) (f : Bar → Bar) : (s.onBar b f).bars = vmod s.bars b f := rfl
@[simp] theorem State.onBar_pending (b : Fin 8) (f : Bar → Bar) : (s.onBar b f).pending = s.pending := rfl
@[simp] theorem State.onBar_free (b : Fin 8) (f : Bar → Bar) : (s.onBar b f).free = s.free := rfl
@[simp] theorem State.onBar_sys (b : Fin 8) (f : Bar → Bar) : (s.onBar b f).sys = s.sys := rfl
@[simp] theorem State.onBar_cfg (b : Fin 8) (f : Bar → Bar) : (s.onBar b f).cfg = s.cfg := rfl
@[simp] theorem State.onBar_regs (b : Fin 8) (f : Bar → Bar) : (s.onBar b f).regs = s.regs := rfl
@[simp] theorem State.onBar_cvq (b : Fin 8) (f : Bar → Bar) : (s.onBar b f).cvq = s.cvq := rfl
@[simp] theorem State.onBar_ing (b : Fin 8) (f : Bar → Bar) : (s.onBar b f).ing = s.ing := rfl
@[simp] theorem State.onBar_enc (b : Fin 8) (f : Bar → Bar) : (s.onBar b f).enc = s.enc := rfl
@[simp] theorem State.onBar_ltm (b : Fin 8) (f : Bar → Bar) : (s.onBar b f).ltm = s.ltm := rfl
@[simp] theorem State.onBar_lnk (b : Fin 8) (f : Bar → Bar) : (s.onBar b f).lnk = s.lnk := rfl
@[simp] theorem State.onBar_mem (b : Fin 8) (f : Bar → Bar) : (s.onBar b f).mem = s.mem := rfl
@[simp] theorem State.onBar_vis (b : Fin 8) (f : Bar → Bar) : (s.onBar b f).vis = s.vis := rfl
@[simp] theorem State.onBar_chl (b : Fin 8) (f : Bar → Bar) : (s.onBar b f).chl = s.chl := rfl
@[simp] theorem State.onBar_lmp (b : Fin 8) (f : Bar → Bar) : (s.onBar b f).lmp = s.lmp := rfl
@[simp] theorem State.onBar_mot (b : Fin 8) (f : Bar → Bar) : (s.onBar b f).mot = s.mot := rfl
@[simp] theorem State.onBar_tbl (b : Fin 8) (f : Bar → Bar) : (s.onBar b f).tbl = s.tbl := rfl
@[simp] theorem State.onBar_thm (b : Fin 8) (f : Bar → Bar) : (s.onBar b f).thm = s.thm := rfl
@[simp] theorem State.onBar_flt (b : Fin 8) (f : Bar → Bar) : (s.onBar b f).flt = s.flt := rfl
@[simp] theorem State.onBar_tim (b : Fin 8) (f : Bar → Bar) : (s.onBar b f).tim = s.tim := rfl
@[simp] theorem State.onBar_pad (b : Fin 8) (f : Bar → Bar) : (s.onBar b f).pad = s.pad := rfl

@[simp] theorem State.onQ_cvq (q : Fin 64) (f : Queue → Queue) : (s.onQ q f).cvq = vmod s.cvq q f := rfl
@[simp] theorem State.onQ_pending (q : Fin 64) (f : Queue → Queue) : (s.onQ q f).pending = s.pending := rfl
@[simp] theorem State.onQ_free (q : Fin 64) (f : Queue → Queue) : (s.onQ q f).free = s.free := rfl
@[simp] theorem State.onQ_sys (q : Fin 64) (f : Queue → Queue) : (s.onQ q f).sys = s.sys := rfl
@[simp] theorem State.onQ_cfg (q : Fin 64) (f : Queue → Queue) : (s.onQ q f).cfg = s.cfg := rfl
@[simp] theorem State.onQ_regs (q : Fin 64) (f : Queue → Queue) : (s.onQ q f).regs = s.regs := rfl
@[simp] theorem State.onQ_ing (q : Fin 64) (f : Queue → Queue) : (s.onQ q f).ing = s.ing := rfl
@[simp] theorem State.onQ_bars (q : Fin 64) (f : Queue → Queue) : (s.onQ q f).bars = s.bars := rfl
@[simp] theorem State.onQ_enc (q : Fin 64) (f : Queue → Queue) : (s.onQ q f).enc = s.enc := rfl
@[simp] theorem State.onQ_ltm (q : Fin 64) (f : Queue → Queue) : (s.onQ q f).ltm = s.ltm := rfl
@[simp] theorem State.onQ_lnk (q : Fin 64) (f : Queue → Queue) : (s.onQ q f).lnk = s.lnk := rfl
@[simp] theorem State.onQ_mem (q : Fin 64) (f : Queue → Queue) : (s.onQ q f).mem = s.mem := rfl
@[simp] theorem State.onQ_vis (q : Fin 64) (f : Queue → Queue) : (s.onQ q f).vis = s.vis := rfl
@[simp] theorem State.onQ_chl (q : Fin 64) (f : Queue → Queue) : (s.onQ q f).chl = s.chl := rfl
@[simp] theorem State.onQ_lmp (q : Fin 64) (f : Queue → Queue) : (s.onQ q f).lmp = s.lmp := rfl
@[simp] theorem State.onQ_mot (q : Fin 64) (f : Queue → Queue) : (s.onQ q f).mot = s.mot := rfl
@[simp] theorem State.onQ_tbl (q : Fin 64) (f : Queue → Queue) : (s.onQ q f).tbl = s.tbl := rfl
@[simp] theorem State.onQ_thm (q : Fin 64) (f : Queue → Queue) : (s.onQ q f).thm = s.thm := rfl
@[simp] theorem State.onQ_flt (q : Fin 64) (f : Queue → Queue) : (s.onQ q f).flt = s.flt := rfl
@[simp] theorem State.onQ_tim (q : Fin 64) (f : Queue → Queue) : (s.onQ q f).tim = s.tim := rfl
@[simp] theorem State.onQ_pad (q : Fin 64) (f : Queue → Queue) : (s.onQ q f).pad = s.pad := rfl

@[simp] theorem State.drawn_free : s.drawn.free = s.free + 1 := rfl
@[simp] theorem State.drawn_pending : s.drawn.pending = s.pending := rfl
@[simp] theorem State.drawn_sys : s.drawn.sys = s.sys := rfl
@[simp] theorem State.drawn_cfg : s.drawn.cfg = s.cfg := rfl
@[simp] theorem State.drawn_regs : s.drawn.regs = s.regs := rfl
@[simp] theorem State.drawn_cvq : s.drawn.cvq = s.cvq := rfl
@[simp] theorem State.drawn_ing : s.drawn.ing = s.ing := rfl
@[simp] theorem State.drawn_bars : s.drawn.bars = s.bars := rfl
@[simp] theorem State.drawn_enc : s.drawn.enc = s.enc := rfl
@[simp] theorem State.drawn_ltm : s.drawn.ltm = s.ltm := rfl
@[simp] theorem State.drawn_lnk : s.drawn.lnk = s.lnk := rfl
@[simp] theorem State.drawn_mem : s.drawn.mem = s.mem := rfl
@[simp] theorem State.drawn_vis : s.drawn.vis = s.vis := rfl
@[simp] theorem State.drawn_chl : s.drawn.chl = s.chl := rfl
@[simp] theorem State.drawn_lmp : s.drawn.lmp = s.lmp := rfl
@[simp] theorem State.drawn_mot : s.drawn.mot = s.mot := rfl
@[simp] theorem State.drawn_tbl : s.drawn.tbl = s.tbl := rfl
@[simp] theorem State.drawn_thm : s.drawn.thm = s.thm := rfl
@[simp] theorem State.drawn_flt : s.drawn.flt = s.flt := rfl
@[simp] theorem State.drawn_tim : s.drawn.tim = s.tim := rfl
@[simp] theorem State.drawn_pad : s.drawn.pad = s.pad := rfl

@[simp] theorem State.setF_pending (f : Fld) (v : Nat) : (s.setF f v).pending = s.pending := by unfold State.setF; split <;> rfl
@[simp] theorem State.setF_free (f : Fld) (v : Nat) : (s.setF f v).free = s.free := by unfold State.setF; split <;> rfl
@[simp] theorem State.setF_sys (f : Fld) (v : Nat) : (s.setF f v).sys = s.sys := by unfold State.setF; split <;> rfl
@[simp] theorem State.setF_cfg (f : Fld) (v : Nat) : (s.setF f v).cfg = s.cfg := by unfold State.setF; split <;> rfl
@[simp] theorem State.setF_cvq (f : Fld) (v : Nat) : (s.setF f v).cvq = s.cvq := by unfold State.setF; split <;> rfl
@[simp] theorem State.setF_ing (f : Fld) (v : Nat) : (s.setF f v).ing = s.ing := by unfold State.setF; split <;> rfl
@[simp] theorem State.setF_bars (f : Fld) (v : Nat) : (s.setF f v).bars = s.bars := by unfold State.setF; split <;> rfl
@[simp] theorem State.setF_enc (f : Fld) (v : Nat) : (s.setF f v).enc = s.enc := by unfold State.setF; split <;> rfl
@[simp] theorem State.setF_ltm (f : Fld) (v : Nat) : (s.setF f v).ltm = s.ltm := by unfold State.setF; split <;> rfl
@[simp] theorem State.setF_lnk (f : Fld) (v : Nat) : (s.setF f v).lnk = s.lnk := by unfold State.setF; split <;> rfl
@[simp] theorem State.setF_mem (f : Fld) (v : Nat) : (s.setF f v).mem = s.mem := by unfold State.setF; split <;> rfl
@[simp] theorem State.setF_vis (f : Fld) (v : Nat) : (s.setF f v).vis = s.vis := by unfold State.setF; split <;> rfl
@[simp] theorem State.setF_chl (f : Fld) (v : Nat) : (s.setF f v).chl = s.chl := by unfold State.setF; split <;> rfl
@[simp] theorem State.setF_lmp (f : Fld) (v : Nat) : (s.setF f v).lmp = s.lmp := by unfold State.setF; split <;> rfl
@[simp] theorem State.setF_mot (f : Fld) (v : Nat) : (s.setF f v).mot = s.mot := by unfold State.setF; split <;> rfl
@[simp] theorem State.setF_tbl (f : Fld) (v : Nat) : (s.setF f v).tbl = s.tbl := by unfold State.setF; split <;> rfl
@[simp] theorem State.setF_thm (f : Fld) (v : Nat) : (s.setF f v).thm = s.thm := by unfold State.setF; split <;> rfl
@[simp] theorem State.setF_flt (f : Fld) (v : Nat) : (s.setF f v).flt = s.flt := by unfold State.setF; split <;> rfl
@[simp] theorem State.setF_tim (f : Fld) (v : Nat) : (s.setF f v).tim = s.tim := by unfold State.setF; split <;> rfl
@[simp] theorem State.setF_pad (f : Fld) (v : Nat) : (s.setF f v).pad = s.pad := by unfold State.setF; split <;> rfl

@[simp] theorem State.bump_pending (f : Fld) : (s.bump f).pending = s.pending := s.setF_pending f _
@[simp] theorem State.bump_free (f : Fld) : (s.bump f).free = s.free := s.setF_free f _
@[simp] theorem State.bump_sys (f : Fld) : (s.bump f).sys = s.sys := s.setF_sys f _
@[simp] theorem State.bump_cfg (f : Fld) : (s.bump f).cfg = s.cfg := s.setF_cfg f _
@[simp] theorem State.bump_cvq (f : Fld) : (s.bump f).cvq = s.cvq := s.setF_cvq f _
@[simp] theorem State.bump_ing (f : Fld) : (s.bump f).ing = s.ing := s.setF_ing f _
@[simp] theorem State.bump_bars (f : Fld) : (s.bump f).bars = s.bars := s.setF_bars f _
@[simp] theorem State.bump_enc (f : Fld) : (s.bump f).enc = s.enc := s.setF_enc f _
@[simp] theorem State.bump_ltm (f : Fld) : (s.bump f).ltm = s.ltm := s.setF_ltm f _
@[simp] theorem State.bump_lnk (f : Fld) : (s.bump f).lnk = s.lnk := s.setF_lnk f _
@[simp] theorem State.bump_mem (f : Fld) : (s.bump f).mem = s.mem := s.setF_mem f _
@[simp] theorem State.bump_vis (f : Fld) : (s.bump f).vis = s.vis := s.setF_vis f _
@[simp] theorem State.bump_chl (f : Fld) : (s.bump f).chl = s.chl := s.setF_chl f _
@[simp] theorem State.bump_lmp (f : Fld) : (s.bump f).lmp = s.lmp := s.setF_lmp f _
@[simp] theorem State.bump_mot (f : Fld) : (s.bump f).mot = s.mot := s.setF_mot f _
@[simp] theorem State.bump_tbl (f : Fld) : (s.bump f).tbl = s.tbl := s.setF_tbl f _
@[simp] theorem State.bump_thm (f : Fld) : (s.bump f).thm = s.thm := s.setF_thm f _
@[simp] theorem State.bump_flt (f : Fld) : (s.bump f).flt = s.flt := s.setF_flt f _
@[simp] theorem State.bump_tim (f : Fld) : (s.bump f).tim = s.tim := s.setF_tim f _
@[simp] theorem State.bump_pad (f : Fld) : (s.bump f).pad = s.pad := s.setF_pad f _

@[simp] theorem State.peak_pending (f : Fld) (v : Nat) : (s.peak f v).pending = s.pending := s.setF_pending f _
@[simp] theorem State.peak_free (f : Fld) (v : Nat) : (s.peak f v).free = s.free := s.setF_free f _
@[simp] theorem State.peak_sys (f : Fld) (v : Nat) : (s.peak f v).sys = s.sys := s.setF_sys f _
@[simp] theorem State.peak_cfg (f : Fld) (v : Nat) : (s.peak f v).cfg = s.cfg := s.setF_cfg f _
@[simp] theorem State.peak_cvq (f : Fld) (v : Nat) : (s.peak f v).cvq = s.cvq := s.setF_cvq f _
@[simp] theorem State.peak_ing (f : Fld) (v : Nat) : (s.peak f v).ing = s.ing := s.setF_ing f _
@[simp] theorem State.peak_bars (f : Fld) (v : Nat) : (s.peak f v).bars = s.bars := s.setF_bars f _
@[simp] theorem State.peak_enc (f : Fld) (v : Nat) : (s.peak f v).enc = s.enc := s.setF_enc f _
@[simp] theorem State.peak_ltm (f : Fld) (v : Nat) : (s.peak f v).ltm = s.ltm := s.setF_ltm f _
@[simp] theorem State.peak_lnk (f : Fld) (v : Nat) : (s.peak f v).lnk = s.lnk := s.setF_lnk f _
@[simp] theorem State.peak_mem (f : Fld) (v : Nat) : (s.peak f v).mem = s.mem := s.setF_mem f _
@[simp] theorem State.peak_vis (f : Fld) (v : Nat) : (s.peak f v).vis = s.vis := s.setF_vis f _
@[simp] theorem State.peak_chl (f : Fld) (v : Nat) : (s.peak f v).chl = s.chl := s.setF_chl f _
@[simp] theorem State.peak_lmp (f : Fld) (v : Nat) : (s.peak f v).lmp = s.lmp := s.setF_lmp f _
@[simp] theorem State.peak_mot (f : Fld) (v : Nat) : (s.peak f v).mot = s.mot := s.setF_mot f _
@[simp] theorem State.peak_tbl (f : Fld) (v : Nat) : (s.peak f v).tbl = s.tbl := s.setF_tbl f _
@[simp] theorem State.peak_thm (f : Fld) (v : Nat) : (s.peak f v).thm = s.thm := s.setF_thm f _
@[simp] theorem State.peak_flt (f : Fld) (v : Nat) : (s.peak f v).flt = s.flt := s.setF_flt f _
@[simp] theorem State.peak_tim (f : Fld) (v : Nat) : (s.peak f v).tim = s.tim := s.setF_tim f _
@[simp] theorem State.peak_pad (f : Fld) (v : Nat) : (s.peak f v).pad = s.pad := s.setF_pad f _

end Sys2Proof.Machine
end

