-- ==== Sys2Proof/Laws/Access.lean ====
section
/-! SUPPORT. What the shared ways into the seat answer: a live device, a guard that holds, no retirement due, a session's access
that reaches its register. -/

set_option Elab.async false
namespace Sys2Proof.Machine

/-- A live device does what it is asked. -/
theorem State.live_eq {s : State} (h : s.alive = true) (f : State → State) : s.live f = f s := by
  unfold State.live; rw [if_pos h]

/-- A device that does not operate does nothing. -/
theorem State.live_dead {s : State} (h : s.alive = false) (f : State → State) : s.live f = s := by
  unfold State.live; rw [if_neg (by rw [h]; exact Bool.false_ne_true)]

theorem State.when_eq {s : State} {c : Bool} (h : c = true) (f : State → State) : s.when c f = f s := by
  unfold State.when; rw [if_pos h]

theorem State.when_not {s : State} {c : Bool} (h : c = false) (f : State → State) : s.when c f = s := by
  unfold State.when; rw [if_neg (by rw [h]; exact Bool.false_ne_true)]

/-- Nothing waits: nothing is carried out. -/
theorem State.settleFaults_nil {s : State} (h : s.calm) : s.settleFaults = s := by
  obtain ⟨h1, h2, h3⟩ := h
  unfold State.settleFaults State.healthTry
  simp only [h1, List.isEmpty_nil, if_true, h2, Bool.false_eq_true, if_false, if_neg h3, ite_self]

theorem State.liveF_eq {s : State} (h : s.alive = true) (f : State → State) : s.liveF f = (f s).settleFaults := by
  unfold State.liveF; rw [State.live_eq h]

theorem State.liveF_dead {s : State} (h : s.alive = false) (f : State → State) : s.liveF f = s := by
  unfold State.liveF; rw [State.live_dead h]

/-- A burst cut off changes nothing but what CFG holds, and no role. -/
theorem State.burstCut_keeps2 (s : State) (ses : Fin 5) (a : Nat) : Keeps 2 s (s.burstCut ses a) :=
  State.burstCut_keeps ses a (Sub.refl _) (Keeps.refl _ _)

@[simp] theorem State.burstCut_sys (s : State) (ses : Fin 5) (a : Nat) : (s.burstCut ses a).sys = s.sys :=
  (s.burstCut_keeps2 ses a).parts .sys rfl

@[simp] theorem State.burstCut_regs (s : State) (ses : Fin 5) (a : Nat) : (s.burstCut ses a).regs = s.regs :=
  (s.burstCut_keeps2 ses a).parts .regs rfl

@[simp] theorem State.burstCut_role (s : State) (ses n : Fin 5) (a : Nat) : (s.burstCut ses a).roleOf n = s.roleOf n :=
  (s.burstCut_keeps2 ses a).parts .roles rfl n

@[simp] theorem State.burstCut_may (s : State) (ses n : Fin 5) (a : Nat) (r : Role) : (s.burstCut ses a).may n r = s.may n r := by
  have h := s.burstCut_role ses n a
  unfold State.roleOf at h; unfold State.may; rw [h]

@[simp] theorem State.burstCut_inMode (s : State) (ses : Fin 5) (a : Nat) (m : Mode) : (s.burstCut ses a).inMode m = s.inMode m := by
  unfold State.inMode; rw [State.burstCut_sys]

/-- A session with no burst has none to cut. -/
theorem State.burstCut_none {s : State} {ses : Fin 5} (h : s.cfg.sess[ses].burst = none) (a : Nat) : s.burstCut ses a = s := by
  unfold State.burstCut State.endBurst; rw [h]; exact ite_self _

/-- A session's access that reaches its register is decided by the register's own rule, once a burst it does not continue is
ended. -/
theorem State.sesReach_eq {s : State} {ses : Fin 5} {need : Role} {a : Nat} (h : s.reaches ses need a) (data : Word)
    (f : State → State) : s.sesReach ses need a data f = f (s.burstCut ses a) := by
  obtain ⟨h1, h2, h3, h4, h5, h6⟩ := h
  unfold State.audited at h6
  unfold State.sesReach State.audited
  rw [State.live_eq h1]
  simp only [State.burstCut_may, State.burstCut_inMode, State.burstCut_sys, h2, h3, h4, h5, h6, Bool.not_true,
    Bool.false_eq_true, if_false]

/-- A session below the role a register names reaches nothing: its write ends a burst, no more. -/
theorem State.sesReach_low {s : State} {ses : Fin 5} {need : Role} (h : s.may ses need = false) (a : Nat) (data : Word)
    (f : State → State) : s.sesReach ses need a data f = s.live fun s => s.burstCut ses a := by
  unfold State.sesReach State.live
  split
  · simp only [State.burstCut_may, h, Bool.not_false, if_true]
  · rfl

/-! ### Frames -/

theorem partMask_off {p : Part} : ∀ {l : List Part}, p ∉ l → (partMask l).testBit p.bit = false
  | [], _ => Nat.zero_testBit _
  | a :: t, h => by
    simp only [List.mem_cons, not_or] at h
    simp only [partMask, Nat.testBit_or, Bool.or_eq_false_iff]
    refine ⟨?_, partMask_off h.2⟩
    rw [Nat.testBit_two_pow]
    have : a.bit ≠ p.bit := by
      intro e; apply h.1; cases a <;> cases p <;> first | rfl | (simp [Part.bit] at e)
    simpa using this

/-- A mask that a list of parts covers: nothing but those parts has changed. -/
theorem Keeps.sameBut {m : Nat} {s t : State} (h : Keeps m s t) {l : List Part} (hl : m &&& partMask l = m) : s.sameBut t l := by
  refine ⟨h.pending, fun p hp => h.parts p ?_⟩
  have := partMask_off hp
  rw [← hl, Nat.testBit_and, this, Bool.and_false]

/-- Nothing has come to wait: nothing is carried out. -/
theorem State.sameBut.settled {s t : State} {l : List Part} (h : s.sameBut t l) (hd : s.calm) (hl : Part.due ∉ l)
    (hf : t.sys.freezePend = s.sys.freezePend) (hy : t.tbl.yieldFor = s.tbl.yieldFor) : t.settleFaults = t :=
  State.settleFaults_nil ⟨by have := h.2 .due hl; rw [← hd.1]; exact this, by rw [hf]; exact hd.2.1, by rw [hy]; exact hd.2.2⟩

/-! ### Forwarding, audit, bursts -/

/-- Forwarding touches no register but the peak of `TBL_FWD_LVL`. -/
theorem State.forward_regs (s : State) (i : FwdItem) : (s.forward i).regs.rw = s.regs.rw ∧ (s.forward i).regs.shadow = s.regs.shadow ∧
    (s.forward i).regs.act = s.regs.act ∧ (s.forward i).regs.pend = s.regs.pend ∧ (s.forward i).regs.pending = s.regs.pending ∧
    (∀ a, a ≠ 0x1A0034 → rget (s.forward i).regs.hw a = rget s.regs.hw a) := by
  unfold State.forward
  split
  · exact ⟨rfl, rfl, rfl, rfl, rfl, fun _ _ => rfl⟩
  · split
    · exact ⟨rfl, rfl, rfl, rfl, rfl, fun _ _ => rfl⟩
    · refine ⟨rfl, rfl, rfl, rfl, rfl, fun a h => ?_⟩
      exact rget_rset_ne _ h _

@[simp] theorem State.auditWrite_regs (s : State) (ses : Fin 5) (a b c : Nat) : (s.auditWrite ses a b c).regs = s.regs := by
  unfold State.auditWrite State.auditBy State.audit; dsimp only; split <;> first | rfl | (split <;> rfl)

@[simp] theorem State.endBurst_regs (s : State) (ses : Fin 5) : (s.endBurst ses).regs = s.regs := by
  unfold State.endBurst State.audit; dsimp only; split <;> first | rfl | (split <;> rfl)

@[simp] theorem State.endBurst_role (s : State) (ses n : Fin 5) : (s.endBurst ses).roleOf n = s.roleOf n := by
  unfold State.roleOf
  exact (State.endBurst_keeps (msk := 2) ses (Sub.refl _) (Keeps.refl _ _)).parts .roles rfl n

/-- A session that holds the rights of a role holds a role that covers it. -/
theorem State.may_role {s : State} {n : Fin 5} {need : Role} (h : s.may n need = true) :
    ∃ r, s.roleOf n = some r ∧ covers r need = true := by
  unfold State.may at h; unfold State.roleOf
  split at h
  · exact ⟨_, by assumption, h⟩
  · cases h

/-- A session's write that reaches a register of the table and is taken there. -/
theorem State.regCmd_taken {s : State} {ses : Fin 5} {a : Nat} {w : Word} {r : RegRow} {ix : List Nat} (h : s.reaches ses .operator a)
    (hr : regAt a = some (r, ix)) {t : State}
    (hx : (s.burstCut ses a).regFx ((s.burstCut ses a).writer ses) false a r ix w = some t)
    (hl : localReg a = false) (hlo : (s.burstCut ses a).loShut r.base ix = false) :
    s.regCmd ses a w = (t.auditWrite ses a ((s.burstCut ses a).auditVal a r) (t.auditNew a r w)).fwdBy
      ((s.burstCut ses a).writer ses) a w ((s.burstCut ses a).writeLine a) := by
  unfold State.regCmd State.sesWriteBy
  rw [State.sesReach_eq h]
  simp only [hr, hx, hl, hlo, Bool.false_eq_true, if_false]

end Sys2Proof.Machine
end

