-- ==== Sys2Proof/Laws/Modes.lean ====
section
/-! SUPPORT. What the changes of mode answer: of Sys, unbinding changes the list of bound jobs alone, and a change of mode the mode
besides. -/

set_option Elab.async false
namespace Sys2Proof.Machine

/-- Of Sys nothing but the list of bound jobs has changed. -/
def Sys.jobsOnly (x y : Sys) : Prop := ∃ l, y = { x with jobs := l }

theorem Sys.jobsOnly.refl (x : Sys) : x.jobsOnly x := ⟨x.jobs, rfl⟩
theorem Sys.jobsOnly.of_eq {x y : Sys} (h : y = x) : x.jobsOnly y := h ▸ Sys.jobsOnly.refl x
theorem Sys.jobsOnly.trans {x y z : Sys} (h : x.jobsOnly y) (k : y.jobsOnly z) : x.jobsOnly z := by
  obtain ⟨l, rfl⟩ := h; obtain ⟨m, rfl⟩ := k; exact ⟨m, rfl⟩

theorem sys_foldl {α : Type} {f : State → α → State} (h : ∀ s a, (f s a).sys = s.sys) : ∀ (l : List α) (s : State),
    (l.foldl f s).sys = s.sys
  | [], _ => rfl
  | a :: t, s => (sys_foldl h t _).trans (h s a)

/-- What a mask without Sys keeps. -/
theorem Keeps.sys_eq {m : Nat} {s t : State} (h : Keeps m s t) (hm : m.testBit 0 = false) : t.sys = s.sys := h.parts .sys hm

theorem State.dropJobs_sys (s : State) (k : BJob → Bool) : s.sys.jobsOnly (s.dropJobs k).sys := by
  unfold State.dropJobs
  extract_lets gone s0 s1
  have h0 : s0.sys = { s.sys with jobs := s.sys.jobs.filter k } := rfl
  have h1 : s1.sys = s0.sys := by dsimp only [s1]; split <;> rfl
  refine ⟨s.sys.jobs.filter k, ?_⟩
  rw [sys_foldl, h1, h0]
  intro s b
  split
  · exact (State.freeBar_keeps (msk := 44) b rfl (Keeps.refl _ _)).sys_eq rfl
  · rfl

theorem State.unbindAll_sys (s : State) : s.sys.jobsOnly s.unbindAll.sys := by
  unfold State.unbindAll
  extract_lets s1
  have h1 : s1.sys = s.sys := by
    dsimp only [s1]
    refine sys_foldl (fun t b => ?_) _ _
    exact (State.unbindJob_keeps (msk := 24) b rfl (Keeps.refl _ _)).sys_eq rfl
  exact h1 ▸ s1.dropJobs_sys _

theorem State.cutOff_sys (s : State) : s.sys.jobsOnly s.cutOff.sys := by
  unfold State.cutOff
  extract_lets s1
  have h1 : s1.sys = s.sys := by
    dsimp only [s1]
    refine sys_foldl (fun t b => ?_) _ _
    exact (State.cutJob_keeps (msk := 524316) b rfl (Keeps.refl _ _)).sys_eq rfl
  exact h1 ▸ s1.dropJobs_sys _

theorem State.abortAll_sys (s : State) : s.sys.jobsOnly s.abortAll.sys := by
  unfold State.abortAll
  extract_lets s1
  have h1 : s1.sys = s.sys := by
    dsimp only [s1]
    refine sys_foldl (fun t j => ?_) _ _
    exact (State.modJob_keeps (msk := 24) _ _ rfl (State.ctxDrop_keeps _ rfl (State.trailerOf_keeps _ rfl (Keeps.refl _ _)))).sys_eq rfl
  exact h1 ▸ s1.dropJobs_sys _

theorem State.memRetire_sys (s : State) : s.sys.jobsOnly s.memRetire.sys := by
  unfold State.memRetire
  extract_lets l
  split
  · exact Sys.jobsOnly.refl _
  · have h : (s.leaveList l).sys = s.sys := (State.leaveList_keeps (msk := 540) l rfl (Keeps.refl _ _)).sys_eq rfl
    split
    · exact h ▸ (s.leaveList l).abortAll_sys
    · split
      · exact Sys.jobsOnly.of_eq h
      · exact Sys.jobsOnly.refl _

/-- A change of mode: of Sys the mode, whether it is COLD, what waits for COLD and HALT_CAUSE, and with a retirement the jobs. -/
theorem State.setMode_sys (s : State) (m : Mode) (cold : Bool) (h : ¬(s.sys.mode = m ∧ s.sys.cold = cold)) :
    ({ s.sys with mode := m, cold := cold, coldPend := false, haltCause := if m = .halt then s.sys.haltCause else 0 } : Sys).jobsOnly
      (s.setMode m cold).sys := by
  unfold State.setMode
  rw [if_neg h]
  extract_lets x s1 s2 s3 s4 s5
  have h1 : s1.sys = { s.sys with mode := m, cold := cold, coldPend := false, haltCause := if m = .halt then s.sys.haltCause else 0 } := rfl
  have h2 : s2.sys = s1.sys := rfl
  have h3 : s3.sys = s2.sys := by
    dsimp only [s3]
    refine (State.forward_keeps (msk := 16396) _ rfl (State.when_keeps _ _ (fun x hx => ?_) rfl (Keeps.refl _ _))).sys_eq rfl
    exact State.event_keeps _ _ rfl hx
  have h4 : s4.sys = s3.sys := by
    dsimp only [s4]; split
    · exact (State.idleEvents_keeps (msk := 32782) rfl (Keeps.refl _ _)).sys_eq rfl
    · rfl
  have h5 : s5.sys = s4.sys := by
    dsimp only [s5]; split
    · rfl
    · exact (State.calAuto_keeps (msk := 2) _ rfl (State.calSnap_keeps rfl
        (State.when_keeps _ _ (fun x hx => State.useRecords_keeps rfl hx) rfl (Keeps.refl _ _)))).sys_eq rfl
  have : s5.sys = { s.sys with mode := m, cold := cold, coldPend := false, haltCause := if m = .halt then s.sys.haltCause else 0 } := by
    rw [h5, h4, h3, h2, h1]
  rw [← this]
  split
  · exact s5.memRetire_sys
  · exact Sys.jobsOnly.refl _

/-- The mode is the one asked for. -/
theorem State.setMode_mode (s : State) (m : Mode) (cold : Bool) : (s.setMode m cold).sys.mode = m ∧ (s.setMode m cold).sys.cold = cold := by
  by_cases h : s.sys.mode = m ∧ s.sys.cold = cold
  · unfold State.setMode; rw [if_pos h]; exact h
  · obtain ⟨l, e⟩ := s.setMode_sys m cold h
    rw [e]; exact ⟨rfl, rfl⟩

end Sys2Proof.Machine
end

