-- ==== Sys2Proof/Tests/Slice0.lean ====
section
/-! SUPPORT. Tests: states that meet the hypotheses of the obligations, one theorem for each; ill-formed commands refused; and the
manual's worked examples. -/

set_option Elab.async false

namespace Sys2Proof.Machine

/-! ### How test states are built -/

/-- Register fields put at values. -/
def State.fields (s : State) (l : List (Fld × Nat)) : State := l.foldl (fun s e => s.setF e.1 e.2) s

/-- The directory holds these jobs. -/
def State.knows (s : State) (l : List Job) : State := s.onIng fun g => { g with jobs := l }

/-- The job of handle 0x53 bound on bar 0, its first line at print line 1. -/
def State.bound (s : State) : State := s.onSys fun y => { y with jobs := [{ handle := 0x53, bars := 1, start := some 1 }] }

end Sys2Proof.Machine

namespace Sys2Proof.Tests
open Sys2Proof.Machine

/-- A seat in mode m whose sessions are makers. -/
def seat (m : Mode) : State :=
  { State.reset with sys := { mode := m }, cfg := { sess := Vector.replicate 5 { role := some .maker } } }

/-- A seat with one head of 64 nozzles, on an ACTIVE lane 0. -/
def press (m : Mode) : State :=
  ((seat m).onLnk fun l => { l with
    desc := [(0, 0x00400001), (1, 0x000014B0), (4, 100000), (8, 0x0FFF0000)]
    lanes := vset l.lanes 0 { st := .active, version := 1, maxRate := 100000, hdrs := List.replicate 64 true } }).fields
    [(F.NZM_GEOM_EN 0 0, 1), (F.LNK_CFG_EN 0, 1), (F.MEM_CAP_MIB, 1024), (F.LTM_PITCH_NUM, 64), (F.LNK_MOD_INFO_HEADS 0, 1),
     (F.LNK_MOD_INFO_RATES 0, 7), (F.LNK_MOD_INFO_DEPTH 0, 64), (F.LNK_MOD_TYPE_EVEN 0 0, 1), (F.LNK_MOD_RATE_VALUE 0, 100000),
     (F.LTM_PRE_PRE, 400)]

/-- A job of tag 5, generation 3 with a usable descriptor of blank lines and no Ace layer. -/
def job (st : JobState) : Job :=
  { tag := 5, gen := 3, st := st, resMiB := 1, lines := some 10, archSize := 65536,
    objs := [{ num := 0, st := 2, cls := 4, bytes := List.replicate 10 0 ++ [0xFF, 0xFF] }] }

/-- A seat in IDLE/COLD. -/
def cold : State := (seat .idle).onSys fun y => { y with cold := true }

/-- A seat in READY with job 0x53 bound, and a second job staged. -/
def ready2 : State := (((press .ready).knows [job .bound, { job .staged with tag := 6 }])).bound

/-- A seat whose web is at rest and whose stop has gone through LIFT and CAP. -/
def stopping : State :=
  (seat .print).onSys fun y => { y with stopping := true, flow := .stop, seqStep := .over, stops := [⟨.haltRamp, 2⟩, ⟨.orderly, 4⟩] }

/-- A valid image of an empty population. -/
def image : Image := { pop := { chans := 1 }, keyMk := some (0, 0) }

/-- A seat in BOOT with that image in bank A and a temperature reading. -/
def boots : State :=
  (((seat .boot).onCfg fun c => { c with banks := Vector.replicate 2 (some image) }).onThm fun t => { t with raws := [640] })

/-- A session of each kind: 0 a maker's, 1 locked, 2 with no role. -/
def sessions : State :=
  (seat .idle).onCfg fun c => { c with sess := vset (vset c.sess 1 { locked := true }) 2 {}, image := { image with keyOp := some (0, Config.keyHash 0 []) } }

/-- A seat whose rings the host has enabled, each with a descriptor to fetch. -/
def hosted (m : Mode) : State :=
  ((press m).onIng fun g => { g with bme := true, rings := g.rings.map fun r => { r with en := true, prod := 5 } }).fields
    [(F.ING_CTL_RING_EN, 255), (F.ING_LS_SIZE_SIZE, 8)]

/-- An empty record set as an object's bytes (R94), and coded blocks (R80): two raw bytes, and the end of a stream. -/
def recBytes : List Byte := [0x5A, 0xA5, 3, 0] ++ List.replicate 60 0
def rawBlock : List Byte := [0xD5, 2, 0, 0xD7, 1, 0, 1, 0, 0x11, 0x22]
def endBlock : List Byte := [0xD5, 3, 0, 0xD6, 11, 0, 11, 0] ++ leBytes 8 64 ++ leBytes 4 (crc32c recBytes)

/-- A DATA descriptor for object 5, and a seat in which it works on that object. -/
def feed (flags : Byte) : Fetched := { d := { op := 2, handle := 0x53, obj := 5, flags := flags }, handle := 0x53, tag := 5 }
def fedJob (o : Obj) : Job := { job .opened with objs := [o] }
def fed (flags : Byte) (o : Obj) : State :=
  ((hosted .idle).knows [fedJob o]).onIng fun g => { g with rings := vset g.rings 7 { g.rings[(7 : Fin 8)] with out := [feed flags] } }

/-- A Caravan queue q with its tail full, beside a full crest. -/
def fullTail (q : Fin 64) (e : Entry) : State :=
  (seat .idle).onQ q fun x => { x with crest := List.replicate (crestCap q) e, tail := List.replicate (tailCap q) e }

/-! ### States that meet the hypotheses of the obligations -/

theorem witness_StepRunsFrontCommand :
    ({ seat .idle with pending := [.powerOn, .timeMark] } : State).pending = .powerOn :: [.timeMark] ∧ (seat .idle).pending = [] :=
  ⟨rfl, rfl⟩

theorem witness_EveryStepKeepsQueueAndRegisters :
    (∃ t, step { seat .idle with pending := [.timeMark] } = .next t) ∧ ({ seat .idle with pending := [.timeMark] } : State).inv ∧
      (seat .idle).flt.due = [] := by
  refine ⟨⟨_, rfl⟩, ⟨?_, by decide +kernel⟩, rfl⟩
  intro c hc
  simp only [List.mem_singleton] at hc
  subst hc
  rfl

theorem witness_WellFormedCommandsNeverStop : (Instr.queueEntryWrite 0 (.chunk [])).wf = false := by decide +kernel

theorem witness_CommandsChangeOnlyTheirParts : (∃ t, exec .timeMark (seat .print) = .next t) ∧ Part.free ∉ touched .timeMark := by
  exact ⟨⟨_, rfl⟩, by decide⟩

theorem witness_ShutOutCommandsDoNothing :
    (let s := (seat .idle).onSys fun y => { y with inReset := true }
     s.alive = false ∧ s.calm ∧ (Instr.timeMark).power = false) ∧
    (Instr.reqRun 2).writer = some 2 ∧ sessions.roleOf 2 = none ∧ sessions.calm ∧ sessions.alive = true ∧
      sessions.cfg.sess[(2 : Fin 5)].burst = none := by and_intros <;> decide +kernel

theorem witness_SessionWritesFollowAccessType :
    (seat .print).operates ∧ (seat .print).may 4 .installer = true ∧ (seat .print).reaches 4 .operator 0x1E0084 ∧
      (seat .print).reaches 4 .operator 0x11010C ∧ (seat .print).reaches 4 .operator (0x180030 + 15 * 0x200) := by and_intros <;> decide +kernel

theorem witness_ReadsClearAndLatch :
    let s := (seat .print).onLtm fun l => { l with g := 0xFFFFFFFFFFFF }
    s.operates ∧ s.may 4 .operator = true ∧ s.cfg.sess[(4 : Fin 5)].latched.contains 0x10C = false ∧ s.inMode .frozen = false ∧
      s.sys.cold = false ∧ s.cfg.sess[(4 : Fin 5)].latched.contains 0x110144 = false ∧ rget s.regs.hw 0x110144 = 0 ∧
      rget s.regs.hw 0x110148 = 0 ∧ s.cfg.sess[(4 : Fin 5)].latched.contains 0x110148 = false ∧
      (match exec (.loReadLatch 4 0x110144) s with
        | .next u => u.alive && !u.inMode .frozen && !u.sys.cold
        | _ => false) = true := by and_intros <;> decide +kernel

theorem witness_ActiveViewsReadActiveSet :
    (seat .idle).operates ∧ (seat .idle).roleOf 0 = some .maker ∧ (seat .idle).inMode .frozen = false ∧ (seat .idle).sys.cold = false ∧
      0x1FFFFC % 4 = 0 ∧ 0x1FFFFC < 0x200000 := by and_intros <;> decide +kernel

theorem witness_RequestsChangeTheMode :
    cold.takesRequest 0 ∧ cold.inMode .idle = true ∧ cold.sys.cold = true ∧
    (∀ m ∈ [Mode.idle, .ready, .print, .service, .halt], (seat m).takesRequest 4 ∧ (seat m).inMode m = true ∧
      (seat m).sys.flow = .none ∧ (seat m).sys.stops = []) ∧
    (seat .idle).idleWarm = true ∧ (seat .idle).coldFit = true ∧ (seat .idle).calRunning = false ∧
    (let s := (seat .ready).onSys fun y => { y with flow := .enter }; s.takesRequest 0 ∧ s.sys.flow = .enter) ∧
    (let s := (seat .halt).onThm fun t => { t with raws := [2399] }
     s.takesRequest 0 ∧ s.pad.estop = true ∧ s.thm.temp < 2400 ∧ s.sys.seqStep ≠ .lift ∧ s.sys.seqStep ≠ .cap) ∧
    (let s := (((seat .idle).onTbl fun t => { t with renewed := true }).onLnk fun l => { l with
        lanes := l.lanes.map fun x => { x with st := .active, inGroup := true } }).fields [(F.TBL_CFG_TWIN, 1), (F.TBL_CFG_LANE_EN, 4095)]
     s.takesRequest 0 ∧ s.inMode .idle = true ∧ s.joinOk = true) := by and_intros <;> decide +kernel

theorem witness_BindTakesUsableJobs :
    (let s := ((press .idle).knows [job .staged]).onMot fun m => { m with liftDone := true }
     s.takesRequest 0 ∧ s.idleWarm = true ∧ s.sys.jobs = [] ∧ s.mot.liftDone = true ∧ s.bindPrep.pressOk = true ∧
       s.bindPrep.bindJobOk 0x53 = true ∧ s.bindPrep.bindJobOk 0x54 = false) ∧
    (ready2.takesRequest 0 ∧ ready2.inMode .ready = true ∧ ready2.sys.flow = .none ∧ ready2.sys.jobs ≠ [] ∧ ready2.toPrint ≤ 1 ∧
      ready2.bindPrep.pressOk = true ∧ ready2.bindPrep.bindJobOk 0x63 = true) ∧
    (let s := ((press .print).knows [job .bound, { job .staged with tag := 6 }]).bound
     s.takesRequest 0 ∧ s.inMode .print = true ∧ s.toPrint ≤ 1 ∧ s.bindPrep.pressOk = true ∧ s.bindPrep.bindJobOk 0x63 = true) := by
  and_intros <;> decide +kernel

theorem witness_UnlistedRequestsAreCounted :
    (seat .service).takesRequest 0 ∧ (seat .service).inMode .ready = false ∧ (seat .service).inMode .halt = false ∧
      (seat .service).inMode .idle = false ∧ (seat .service).idleWarm = false ∧ (seat .idle).takesRequest 0 ∧
      (seat .idle).inMode .service = false ∧ (seat .idle).idleWarm = true ∧ (seat .idle).inMode .idle = true := by and_intros <;> decide +kernel

theorem witness_WaitingRequestsTakeEffect :
    (let s := ((seat .print).onSys fun y => { y with req := some { code := 6 } }).onLtm fun l => { l with armed := true }
     s.operates ∧ s.inMode .print = true ∧ s.sys.stopping = false ∧ s.sys.stops = [] ∧ s.ltm.armed = true ∧ s.sys.req = some { code := 6 }) ∧
    (let s := (seat .ready).onSys fun y => { y with req := some { code := 4 } }
     s.operates ∧ s.inMode .ready = true ∧ s.sys.flow = .none ∧ s.sys.req = some { code := 4 }) ∧
    (let s := ((seat .idle).onSys fun y => { y with coldPend := true }).fields [(F.SYS_IDLE_CFG_COLD_AUTO, 1)]
     s.operates ∧ s.fb F.SYS_IDLE_CFG_COLD_AUTO = true ∧ s.coldFit = true ∧ s.calRunning = false ∧ s.sys.waking = false ∧ s.sys.coldPend = true) ∧
    (let s := cold.onSys fun y => { y with waking := true }
     s.operates ∧ s.inMode .idle = true ∧ s.sys.cold = true ∧ s.sys.waking = true ∧ s.sys.afterWake = []) ∧
    stopping.operates ∧ stopping.inMode .standby = false ∧ stopping.sys.stopping = true ∧ stopping.mot.rest = true ∧
      stopping.sys.cold = false ∧ stopping.sys.endFiring = false ∧ stopping.sys.flow = .stop ∧ stopping.sys.seqStep = .over ∧
      stopping.stopRank < 3 ∧ stopping.inMode .halt = false := by and_intros <;> decide +kernel

theorem witness_PowerKeepsOnlyNvm :
    let s := (seat .idle).onSys fun y => { y with inReset := true }
    s.sys.powered = true ∧ s.sys.inReset = true := by and_intros <;> decide +kernel

theorem witness_SupplyDipIsPowerOnReset :
    (seat .print).sys.powered = true ∧ (seat .print).sys.inReset = false ∧
      ((seat .idle).onSys fun y => { y with inReset := true }).sys.inReset = true := by and_intros <;> decide +kernel

theorem witness_HardResetKeepsTheLayerStore :
    39 < 40 ∧ 100 ≤ 100 ∧ 40 ≤ 40 ∧ 99 < 100 ∧ (seat .frozen).sys.powered = true ∧ (seat .frozen).sys.inReset = false ∧
      (seat .print).reaches 4 .installer 0x110 ∧ (0xA4 : Byte) ≠ 0xA5 ∧
      ((seat .print).onMem fun m => { m with ch := vset m.ch 7 { st := .active } }).mem.ch[(7 : Fin 8)].st = .active := by and_intros <;> decide +kernel

theorem witness_WarmAndIslandResetsAct :
    (seat .halt).operates ∧ (seat .halt).reaches 0 .installer 0x110 ∧ (seat .halt).warmOk = true ∧ (seat .halt).pad.estop = true ∧
      (seat .print).operates ∧ (seat .print).reaches 0 .maker 0x110 ∧ (seat .print).inMode .frozen = false := by and_intros <;> decide +kernel

/-- What `BOOT` finds outside beside that image. -/
def found : BootEnv := { pop := { chans := 1 }, diode := 640 }

theorem witness_BootEndsByWhatItFinds :
    (boots.operates ∧ boots.inMode .boot = true ∧ ({ found with nvm := none } : BootEnv).nvm = none ∧
      ({ sizeMiB := 32 } : NvmDev).fits = false ∧ found.nvm = some {} ∧ ({} : NvmDev).fits = true ∧
      boots.cfg.part = Vector.replicate 2 false) ∧
    (let s := seat .boot
     s.operates ∧ s.inMode .boot = true ∧ s.cfg.goodBank s.cfg.selected = none ∧ s.cfg.goodBank (otherBank s.cfg.selected) = none) ∧
    (boots.cfg.goodBank boots.cfg.selected = some image ∧ imageFits image = true ∧ dramUp found image.pop = true ∧
      dramUp { found with pop := {} } image.pop = false ∧ boots.pad.latched = false ∧ boots.thm.raws ≠ [] ∧
      boots.thm.bootStop = 0 ∧ boots.sys.hardBoot = false) ∧
    (let s := boots.onCfg fun c => { c with banks := vset c.banks 0 none }
     s.operates ∧ s.cfg.selected = 0 ∧ s.cfg.goodBank 0 = none ∧ s.cfg.goodBank 1 = some image) ∧
    (let i := { image with bars := 9 }
     let s := boots.onCfg fun c => { c with banks := Vector.replicate 2 (some i) }
     s.operates ∧ s.cfg.goodBank s.cfg.selected = some i ∧ imageFits i = false) := by and_intros <;> decide +kernel

theorem witness_CalibrationCommitsRun :
    (∀ m ∈ [Mode.idle, .print],
      let s := (seat m).fields [(F.CFG_NVM_CFG_CAL_AUTO_H, 1)]
      s.operates ∧ s.f F.CFG_NVM_CFG_CAL_AUTO_H ≠ 0 ∧ s.nvmRuns = false ∧ s.inMode m = true) ∧
    ((seat .idle).reaches 0 .installer 0x10010 ∧ (seat .idle).reaches 0 .maker 0x10010 ∧ (seat .idle).nvmRuns = false ∧
      (seat .idle).inMode .print = false ∧ ({} : CalSet).bytes ≤ calMax ∧ (0xA4 : Byte) ≠ 0xA5) ∧
    (∀ v ∈ [true, false],
      let s := (seat .idle).onCfg fun c => { c with run := some { taken := true, verified := v } }
      s.operates ∧ s.nvmRuns = true ∧ s.reaches 0 .installer 0x10010 ∧ s.cfg.run = some { taken := true, verified := v } ∧
        s.chRetiring = []) := by
  and_intros <;> decide +kernel

theorem witness_ImagesAndRecordsReachTheFlash :
    ((seat .idle).operates ∧ (seat .idle).may 0 .maker = true ∧ (seat .idle).inMode .frozen = false ∧ image.bytes ≤ imageMax ∧
      (seat .idle).cfg.run = none ∧ ((seat .idle).onCfg fun c => { c with run := some {} }).cfg.run.isSome = true) ∧
    (let s := (seat .idle).onCfg fun c => { c with xferQ := some image }
     s.operates ∧ s.cfg.xferQ = some image ∧ s.cfg.run = none ∧ s.inMode .frozen = false) ∧
    (let s := (seat .idle).onCfg fun c => { c with xfer := some image }
     s.operates ∧ s.cfg.xfer = some image) ∧
    (let s := (seat .idle).onCfg fun c => { c with inactValid := true }
     s.operates ∧ s.reaches 0 .maker 0x10010 ∧ s.nvmRuns = false ∧ s.cfg.inactValid = true ∧ s.cfg.pool = [] ∧ 61 < s.cfg.nvmMiB) ∧
    ((seat .idle).inMode .boot = false ∧ (seat .idle).cfg.pool = [] ∧ 61 < (seat .idle).cfg.nvmMiB) ∧
    (let s := (seat .idle).onCfg fun c => { c with pool := [{ kind := 2 }] }
     s.operates ∧ s.inMode .frozen = false ∧ s.cfg.pool[0]? = some { kind := 2 } ∧ blockFree s.cfg.pool { kind := 2 } = true) := by
  and_intros <;> decide +kernel

theorem witness_LoginsGrantAndTakeRoles :
    sessions.alive = true ∧ sessions.cfg.sess[(0 : Fin 5)].locked = false ∧ sessions.keyOk .operator [] = true ∧
      sessions.keyOk .installer [] = false ∧ sessions.cfg.sess[(1 : Fin 5)].locked = true := by
  refine ⟨rfl, rfl, ?_, rfl, rfl⟩
  show (Config.keyHash 0 [] == Config.keyHash 0 []) = true
  exact beq_self_eq_true _

theorem witness_AuditRecordsReachTheRing :
    (∀ n ∈ [0, 64],
      let s := (seat .idle).onCfg fun c => { c with
        sess := vset c.sess 4 { role := some .maker, burst := some {} }, staging := List.replicate n {} }
      s.operates ∧ s.cfg.sess[(4 : Fin 5)].burst = some {} ∧ s.cfg.fwdBurst = none ∧
        (decide (s.cfg.staging.length < stagingCap ∧ s.cfg.auditWait = []) = decide (n = 0))) ∧
    (let s := (seat .idle).onCfg fun c => { c with staging := [{ seq := 7 }], ring := List.replicate 12 {} }
     s.operates ∧ s.cfg.staging = { seq := 7 } :: [] ∧ s.cfg.heldWrites = [] ∧ s.inMode .frozen = false ∧
       s.cfg.ring.length + 8 ≤ 30720) := by and_intros <;> decide +kernel

theorem witness_CommitsMoveTheSets :
    (let s := (seat .idle).onRegs fun r => { r with pending := [.ltmGov, .chlLaw, .ltmGeom] }
     s.operates ∧ s.inMode .idle = true ∧ s.reaches 0 (groupRole .ltmGov) (commitAddr .ltmGov) ∧ s.goBlocked .ltmGov = false ∧
       instantOf .ltmGov ≠ .sens ∧ (∀ g ∈ [Group.ltmGov, .chlLaw, .ltmGeom], s.regs.pending.contains g = true) ∧
       s.regs.pending.contains .padCfg = false ∧ s.reaches 0 (groupRole .padCfg) (commitAddr .padCfg)) ∧
    (let s := seat .idle
     s.operates ∧ s.reaches 0 (groupRole (.visSens 7)) (commitAddr (.visSens 7)) ∧ s.goBlocked (.visSens 7) = false ∧
       instantOf (.visSens 7) = .sens ∧ s.inMode .frozen = false ∧ s.inMode .boot = false ∧ s.inMode .standby = false) ∧
    ((seat .print).operates ∧ (seat .print).reaches 0 (groupRole .padCfg) (commitAddr .padCfg) ∧
      (seat .print).goBlocked .padCfg = true ∧ (seat .print).inMode .print = true ∧ instantOf .ltmGov = .line) := by
  and_intros <;> decide +kernel

theorem witness_QueuesKeepOrder :
    ((seat .idle).operates ∧ (seat .idle).entryFits 47 (.lane {}) = false ∧ (seat .idle).entryFits 47 (.chunk []) = true ∧
      (47 : Fin 64).val < 60 ∧ (seat .idle).cvq[(47 : Fin 64)].held = none ∧ ((seat .idle).settle 47).tailRoom 47 = true ∧
      (seat .idle).tailRoom 40 = true) ∧
    (∀ q ∈ [((47 : Fin 64), Entry.chunk []), (52, .stats { body := .mark [] }), (59, .arch { bar := 7 })],
      let s := fullTail q.1 q.2
      s.operates ∧ s.entryFits q.1 q.2 = true ∧ s.cvq[q.1].held = none ∧ (s.settle q.1).tailRoom q.1 = false) ∧
    (fullTail 47 (.chunk [])).tailRoom 47 = false ∧
    (let x : FrameSeg := { cam := 7, last := true }
     (∀ s ∈ [seat .idle, fullTail 51 (.frame x)], s.operates ∧ s.entryFits 51 (.frame x) = true ∧ s.segGrp x = none ∧
       s.vis.cam[(7 : Fin 8)].cutFrame ≠ some x.frame) ∧
     ((seat .idle).settle 51).tailRoom 51 = true ∧ ((fullTail 51 (.frame x)).settle 51).tailRoom 51 = false) ∧
    (let s := (seat .idle).onQ 60 fun x => { x with crest := [.evt {}], dune := [.evt {}], tail := [.evt {}] }
     s.operates ∧ s.cvq[(60 : Fin 64)].crest ≠ [] ∧ s.cvq[(60 : Fin 64)].dune = .evt {} :: [] ∧
       s.cvq[(60 : Fin 64)].crest.length < crestCap 60) ∧
    (let s := (seat .idle).onQ 0 fun x => { x with tail := [.lane {}] }
     s.operates ∧ s.cvq[(0 : Fin 64)].dune = [] ∧ s.cvq[(0 : Fin 64)].tail = .lane {} :: [] ∧
       s.cvq[(0 : Fin 64)].crest.length < crestCap 0) ∧
    (let s := (seat .idle).onQ 59 fun x => { x with crest := [.arch {}] }
     s.operates ∧ s.cvq[(59 : Fin 64)].crest = .arch {} :: []) ∧
    (let s := (seat .idle).onQ 40 fun x => { x with held := some (.chunk []) }
     s.operates ∧ s.tailRoom 40 = true ∧ s.cvq[(40 : Fin 64)].held = some (.chunk [])) ∧
    (∀ b ∈ [true, false],
      let s := (seat .idle).onIng fun g => { g with bme := b, rings := g.rings.map fun r => { r with pull := [[1]] } }
      s.operates ∧ s.tailRoom 47 = true ∧ s.cvq[(47 : Fin 64)].held = none ∧ s.ing.rings[(7 : Fin 8)].pull = [1] :: [] ∧
        s.ing.bme = b ∧ s.inMode .standby = false) := by
  and_intros <;> decide +kernel

theorem witness_EventQueuesReportLosses :
    let s := (seat .idle).onQ 63 fun x => { x with crest := [.evt {}], lost := 1 }
    s.operates ∧ s.cvq[evtQ 0].held = none ∧ s.cvq[evtQ 0].lost = 0 ∧ s.cvq[evtQ 0].fill < 8192 ∧ s.cvq[evtQ 3].lost ≠ 0 ∧
      s.qFull (evtQ 3) = false ∧ (59 : Fin 64).val < 60 ∧ s.vis.outQ = [] := by and_intros <;> decide +kernel

theorem witness_DuneRingsStayInMemory :
    (∀ q ∈ [(0 : Fin 64), 63], ∀ b ∈ [true, false], (seat .halt).operates ∧ (seat .halt).reaches 0 .installer (duneFld q b).addr ∧
      ((seat .halt).idleWarm || (seat .halt).inMode .halt) = true ∧ (seat .print).operates ∧
      (seat .print).reaches 0 .installer (duneFld q b).addr ∧ ((seat .print).idleWarm || (seat .print).inMode .halt) = false) := by
  decide +kernel

theorem witness_RingsFollowTheHost :
    (∀ m ∈ [Mode.idle, .standby], (hosted m).alive = true ∧ (hosted m).inMode .boot = false ∧ (hosted m).inMode .frozen = false ∧
      (hosted m).inMode m = true) ∧
    ((hosted .idle).inMode .standby = false ∧ (hosted .idle).sys.cold = false ∧ (hosted .idle).ing.rings[(7 : Fin 8)].size = 16 ∧
      ((15 : BitVec 16) - (hosted .idle).ing.rings[(7 : Fin 8)].cons).toNat = 15 ∧
      ((16 : BitVec 16) - (hosted .idle).ing.rings[(7 : Fin 8)].cons).toNat = 16 ∧ (hosted .idle).ing.bme = true) ∧
    (let s := (hosted .idle).onSys fun y => { y with cold := true }
     s.alive = true ∧ s.inMode .idle = true ∧ s.sys.cold = true) ∧
    (let s := (hosted .idle).onIng fun g => { g with rings := vset g.rings 7 { g.rings[(7 : Fin 8)] with
       owed := [{}], err := true, code := 3, written := 15 } }
     let x := s.ing.rings[(7 : Fin 8)]
     s.alive = true ∧ x.en = true ∧ x.owed = [{}] ∧ x.err = true ∧ x.code = 3 ∧ ({ x with ack := 1 } : Ring).cplFull = false) ∧
    (let s := (hosted .idle).onIng fun g => { g with rings := vset g.rings 7 { g.rings[(7 : Fin 8)] with owed := [{}], written := 14 } }
     let x := s.ing.rings[(7 : Fin 8)]
     s.alive = true ∧ x.en = true ∧ x.owed = [{}] ∧ x.cplFull = false) ∧
    ((press .idle).alive = true ∧ (press .idle).ing.rings[(0 : Fin 8)].en = false ∧ (hosted .idle).ing.rings[(7 : Fin 8)].en = true ∧
      (hosted .idle).ing.rings[(7 : Fin 8)].owed = [] ∧ (1 : Word).getLsbD 1 = false) ∧
    (let o : Obj := { num := 5 }
     let f := { feed 0 with left := 2 }
     let s := (fed 0 o).onIng fun g => { g with rings := vset g.rings 7 { g.rings[(7 : Fin 8)] with out := [f], pull := [[1], [2]] } }
     let x := s.ing.rings[(7 : Fin 8)]
     s.alive = true ∧ s.ing.bme = true ∧ s.inMode .standby = false ∧ x.out = [f] ∧ f.d.op = 2 ∧ f.left ≠ 0 ∧
       (x.pull.map List.length).foldl (· + ·) 0 = f.left ∧ s.objOf f = some o) := by and_intros <;> decide +kernel

theorem witness_DescriptorsMoveJobs :
    let p := [1, 0, 0, 0, 0, 0, 0, 0] ++ leBytes 8 8388608 ++ List.replicate 48 0
    (let s := hosted .idle
     let d : Desc := { op := 1, len := 64 }
     s.operates ∧ s.sys.unseen = false ∧ s.ringServed 7 = true ∧ d.fits p = true ∧ d.fits [] = true ∧ p.length = d.len ∧ 64 ≤ p.length ∧
       byteAt p 0 ≤ 1 ∧ s.freeTag = some 1 ∧ s.ing.lsBad = false ∧ cdiv (leAt p 8 8) 1048576 ≤ s.lsFree) ∧
    (let s := (hosted .idle).knows [job .opened]
     let d : Desc := { op := 2, handle := 0x54, obj := 2039 }
     s.operates ∧ s.ringServed 7 = true ∧ s.freeTag = some 1 ∧ s.lsFree < cdiv (leAt p 8 8) 1048576 ∧
       d.fits [] = true ∧ s.job? 0x54 = none ∧ s.jobAt (tagOf 0x53) = some (job .opened) ∧
       (job .opened).gen = genOf 0x53 ∧ (job .opened).entry 2039 = none ∧ s.otherRing 7 5 2039 = false ∧ s.feeds 7 5 2039 = none ∧
       (job .opened).streaming = false ∧ (job .opened).st = .opened ∧ s.closeCheck (job .opened) = (0, 0)) ∧
    (let j := { job .opened with objs := [] }
     ((hosted .idle).knows [j]).closeCheck j ≠ (0, 0) ∧ ((hosted .idle).knows [j]).jobAt (tagOf 0x53) = some j) ∧
    (let j := { job .opened with streaming := true, lines := none }
     let s := (hosted .idle).knows [j]
     let d : Desc := { op := 3, handle := 0x53, len := 8 }
     s.operates ∧ s.ringServed 7 = true ∧ d.fits (leBytes 8 7) = true ∧ (leBytes 8 7).length = d.len ∧
       s.jobAt (tagOf 0x53) = some j ∧ j.streaming = true ∧ j.st = .opened ∧ j.lines = none ∧ 8 ≤ (leBytes 8 7).length) ∧
    (∀ st ∈ [JobState.opened, .staged, .bound],
      let s := ((hosted .ready).knows [job st]).bound
      s.operates ∧ s.sys.unseen = false ∧ s.ringServed 7 = true ∧ s.jobAt (tagOf 0x53) = some (job st) ∧ (job st).st = st ∧
        ({ op := 4, handle := 0x53 } : Desc).fits [] = true) ∧
    (let s := (((hosted .print).knows [job .printing]).bound).onLtm fun l => { l with armed := true }
     s.operates ∧ s.sys.unseen = false ∧ s.ringServed 7 = true ∧ s.jobAt (tagOf 0x53) = some (job .printing) ∧ s.inMode .print = true ∧
       s.ltm.armed = true ∧ s.sys.stops = []) := by
  and_intros <;> decide +kernel

theorem witness_StreamsBecomeObjects :
    (∀ o ∈ [{ num := 5, bytes := recBytes, dec := { buf := rawBlock } }, { num := 5, bytes := recBytes, dec := { buf := endBlock } },
        { num := 5, bytes := [], dec := { buf := [1, 2, 3, 4, 5, 6, 7, 8] } }],
      let s := fed 0 o
      s.operates ∧ s.ing.rings[(7 : Fin 8)].working = some (feed 0) ∧ (feed 0).again = false ∧ s.jobAt 5 = some (fedJob o) ∧
        (fedJob o).entry 5 = some o ∧ o.st = 1 ∧ o.dec.wait = false ∧ o.dec.fin = none ∧
        (fedJob o).used < (fedJob o).resMiB * 1048576) ∧
    decodeBlock rawBlock recBytes.reverse = .raw ([0x22, 0x11] ++ recBytes.reverse) [] false ∧
    (fedJob { num := 5, bytes := recBytes }).used + (([0x22, 0x11] ++ recBytes.reverse).length - recBytes.length) ≤ 1 * 1048576 ∧
    (∀ b ∈ [true, false],
      let o : Obj := { num := 5, bytes := recBytes, dec := { buf := rawBlock } }
      let j := { fedJob o with resMiB := 0, streaming := b }
      let s := (fed 0 o).knows [j]
      s.operates ∧ s.ing.rings[(7 : Fin 8)].working = some (feed 0) ∧ s.jobAt 5 = some j ∧ j.entry 5 = some o ∧
        j.resMiB * 1048576 < j.used + (([0x22, 0x11] ++ recBytes.reverse).length - recBytes.length)) ∧
    decodeBlock endBlock recBytes.reverse = .fin 64 (crc32c recBytes) [] ∧ recBytes.length = 64 ∧
    decodeBlock [1, 2, 3, 4, 5, 6, 7, 8] [] = .err 1 ∧
    (let o : Obj := { num := 5, bytes := recBytes, dec := { fin := some (64, crc32c recBytes) } }
     o.st = 1 ∧ o.dec.buf = [] ∧ (fed 1 o).ing.rings[(7 : Fin 8)].working = some (feed 1) ∧ (feed 1).left = 0 ∧
       bits (feed 1).d.flags.toNat 0 1 = 1 ∧ (fed 1 o).verify (fedJob o) o (crc32c recBytes) = (0, 0)) ∧
    (let o : Obj := { num := 5, bytes := recBytes, dec := { fin := some (64, 7) } }
     (fed 1 o).ing.rings[(7 : Fin 8)].working = some (feed 1) ∧ ((fed 1 o).verify (fedJob o) o 7).1 ≠ 0) ∧
    (let o : Obj := { num := 5, st := 2, bytes := recBytes }
     (fed 1 o).operates ∧ (fed 1 o).ing.rings[(7 : Fin 8)].working = some (feed 1) ∧ (fed 1 o).ing.rings[(7 : Fin 8)].out = [feed 1] ∧
       (feed 1).fwd = false ∧ (feed 1).after = [] ∧ (fed 1 o).dataDone (feed 1) = true) := by
  and_intros <;> decide +kernel

theorem witness_JobsEndAndFreeTheirTag :
    (∀ st ∈ [JobState.ending, .failed, .aborted],
      let s := (press .idle).knows [job st]
      s.operates ∧ s.inMode .standby = false ∧ s.jobAt 5 = some (job st) ∧ s.archDone 5 = true ∧ s.drained 5 = true) ∧
    (let j := { job .printing with streaming := true, arch := 1, archBytes := 65536 }
     let bj : BJob := { handle := 0x53, bars := 1, start := some 1 }
     let s := (((press .print).knows [j]).bound).onLtm fun l => { l with armed := true }
     s.operates ∧ s.inMode .standby = false ∧ s.jobAt 5 = some j ∧
       s.sys.jobs.find? (fun b => tagOf b.handle = 5) = some bj ∧ s.job? bj.handle = some j ∧ j.streaming = true ∧
       j.exhausted bj = true ∧ s.inMode .print = true ∧ s.ltm.armed = true ∧ s.sys.stops = []) ∧
    (let s := ((press .print).knows [job .bound]).onIng fun g => { g with ctx := g.ctx.map fun c => { c with active := true, fill := [1] } }
     s.operates ∧ s.jobAt 5 = some (job .bound) ∧ s.ing.ctx[(3 : Fin 6)].active = true ∧ s.ing.ctx[(3 : Fin 6)].fill ≠ [] ∧
       s.cvq[(59 : Fin 64)].fill = 0 ∧ s.ing.ctx[(5 : Fin 6)].active = true ∧ s.ing.ctx[(5 : Fin 6)].fill ≠ [] ∧ 4 ≤ (5 : Fin 6).val) := by
  and_intros <;> decide +kernel

theorem witness_BarsComposeTheirLines :
    (∀ n ∈ [0, 9],
      let bj : BJob := { handle := 0x53, bars := 1, start := some 1, done := Vector.replicate 8 n }
      let s := ((press .print).knows [job .printing]).onSys fun y => { y with jobs := [bj] }
      s.operates ∧ (s.inMode .ready || s.inMode .print) = true ∧ s.thm.gated = false ∧ s.regs.pending = [] ∧
        s.bars[(0 : Fin 8)].outQ = [] ∧ s.bars[(0 : Fin 8)].mid = none ∧ s.settleStarts.curJob 0 = some bj ∧
        s.job? bj.handle = some (job .printing) ∧ bj.start.map (fun st => pl (st + bj.done[(0 : Fin 8)])) = some (n + 1) ∧
        s.bars[(0 : Fin 8)].flight = [] ∧ s.settleStarts.sideFull 0 (n + 1) = false ∧ ((job .printing).usable 0).isSome = true ∧
        (∀ d ∈ (job .printing).objs, (job .printing).awaited d.bytes (s.cols 0) 0 n = none) ∧ s.donorsOf 0 = []) ∧
    (let j := { job .printing with streaming := true }
     let s := ((press .print).knows [j]).bound
     s.operates ∧ s.settleStarts.curJob 0 = some { handle := 0x53, bars := 1, start := some 1 } ∧ s.job? 0x53 = some j ∧
       s.settleStarts.sideFull 0 1 = false ∧ (∀ d ∈ j.objs, j.awaited d.bytes (s.cols 0) 0 0 = some 0xFFFF) ∧
       s.bars[(0 : Fin 8)].waitLine ≠ some 1) ∧
    (let j := { job .printing with objs := [] }
     let s := ((press .ready).knows [j]).bound
     s.operates ∧ s.settleStarts.curJob 0 = some { handle := 0x53, bars := 1, start := some 1 } ∧ s.job? 0x53 = some j ∧
       s.settleStarts.sideFull 0 1 = false ∧ j.usable 0 = none ∧ s.bars[(0 : Fin 8)].waitLine ≠ some 1) := by
  and_intros <;> decide +kernel

theorem witness_CorrectionsReachTheTable :
    (∀ n ∈ [1, 2],
      let s := (((press .print).knows [job .printing]).bound).onBar 0 fun x => { x with flight := [{ due := n }] }
      s.operates ∧ s.bars[(0 : Fin 8)].flight = { due := n } :: [] ∧ s.nextPrint 0 = some 1 ∧ lineBefore 1 n = decide (n = 2) ∧
        s.boundOn 0 = true) ∧
    (let s := (press .idle).onBar 7 fun x => { x with dirty := [63] }
     s.operates ∧ s.boundOn 7 = false ∧ s.bars[(7 : Fin 8)].dirty.contains 63 = true) := by
  and_intros <;> decide +kernel

theorem witness_WindowsHoldTheirBits :
    (press .idle).operates ∧
    (∀ p ∈ [(1, 0x400000), (2, 0x480000), (3, 0x4C0000), (4, 0x4E0000), (5, 0x53FFFC)],
      winOf p.2 = p.1 ∧ (press .idle).reaches 0 (winRole p.2) p.2 ∧ (press .idle).winShut (press .idle).tblBar p.2 = false ∧
        (press .idle).winHas (press .idle).tblBar p.2 = true) ∧
    (press .idle).boundOn (press .idle).tblBar.val = false ∧
    (let s := (press .print).bound
     s.operates ∧ s.boundOn s.tblBar.val = true ∧ s.reaches 0 (winRole 0x400000) 0x400000 ∧ s.winShut s.tblBar 0x400000 = false ∧
       s.winHas s.tblBar 0x400000 = true ∧
       ∀ p ∈ [(2, 0x480000), (3, 0x4C0000), (4, 0x4E0000)], winOf p.2 = p.1 ∧ s.reaches 0 (winRole p.2) p.2 ∧
         s.winShut s.tblBar p.2 = true) ∧
    winOf 0x43FFFC = 1 ∧ (press .idle).winHas (press .idle).tblBar 0x43FFFC = false := by and_intros <;> decide +kernel

theorem witness_AceVerdictsAct :
    let s := (press .print).knows [job .printing]
    let r := s.fields [(F.LYR_ACE_POLICY_STOP_RUN, 1)]
    let u := s.fields [(F.LYR_ACE_POLICY_UNCHK_FAIL, 1)]
    s.operates ∧ s.inMode .standby = false ∧ s.sys.unseen = false ∧ s.job? 0x53 ≠ none ∧ s.job? 0x54 = none ∧
      s.f F.LYR_ACE_POLICY_STOP_RUN ≠ s.bars[(0 : Fin 8)].aceRun + 1 ∧ s.fb F.LYR_ACE_POLICY_UNCHK_FAIL = false ∧
      r.operates ∧ r.job? 0x53 ≠ none ∧ r.f F.LYR_ACE_POLICY_STOP_RUN = r.bars[(0 : Fin 8)].aceRun + 1 ∧ r.inMode .print = true ∧
      r.sys.req = none ∧ r.sys.stopping = false ∧ u.operates ∧ u.job? 0x53 ≠ none ∧ u.fb F.LYR_ACE_POLICY_UNCHK_FAIL = true ∧
      u.f F.LYR_ACE_POLICY_STOP_RUN ≠ u.bars[(0 : Fin 8)].aceRun + 1 := by and_intros <;> decide +kernel

/-- A seat in IDLE whose encoder channel 0, last on quadrant q, is enabled and classes no channel permanent. -/
def webSeat (x : EncCh) : State :=
  ((seat .idle).fields [(F.ENC_CFG_EN 0, 1), (F.FLT_PERM_COUNT 4, 0xFFFF), (F.ENC_AMP_LIM_HI 0, 8191)]).onEnc fun e => { e with
    ch := vset e.ch 0 x }

theorem witness_EncoderSamplesMoveThePosition :
    (∀ p ∈ [((0 : Nat), true, true), (3, true, false), (1, false, true)],
      let x : EncCh := { seen := true, a := p.2.1, b := p.2.2, q := p.1 }
      let s := webSeat x
      let c := (s.encSet 0).correct (1000, 100)
      s.operates ∧ s.idleWarm = true ∧ s.fb (F.ENC_CFG_EN 0) = true ∧ s.f (F.FLT_PERM_COUNT 4) = 0xFFFF ∧ x.woken = false ∧
        x.ampFault = false ∧ (s.encSet 0).ampBad c = false ∧ idxLevel (0 - s.enc.adc[(0 : Fin 4)].2.2) x.idx = false ∧
        (c.lineA (s.encSet 0).hyst x.seen x.a = x.a ∨ c.lineB (s.encSet 0).hyst x.seen x.b = x.b) ∧ x.q < 4 ∧
        quadOf (c.lineA (s.encSet 0).hyst x.seen x.a) (c.lineB (s.encSet 0).hyst x.seen x.b) = 0 ∧
        s.enc.act = 0 ∧ s.enc.lost = false ∧ s.enc.onAlt = false) ∧
    ((webSeat { seen := true }).onEnc fun e => { e with act := 1 }).enc.act ≠ 0 ∧
    (let x : EncCh := { seen := true }
     let s := webSeat x
     let c := (s.encSet 0).correct (1000, 100)
     s.operates ∧ x.woken = false ∧ c.lineA (s.encSet 0).hyst true false ≠ x.a ∧ c.lineB (s.encSet 0).hyst true false ≠ x.b) := by
  and_intros <;> decide +kernel

theorem witness_EncoderCommandsAct :
    (let s := webSeat {}
     s.operates ∧ s.reaches 0 .installer (encCmdAddr 0) ∧ s.inMode .standby = false ∧ s.fb (F.ENC_CFG_EN 0) = true ∧
       s.fb (F.ENC_CFG_EN 3) = false ∧ s.reaches 0 .installer (encCmdAddr 3) ∧ s.enc.ch[(0 : Fin 4)].cal = .none ∧
       s.enc.act = 0 ∧ s.enc.onAlt = false ∧ s.enc.lost = false ∧ s.enc.ch[(0 : Fin 4)].marks = []) ∧
    (let s := (webSeat {}).onSys fun y => { y with mode := .standby }
     s.operates ∧ s.reaches 0 .installer (encCmdAddr 0) ∧ s.inMode .standby = true) ∧
    (∀ n ∈ [1023, 1024], (webSeat { cal := .collect { periods := n } }).enc.ch[(0 : Fin 4)].cal = .collect { periods := n } ∧
      (webSeat { cal := .collect { periods := n } }).operates) ∧
    (let s := webSeat { marks := [500] }
     s.operates ∧ s.enc.ch[(0 : Fin 4)].marks = 500 :: [] ∧ s.enc.tick * 250 < 500 + (s.encSet 0).tmo) := by
  and_intros <;> decide +kernel

/-- A printing seat with a speed of 10 steps in 250 ns, whose next sample is at position p. -/
def runs (p : Int) : State :=
  ((((((press .print).knows [{ job .printing with lines := some 100 }]).bound).fields
    [(F.LTM_FILL_STOP_LINES, 3), (F.LTM_FILL_MIN_LINES, 5), (F.LTM_GOV_ACC_VALUE, 1000), (F.MOT_WEB_TGT_MMS, 500), (F.MOT_WEB_VMAX_MMS, 600),
     (F.LTM_LAG_MAX_LAG, 10)]).onEnc fun e => { e with fly := [(5000, p, 0)] }).onLtm fun l => { l with
    armed := true, hist := [(4750, p - 10, 0), (4500, p - 20, 0), (4250, p - 30, 0), (4000, p - 40, 0)] })

/-- Of the sample that arrives next: does the grid run, at what speed, before the fire point, F of the line before, and is the fire
point still too far off to commit. -/
def near (s : State) : Option (Bool × Option Rat × Bool × Option Rat × Bool) :=
  s.takeSample.map fun x =>
    let f : Rat := x.2.1 + (x.1.firePoint - (x.2.2 : Rat)) / (40 / 1000)
    (x.1.runsGrid, speedOf x.1.ltm.hist, decide ((x.2.2 : Rat) < x.1.firePoint), x.1.ltm.fPrev,
      decide (max s.ltm.now (x.2.1 + 750) + 250 ≤ f - s.preNs))

theorem witness_GridLinesFollowTheWeb :
    (let s := (runs 10).onLtm fun l => { l with hist := [] }
     s.operates ∧ s.inMode .standby = false ∧ s.takeSample.map (fun x =>
       (x.1.runsGrid, speedOf x.1.ltm.hist, decide ((x.2.2 : Rat) < x.1.firePoint))) = some (true, none, true) ∧
       s.ltm.catchUp = false ∧ s.ltm.commit = none) ∧
    (runs (-100)).operates ∧ (runs 60).operates ∧ (runs 64).operates ∧ (runs 64).takeSample.map (fun x =>
      (x.1.runsGrid, decide (x.1.firePoint ≤ x.2.2), x.1.ltm.fPrev)) = some (true, true, none) ∧
    near (runs (-100)) = some (true, some (40 / 1000), true, none, true) ∧ near (runs 60) = some (true, some (40 / 1000), true, none, false) ∧
    (let s := (runs 64).onLtm fun l => { l with fPrev := some 5700 }
     s.takeSample.map (fun x => (x.1.runsGrid, (x.1.decide148 x.2.1 x.2.2 (x.1.freeNat : Nat)).map (fun d =>
       decide (s.f F.LTM_LAG_MAX_LAG < x.1.lagOf d)))) = some (true, some true)) ∧
    ((runs 64).onLtm fun l => { l with commit := some {} }).ltm.commit.isSome = true ∧
    (runs 64).inMode .print = true ∧ (runs 64).govFill = some (0, 0) ∧ 0 < (runs 64).f F.LTM_FILL_STOP_LINES ∧
      (runs 64).ltm.armed = true ∧ (runs 64).sys.stops = [] ∧ (seat .idle).inMode .print = false ∧
    (let s := (runs 64).onQ 0 fun x => { x with crest := List.replicate 3 (.lane {}) }
     s.operates ∧ s.govFill = some (3, 0) ∧ s.f F.LTM_FILL_STOP_LINES ≤ 3 ∧ 3 ≤ s.govMin ∧
       s.f F.LTM_GOV_VMIN_VALUE * 1000000 < s.ltm.gov.getD s.opSpeed) := by and_intros <;> decide +kernel

/-- A twin seat whose lanes are all as given, no lane upset counting as permanent. -/
def laned (m : Mode) (x : Lane) : State :=
  ((press m).onLnk fun l => { l with lanes := Vector.replicate 52 x }).fields
    [(F.TBL_CFG_TWIN, 1), (F.TBL_CFG_LANE_EN, 4095), (F.FLT_PERM_COUNT 1, 0xFFFF)]

/-- A module's pages that pass the checks of lane 0. -/
def modPages : ModPages := { heads := 1, maxRate := 100000, depth := 64, types := Vector.replicate 8 1 }

theorem witness_LanesComeUp :
    (∀ st ∈ [LaneSt.detect, .train, .bitlock, .symlock, .blocklock, .cap, .active, .retired], (laned .idle { st := st }).operates ∧
      ((laned .idle { st := st }).lane 0).st = st ∧ ((laned .idle { st := st }).lane 51).st = st ∧
      ((laned .idle { st := st }).lane 51).retryWait = false ∧ ((laned .idle { st := st }).lane 0).pages = false ∧
      ((laned .idle { st := st }).lane 0).relock = false) ∧
    (let s := laned .idle { st := .cap }
     barLane 0 = 0 ∧ (s.modStore 0 modPages).capCheck 0 = 0 ∧ (s.modStore 0 { modPages with version := 2 }).capCheck 0 = 1 ∧
       40 ≤ (51 : Fin 52).val ∧ s.seatCheck { seat := true } = 0 ∧ s.seatCheck { seat := false } ≠ 0) ∧
    (let s := laned .idle { st := .blocklock }
     LaneSt.blocklock.trains = true ∧ s.retired (laneBoard 0) = false ∧ s.laneUse 0 = true ∧ s.laneUse 51 = true) ∧
    (let s := (laned .idle { st := .active }).fields [(F.FLT_PERM_COUNT 2, 0xFFFF)]
     s.operates ∧ (s.lane 0).st = .active ∧ (s.lane 51).st = .active ∧ s.f (F.FLT_PERM_COUNT 1) = 0xFFFF ∧
       s.f (F.FLT_PERM_COUNT 2) = 0xFFFF) := by and_intros <;> decide +kernel

theorem witness_UpstreamBlocksAreRead :
    let x : Lane := { st := .active, version := 1, hdrs := List.replicate 7 false ++ List.replicate 57 true }
    let s := laned .print x
    s.operates ∧ (s.lane (barLane 0)).st = .active ∧ s.f (F.FLT_PERM_COUNT 1) = 0xFFFF ∧ RxHdr.idle ≠ .training ∧
      (((true :: x.hdrs).take 64).filter (fun b => !b)).length < 8 ∧ 8 ≤ (((false :: x.hdrs).take 64).filter (fun b => !b)).length ∧
      (x.hdrs.filter (fun b => !b)).length < 8 ∧ newer (0 : BitVec 32) s.tbl.ownDeal = false ∧ x.reports = none ∧
      ({} : StatusBlock).active = true ∧ ({} : ModReport).active = true ∧ ({} : ModReport).kind = 1 ∧
      (s.laneHeads 0).map (·.loc) = [0] ∧ (0x0123 : BitVec 16) ≠ 0x8000 ∧ (0x1000 : BitVec 16) ≠ 0xFFFF := by
  and_intros <;> decide +kernel

theorem witness_LaneTestsRun :
    (∀ n ∈ [(0 : Fin 40), 39], ∀ st ∈ [LaneSt.active, .test, .disabled],
      let s := laned .service { st := st, eyeBusy := true, raw := some ⟨3, false, 0⟩ }
      s.operates ∧ s.reaches 0 .installer (0x120068 + n.val * 0x400) ∧ s.reaches 0 .maker (0x120080 + n.val * 0x400) ∧
        s.inMode .service = true ∧ (s.lane (barLane n)).st = st ∧ (s.lane (barLane n)).eyeBusy = true ∧
        (s.lane (barLane n)).raw = some ⟨3, false, 0⟩ ∧ (s.lane (barLane n)).pend = {}) ∧
    (∀ m ∈ [(0 : Fin 52), 51], (laned .service {}).reaches 0 .installer (eyeAddr m) ∧ ((laned .service {}).lane m).eyeBusy = false ∧
      ((laned .service { st := .active, eyeBusy := true }).lane m).st = .active) ∧
    (0xA4 : Byte) ≠ 0xA5 ∧ (seat .idle).inMode .service = false := by and_intros <;> decide +kernel

/-- A seat whose G5-DDR channels are all as given. -/
def stored (m : Mode) (x : MemCh) : State := (press m).onMem fun y => { y with ch := Vector.replicate 8 x }

theorem witness_ChannelsAreServiced :
    (∀ n ∈ [3, 4], (stored .idle { st := .active, postponed := n }).operates ∧
      ((stored .idle { st := .active, postponed := n }).mem.ch[(7 : Fin 8)]).postponed = n) ∧
    (let s := (stored .idle { st := .active }).onMem fun m => { m with ch := vset m.ch 7 { st := .quiesced } }
     s.operates ∧ s.mem.ch[(7 : Fin 8)].st = .quiesced ∧ (∀ d : Fin 8, d < 7 → s.mem.ch[d].st ≠ .quiesced) ∧
       s.mem.ch[(7 : Fin 8)].loading = s.thm.band) ∧
    (∀ d : Fin 8, (stored .idle { st := .active }).mem.ch[d].st ≠ .quiesced) ∧
    (∀ n ∈ [47, 48],
      let s := (stored .idle { st := .active, q := List.replicate n ⟨false, 0, 128, 2, 0⟩ }).fields [(F.MEM_SCRUB_CFG_EN, 1)]
      s.operates ∧ s.background = true ∧ s.fb F.MEM_SCRUB_CFG_EN = true ∧
        (s.mem.ch[(7 : Fin 8)].q.filter (fun r => !r.write)).length = n) ∧
    ((stored .idle {}).operates ∧ (stored .idle { st := .selfRefresh }).mem.ch[(0 : Fin 8)].st = .selfRefresh) := by
  and_intros <;> decide +kernel

theorem witness_CorrectedErrorsAreCounted :
    (let s := (stored .print { st := .active }).fields [(F.FLT_PERM_COUNT 0, 0xFFFF)]
     s.operates ∧ s.mem.ch[(7 : Fin 8)].st = .active ∧ s.f (F.FLT_PERM_COUNT 0) = 0xFFFF ∧ (s.board 7).retired = false ∧
       s.mem.ch[(7 : Fin 8)].q = []) ∧
    (stored .idle {}).memWorks 0 = false ∧ readVerdict (({} : CorrErr).beats.take 16) = .clean ∧
    readVerdict (([0, 0xF0, 0] : List (BitVec 80)).take 16) = .fixed 1 0xF0 1 ∧
    (let s := stored .print { st := .active }
     s.operates ∧ s.f (F.FLT_PERM_COUNT 0) ≠ 0xFFFF ∧ s.f (F.FLT_PERM_COUNT 0) < (s.board 0).hit.count ∧ (s.board 0).perm = false ∧
       (s.board 0).retired = false ∧ s.otherInStep = false ∧ s.inMode .print = true) := by
  and_intros <;> decide +kernel

theorem witness_UncorrectableErrorsFreeze :
    (let s := stored .idle { st := .active }
     s.operates ∧ s.mem.ch[(7 : Fin 8)].st = .active ∧ s.inMode .idle = true ∧ s.tbl.holder = false) ∧
    (let s := ((stored .print { st := .quiesced }).onTbl fun t => { t with holder := true }).onLtm fun l => { l with armed := true }
     s.operates ∧ s.mem.ch[(0 : Fin 8)].st = .quiesced ∧ s.inMode .print = true ∧ s.tbl.holder = true ∧ s.ltm.armed = true ∧
       s.sys.stopping = false) ∧
    (stored .idle {}).memWorks 0 = false ∧ ({ parity := true } : UncorrErr).parity = true ∧
    readVerdict (([0x11] : List (BitVec 80)).take 16) = .bad 0x11 := by and_intros <;> decide +kernel

theorem witness_DiagnosisReadsAreRaw :
    (∀ m ∈ [Mode.idle, .frozen], ∀ st ∈ [MemSt.frozen, .off],
      let s := (stored m { st := st }).fields [(F.MEM_DIAG_ADDR_HI_RANK_CH, 7)]
      s.operates ∧ s.reaches 0 .maker 0x150028 ∧ s.f F.MEM_DIAG_ADDR_HI_RANK_CH = 7 ∧ s.mem.ch[(7 : Fin 8)].st = st) := by
  decide +kernel

theorem witness_RetirementsReachTheStore :
    (let s := (stored .idle { st := .active }).onFlt fun f => { f with boards := vmodN f.boards 7 fun b => { b with perm := true, pend := true } }
     s.operates ∧ s.idleWarm = true ∧ s.mem.fill = [] ∧ s.chRetiring = [7] ∧ s.snapStaged = false ∧ s.mem.ch[(7 : Fin 8)].st ≠ .quiesced ∧
       (s.onCfg fun c => { c with run := some { taken := true } }).snapStaged = true ∧
       (s.onMem fun m => { m with fill := [6], fillAt := 5 }).mem.fill ≠ [] ∧
       (s.onMem fun m => { m with fill := [6], fillAt := 5 }).mem.fillAt ≠ s.nowNs) ∧
    (stored .idle { st := .active }).chRetiring = [] ∧
    (let s := (stored .idle { st := .active }).onMem fun m => { m with fill := [7] }
     s.operates ∧ s.mem.fill ≠ [] ∧ s.chRetiring = []) := by and_intros <;> decide +kernel

/-- A seat with cameras 0 and 7 enabled on virtual channel 3 in a trigger mode, and the groups given. -/
def seeing (mode : Nat) (l : List Grp) : State :=
  ((press .idle).fields [(F.VIS_PORT_CFG_EN 0, 1), (F.VIS_PORT_CFG_EN 3, 1), (F.VIS_CAM_CFG_EN 0, 1), (F.VIS_CAM_CFG_EN 7, 1),
    (F.VIS_CAM_CFG_VC 0, 3), (F.VIS_CAM_CFG_VC 7, 3), (F.VIS_CAM_CFG_MODE 7, mode), (F.VIS_CAM_SIZE_WIDTH 7, 64), (F.VIS_CAM_SIZE_FLINES 7, 16),
    (F.FLT_PERM_COUNT 3, 0xFFFF)]).onVis fun v => { v with cam := vset v.cam 7 { grps := l } }

theorem witness_FramesFormGroups :
    (∀ mode ∈ [0, 1],
      let s := seeing mode []
      s.operates ∧ s.portRx 3 = true ∧ s.camFor 3 3 = some 7 ∧ s.regs.pending = [] ∧ s.f (F.FLT_PERM_COUNT 3) = 0xFFFF ∧
        s.vis.cam[(7 : Fin 8)].grps = [] ∧ camMode (s.camRegs 7) 7 = mode ∧
        (0x2B : Fin 64).val = 0x2B + (camBits (s.camRegs 7) 7 - 10) / 2) ∧
    (0x12 : Fin 64).val = 0x12 ∧ (0x2A : Fin 64).val ≠ 0x12 ∧ (0x2A : Fin 64).val < 0x2B ∧ 0x2D < (0x2E : Fin 64).val ∧
    (let g : Grp := { cfg := (seeing 1 []).camRegs 7 }
     (seeing 1 [g]).operates ∧ (seeing 1 [g]).vis.cam[(7 : Fin 8)].grps = [g] ∧ g.closed = false ∧ g.dropped = false ∧ g.starts = 0 ∧
       g.arriving = false) ∧
    (let m := (seeing 1 []).camRegs 7
     let g : Grp := { starts := 1, arriving := true, lines := [15], cfg := m }
     let s := seeing 1 [g]
     s.operates ∧ s.vis.cam[(7 : Fin 8)].grps = [g] ∧ g.closed = false ∧ g.dropped = false ∧
       camBits g.cfg 7 = camBits (s.camRegs 7) 7 ∧ (List.replicate 64 (0 : BitVec 14)).length = camWidth g.cfg 7 ∧
       g.lines.getLastD 0 < camLines g.cfg 7 ∧ g.fill + cdiv (camWidth g.cfg 7 * camBits g.cfg 7) 8 < 16384 ∧ g.rows = []) := by
  and_intros <;> decide +kernel

theorem witness_SensorsAndPipelines :
    (let s := (seeing 1 []).onVis fun v => { v with cam := vset v.cam 7 { pend := true }, sensQ := vset v.sensQ 3 [7] }
     s.operates ∧ s.visOn = true ∧ s.inMode .standby = false ∧ s.camArriving 7 = false ∧ s.vis.cam[(7 : Fin 8)].pend = true ∧
       s.vis.sensQ[portOf 7].head? = some 7 ∧ s.vis.sensQ[portOf 6].head? ≠ some 6 ∧ s.f (F.FLT_PERM_COUNT 3) = 0xFFFF) ∧
    (seeing 1 []).vis.cam[(7 : Fin 8)].pend = false ∧
    (let s := seeing 1 [{ starts := 1, closed := true, came := 3 }]
     s.pipeBusy 0 = false ∧ earliest (s.waiting 0) = some (3, 7, 0)) ∧
    (let g : Grp := { starts := 1, closed := true, busy := true }
     let s := seeing 1 [g]
     s.pipeBusy 0 = true ∧ s.waiting 1 = [] ∧ s.visOn = true ∧
       ((List.finRange 4).foldl State.visTake s).pipeGroup 0 = some (7, g)) := by and_intros <;> decide +kernel

/-- A statistics record of camera 7, and a seat in which it is the oldest of its port's queue. -/
def stat (h : BitVec 16) (last : Bool) : StatRec := { cam := 7, handle := h, last := last, flags := { late := true }, body := .mark [] }
def reads (m : Mode) (r : StatRec) : State := ((press m).onQ (statQ 3) fun x => { x with crest := [.stats r] }).fields [(F.CHL_BLIND_TMO_MS, 1)]

theorem witness_RecordsReachColourHold :
    (∀ r ∈ [stat 0 false, stat 0x53 false, stat 0 true],
      let s := reads .idle r
      s.operates ∧ s.chlOn = true ∧ s.vis.outQ = [] ∧ s.cvq[statQ 3].crest = .stats r :: [] ∧ s.cvq[statQ 3].dune = [] ∧
        s.cvq[statQ 3].tail = [] ∧ s.job? 0x53 = none ∧ s.chl.gather[(7 : Fin 8)] = [] ∧ groupUsed r.flags = false ∧
        s.acting = false ∧ s.inMode .standby = false) ∧
    (let s := (reads .print (stat 0 false)).fields [(F.VIS_CAM_CFG_EN 7, 1), (F.VIS_CAM_CFG_VC 7, 1)]
     s.operates ∧ s.chlOn = true ∧ s.cvq[statQ 3].crest = .stats (stat 0 false) :: [] ∧ s.f F.CHL_BLIND_TMO_MS ≠ 0 ∧
       s.inMode .print = true ∧ s.camOn 7 = true) := by and_intros <;> decide +kernel

theorem witness_CalibrationFollowsTemperature :
    (let s := ((press .idle).fields [(F.CHL_CAL_DT_DT, 4)]).onThm fun t => { t with raws := [65] }
     s.operates ∧ s.chlOn = true ∧ s.f F.CHL_CAL_DT_DT ≠ 0 ∧ s.calUnit 0 0 = true ∧
       16 * s.f F.CHL_CAL_DT_DT < (s.thm.temp - s.tLast (0, 0)).natAbs) ∧
    (press .idle).f F.CHL_CAL_DT_DT = 0 ∧ (press .idle).reaches 0 .installer 0x170A04 ∧
    (let s := (press .idle).onChl fun c => { c with due := [(0, 0)] }
     s.operates ∧ s.chlOn = true ∧ s.sys.coldPend = false ∧ s.chl.running = [] ∧ s.chl.due = (0, 0) :: [] ∧ s.calUnit 0 0 = true ∧
       s.calMay (0, 0) = true) ∧
    (let s := (press .idle).onChl fun c => { c with running := [(0, 51), (2, 0)] }
     2 ≤ s.chl.running.length) ∧
    (let s := (press .idle).onChl fun c => { c with running := [(0, 51)] }
     s.operates ∧ s.chl.running = [(0, (51 : Fin 52).val)] ∧ ∀ u ∈ s.chl.running, u.1 ≠ (1 : Fin 4).val) := by
  and_intros <;> decide +kernel

/-- A seat in SERVICE whose axes are all as given, in a mode. -/
def moved (mode : Nat) (x : Axis) : State :=
  ((seat .service).fields ((List.range 16).map fun a => (F.MOT_CFG_MODE a, mode))).onMot fun m => { m with ax := Vector.replicate 16 x }

theorem witness_AxesTakeCommands :
    (∀ a ∈ [(0 : Fin 16), 15], ∀ mode ∈ [0, 1, 3],
      let s := moved mode {}
      s.operates ∧ s.reaches 0 .installer (motCmdAddr a) ∧ s.reaches 0 .operator (motCmdAddr a) ∧
        s.reaches 0 .installer (0x180018 + a.val * 0x200) ∧ s.mot.ax[a].still = true ∧ s.mot.ax[a].seq = none ∧ s.axisMode a = mode ∧
        s.segCheck a (s.f (F.MOT_SEG_FIRST a.val)) (s.f (F.MOT_SEG_COUNT a.val)) = false) ∧
    (let s := (moved 3 {}).onMot fun m => { m with seg := Vector.replicate 16 [(0, 0x01000001)] }
     s.operates ∧ s.axisMode 0 = 3 ∧ s.segCheck 0 (s.f (F.MOT_SEG_FIRST 0)) (s.f (F.MOT_SEG_COUNT 0)) = true) ∧
    ((moved 1 { run := .move }).mot.ax[(15 : Fin 16)].still = false ∧ (moved 1 { seq := some 4 }).mot.ax[(15 : Fin 16)].seq ≠ none) ∧
    (let s := (moved 1 {}).fields [(F.MOT_CUR_DLY_PARK_DLY 11, 1)]
     s.operates ∧ s.f (F.MOT_CUR_DLY_PARK_DLY 11) ≠ 0 ∧ s.mot.ax[(11 : Fin 16)].vel = 0 ∧ s.f (F.MOT_CUR_DLY_PARK_DLY 0) = 0) := by
  and_intros <;> decide +kernel

theorem witness_GeneratorMovesTheAxes :
    (∀ p ∈ [((3 : Int), (7 : Int)), (7, 3), (2 ^ 47 * posUnit - 1, -(2 ^ 47) * posUnit)],
      let s := (press .print).onMot fun m => { m with ax := Vector.replicate 16 { run := .move, pos := p.1, target := p.2 } }
      s.operates ∧ s.inMode .standby = false ∧ s.inMode .boot = false ∧ s.sys.cold = false ∧
       (∀ i : Fin 5, s.mot.seqs[i].running = false) ∧ s.mot.stop = none ∧ s.inMode .print = true ∧ s.ltm.gov = none ∧
       s.ltm.clamp = false ∧ s.mot.ax[(0 : Fin 16)].run = .move ∧ -(2 ^ 47) * posUnit ≤ p.1 ∧ p.1 < 2 ^ 47 * posUnit ∧
       -(2 ^ 47) * posUnit ≤ p.2 ∧ p.2 < 2 ^ 47 * posUnit) ∧
    (moved 0 {}).mot.ax[(15 : Fin 16)].run = .none ∧ (moved 0 {}).axisMode 15 = 0 ∧ (moved 0 {}).operates ∧
    ((press .print).onMot fun m => { m with stop := some .emergency }).mot.stop = some .emergency ∧ (seat .boot).inMode .boot = true ∧
    cold.sys.cold = true ∧ (seat .print).mot.w = 0 ∧ (seat .print).sys.seqStep = .none ∧
    (let s := ((seat .print).onSys fun y => { y with seqStep := .waitCap, flow := .stop }).onMot fun m => { m with liftDone := true }
     s.operates ∧ s.mot.w = 0 ∧ s.sys.seqStep = .waitCap ∧ s.sys.flow = .stop ∧ s.mot.liftDone = true) ∧
    ((seat .print).onMot fun m => { m with w := 1 }).mot.w ≠ 0 := by and_intros <;> decide +kernel

/-- A holder in SERVICE whose axes hold the phases given, driven at full current. -/
def chopped (p : Phase) : State :=
  ((moved 1 { pa := p, pb := p, cur := 255, pos := 128 * posUnit }).fields [(F.FLT_PERM_COUNT 6, 0xFFFF)]).onTbl fun t => { t with holder := true }

theorem witness_ChoppersWatchTheirPhases :
    (∀ p ∈ [{ on := true, shortRun := 6, openRun := 62 }, { on := true, shortRun := 7, openRun := 63 }, ({ off := true } : Phase)],
      let s := chopped p
      s.operates ∧ s.f (F.FLT_PERM_COUNT 6) = 0xFFFF ∧ s.mot.ax[(11 : Fin 16)].phase true = p ∧ s.gatesOn 11 = true) ∧
    decide (16 ≤ (chopped {}).threshold 11 true) = true ∧ (chopped {}).gatesOn 0 = true ∧ (chopped {}).threshold 0 true ≠ 0 ∧
    ({} : Phase).on = false ∧ ({} : Phase).off = false ∧ (seat .idle).gatesOn 11 = false ∧
    (let s := (chopped { off := true }).onMot fun m => { m with ax := Vector.replicate 16 { pa := { off := true }, pb := { off := true } } }
     s.operates ∧ s.gatesOn 11 = true ∧ s.threshold 11 true = 0) := by and_intros <;> decide +kernel

theorem witness_SequencesHoldTheirInterlocks :
    (let s := (seat .service).fields [(F.MOT_SEQ_CFG_AXES 0, 0x801), (F.MOT_SEQ_SEG_COUNT 0 0, 1), (F.MOT_SEQ_SEG_COUNT 11 0, 1)]
     s.operates ∧ s.reaches 0 .installer 0x182060 ∧ s.inMode .service = true ∧ s.mot.seqs[(0 : Fin 5)].running = false ∧
       s.seqInterlock 0 = true ∧ s.seqAxes 0 = [0, 11] ∧ s.seqInterlock 4 = false ∧ s.inMode .standby = false ∧ s.sys.seqStep = .none) ∧
    (let s := ((seat .halt).onMot fun m => { m with seqs := vset m.seqs 4 { running := true } }).fields [(F.MOT_SEQ_CFG_TMO 4, 1)]
     s.operates ∧ s.sys.seqStep = .none ∧ s.mot.seqs[(4 : Fin 5)].running = true ∧ s.mot.seqs[(4 : Fin 5)].axes = [] ∧
       s.mot.seqs[(4 : Fin 5)].starts = [] ∧ s.f (F.MOT_SEQ_CFG_TMO 4) ≠ 0 ∧ s.inMode .service = false ∧ s.inMode .standby = false) := by
  and_intros <;> decide +kernel

theorem witness_LampFramesLatch :
    (let s := (seat .idle).fields [(F.LMP_CHAIN_CFG_EN 3, 1), (F.FLT_PERM_COUNT 5, 0xFFFF)]
     s.operates ∧ s.inMode .standby = false ∧ s.f (F.FLT_PERM_COUNT 5) = 0xFFFF ∧ s.chainRuns 3 = true ∧ s.chainChans 3 = 16 ∧
       markersOk 16 (List.replicate 16 0x600000) = true ∧ markersOk 16 (List.replicate 15 0x600000) = false ∧ s.inMode .idle = true ∧
       s.chainRuns 0 = false) := by and_intros <;> decide +kernel

/-- A twin seat whose Table lanes form the group. -/
def twin (m : Mode) (f : Tbl → Tbl) : State :=
  ((((press m).onTbl f).onLnk fun l => { l with lanes := Vector.ofFn fun (n : Fin 52) => if n.val < 40 then l.lanes[n] else { st := .active, inGroup := true } }).fields
    [(F.TBL_CFG_TWIN, 1), (F.TBL_CFG_LANE_EN, 4095), (F.TBL_QUAL_S, 1), (F.FLT_PERM_COUNT 2, 0xFFFF)])

theorem witness_TrumpChangesHands_revert_at_job :
    let s := ((((twin .standby fun t => { t with inStep := true }).knows [job .printing]).bound.onSys fun y => { y with
      shadow := .print }).fields [(F.TBL_CFG_REVERT_AT_JOB, 1)]).onLtm fun l => { l with g := 5 }
    s.operates ∧ s.firstSeat = true ∧ s.inMode .standby = true ∧ s.tbl.inStep = true ∧ s.f F.TBL_QUAL_S ≠ 0 ∧
      s.fb F.TBL_CFG_REVERT_AT_JOB = true ∧ s.sys.shadow = .print ∧ s.allBlank = false := by and_intros <;> decide +kernel

theorem witness_TrumpChangesHands :
    (let s := twin .print fun t => { t with holder := true, inStep := true, take := 4 }
     s.operates ∧ s.tbl.holder = true ∧ s.tbl.stopped = false ∧ s.reaches 0 .installer 0x1A0020 ∧ s.otherInStep = true ∧
       s.sys.stopping = false ∧ s.ltm.armed = false ∧ (s.onLtm fun l => { l with armed := true }).ltm.armed = true ∧
       (s.tbl.take = 2 ∨ s.tbl.take = 4)) ∧
    (let s := twin .print fun t => { t with holder := true }
     s.operates ∧ s.reaches 0 .installer 0x1A0020 ∧ s.otherInStep = false ∧ (0xA4 : Byte) ≠ 0xA5) ∧
    (let s := (twin .standby fun t => { t with inStep := true, revertSent := true }).onSys fun y => { y with shadow := .print }
     s.operates ∧ s.tbl.holder = false ∧ s.pad.latched = false ∧ s.inMode .standby = true ∧ s.tbl.inStep = true ∧
       s.sys.shadow = .print ∧ s.tbl.revertSent = true ∧ s.firstSeat = true ∧ s.f F.TBL_QUAL_S ≠ 0 ∧
       s.fb F.TBL_CFG_REVERT_AT_JOB = false) ∧
    (let s := twin .idle id
     s.operates ∧ s.tbl.holder = false ∧ s.pad.latched = false ∧ s.inMode .idle = true ∧ s.webStill = false ∧
       (s.onEnc fun e => { e with ch := vset e.ch 0 { still := true } }).webStill = true ∧ s.fb F.TBL_CFG_TWIN = true ∧
       s.idleWarm = true ∧ s.lanesSettled = true ∧ s.tbl.renewed = false ∧ s.inMode .standby = false) := by
  and_intros <;> decide +kernel

theorem witness_TrumpChangesHands_solo_and_seats :
    (let s := press .halt
     s.operates ∧ s.fb F.TBL_CFG_TWIN = false ∧ s.inMode .halt = true ∧ s.lanesSettled = true) ∧
    (twin .idle fun t => { t with renewed := true }).tbl.renewed = true ∧
    ((seat .idle).onPad fun p => { p with seatId := true }).firstSeat = false ∧
    ((seat .idle).onPad fun p => { p with latched := true }).pad.latched = true ∧
    ((seat .idle).onPad fun p => { p with held := true }).pad.held = true ∧ (seat .idle).pad.held = false := by
  and_intros <;> decide +kernel

theorem witness_StreamKeepsTheStandby :
    (let s := twin .standby fun t => { t with inStep := true }
     s.operates ∧ s.inMode .standby = true ∧ s.tbl.later = [] ∧ s.tbl.evts = [] ∧ s.tbl.rxSeq = 0 ∧
       lineBefore s.ltm.g.toNat 0 = false ∧ lineBefore s.ltm.g.toNat 1 = true ∧ newer 1 s.tbl.rxSeq = true ∧
       s.f (F.FLT_PERM_COUNT 2) = 0xFFFF ∧ (0xFFFFFFFF : BitVec 32) ≠ s.tbl.rxSeq ∧ newer 0xFFFFFFFF s.tbl.rxSeq = false ∧
       s.groupUp = true) ∧
    (let s := twin .print fun t => { t with holder := true, inStep := true, yieldFor := some 2 }
     s.operates ∧ s.inMode .standby = false ∧ s.tbl.holder = true ∧ s.tbl.inStep = true ∧ s.tbl.yieldFor = some 2) ∧
    (∀ b ∈ [true, false],
      let s := (twin .print fun t => { t with holder := true }).onLtm fun l => { l with armed := b }
      s.operates ∧ s.tbl.holder = true ∧ s.tbl.inStep = false ∧ s.groupUp = true ∧ s.ltm.armed = b) ∧
    (let s := twin .idle fun t => { t with joining := true }
     s.operates ∧ s.tbl.joining = true ∧ s.tbl.holder = false ∧ s.idleWarm = true ∧ s.groupUp = true ∧ ({} : Checkpoint).cold = false) ∧
    (let s := (twin .idle fun t => { t with renewed := true }).fields [(F.TBL_CFG_AUTO_JOIN, 1)]
     s.operates ∧ s.fb F.TBL_CFG_AUTO_JOIN = true ∧ s.joinOk = true ∧ s.inMode .idle = true ∧ s.tbl.joining = false ∧ s.tbl.left = 0 ∧
       s.tbl.idleS = none ∧ s.sys.req = none ∧ s.sys.stopping = false) ∧
    (twin .idle id).fb F.TBL_CFG_AUTO_JOIN = false := by and_intros <;> decide +kernel

/-- A twin seat keeping a lane digest of its own. -/
def digested (m : Mode) (b : Bool) : State :=
  twin m fun t => { t with inStep := b, digs := [{ line := 3, val := some 5, sent := true }] }

/-- A standby in step at grid line g. -/
def follows (g : BitVec 48) : State :=
  (twin .standby fun t => { t with inStep := true, rxSeq := 1 }).onLtm fun l => { l with g := g }

theorem witness_StandbyFollowsTheGrid :
    (follows 0).operates ∧ (follows 0).inMode .standby = true ∧ (follows 0).tbl.later = [] ∧ (follows 0).tbl.evts = [] ∧
      newer 2 (follows 0).tbl.rxSeq = true ∧ newer 1 (follows 0).tbl.rxSeq = false := by and_intros <;> decide +kernel

theorem witness_StandbyFollowsTheGrid_next_line :
    (0 + 1 : BitVec 48).toNat = pl ((follows 0).ltm.g.toNat + 1) ∧ lineBefore (pl ((follows 0).ltm.g.toNat + 1)) 2 = true ∧
      lineBefore 0 (pl ((follows 0).ltm.g.toNat + 1)) = true := by and_intros <;> decide +kernel

theorem witness_StandbyFollowsTheGrid_index_wraps :
    (follows 0xFFFFFFFFFFFF).operates ∧ (0xFFFFFFFFFFFF + 1 : BitVec 48).toNat = pl ((follows 0xFFFFFFFFFFFF).ltm.g.toNat + 1) ∧
      lineBefore (pl ((follows 0xFFFFFFFFFFFF).ltm.g.toNat + 1)) (0xFFFFFFFFFFFF + 2 : BitVec 48).toNat = true ∧
      lineBefore 0xFFFFFFFFFFFF (pl ((follows 0xFFFFFFFFFFFF).ltm.g.toNat + 1)) = true := by and_intros <;> decide +kernel

theorem witness_StandbyFollowsTheGrid_fill :
    (twin .print fun t => { t with holder := true }).tbl.holder = true ∧
    (let s := ((twin .standby fun t => { t with inStep := true }).knows [job .printing]).bound
     s.operates ∧ s.inMode .standby = true ∧ s.groupUp = true ∧ s.lowFill = some (0, 0)) ∧
    (seat .standby).groupUp = false := by and_intros <;> decide +kernel

theorem witness_StandbyFollowsTheGrid_print_digests : ∀ b ∈ [true, false], let s := digested .print b
    s.operates ∧ s.laneHasHeads 0 = true ∧ s.tbl.joining = false ∧
      s.tbl.digs = [{ lane := 0, line := 3, own := true, val := some 5, sent := true }] ∧ s.tbl.inStep = b ∧ s.groupUp = true := by
  decide +kernel

theorem witness_StandbyFollowsTheGrid_standby_digests : ∀ b ∈ [true, false], let s := digested .standby b
    s.operates ∧ s.laneHasHeads 0 = true ∧ s.tbl.joining = false ∧
      s.tbl.digs = [{ lane := 0, line := 3, own := true, val := some 5, sent := true }] ∧ s.tbl.inStep = b ∧ s.groupUp = true := by
  decide +kernel

theorem witness_MonitorsWatchTheSeat :
    (let s := (seat .print).onThm fun t => { t with raws := [1359], band := 1 }
     s.operates ∧ s.thm.sensorBad = false ∧ -1024 ≤ 3200 - s.cfg.cal.diodeOfs ∧ 3200 - s.cfg.cal.diodeOfs ≤ 3200 ∧
       -1024 ≤ -1024 - s.cfg.cal.diodeOfs ∧ s.thm.raws ≠ [] ∧ s.inMode .print = true ∧ s.thm.stop ≠ 2) ∧
    (let s := (((seat .print).onThm fun t => { t with raws := [600], hist := 600 :: List.replicate 39 400 }).onLtm fun l => { l with
        armed := true }).fields [(F.THM_STOP_TIME_T10MS, 1)]
     let rho := rhoOf ((s.thm.temp :: s.thm.hist).take 41)
     s.operates ∧ s.inMode .print = true ∧ s.ltm.armed = true ∧ s.sys.stops = [] ∧ s.thm.due = false ∧ s.thm.stop = 0 ∧
       s.riseStop ≤ rho ∧ s.thm.temp * 400 + rho * s.stopTime < 992000) ∧
    (let s := (seat .idle).onThm fun t => { t with step := 1 }
     s.operates ∧ s.thm.sum < s.thm.step) ∧
    (seat .idle).thm.step ≤ (seat .idle).thm.sum ∧ (seat .idle).sys.cold = false ∧ cold.sys.cold = true ∧ cold.operates ∧
    (let s := (seat .idle).fields [(F.FLT_TEL_CFG_IVL, 1), (F.FLT_TEL_CFG_MASK, 0x80)]
     s.operates ∧ s.f F.FLT_TEL_CFG_IVL ≠ 0 ∧ s.f F.FLT_TEL_CFG_MASK = 0x80 ∧ s.inMode .boot = false ∧ s.inMode .frozen = false ∧
       s.cvq[(63 : Fin 64)].all = [] ∧ s.cvq[(63 : Fin 64)].lost = 0) := by and_intros <;> decide +kernel

/-- A seat that follows master 9, with a step limit of 3 µs. -/
def timed (st : Nat) : State :=
  ((seat .idle).fields [(F.TIM_CFG_EN, 1), (F.TIM_STEP_MAX_VALUE, 3)]).onTim fun t => { t with
    st := st, sec := 1, masters := [(9, 5)], master := some 9, sync := some (6000, 0), reqSent := some 0 }

theorem witness_TimeFollowsItsMaster :
    (let s := (seat .idle).fields [(F.TIM_CFG_EN, 1)]
     s.operates ∧ s.ptpOn 0 = true ∧ s.tim.masters = [] ∧ s.tim.master = none) ∧
    (∀ st ∈ [0, 1, 2],
      let s := timed st
      s.operates ∧ s.ptpOn 0 = true ∧ s.tim.masters = [(9, 5)] ∧ s.tim.master = some 9 ∧ 9 ≠ (8 : BitVec 64).toNat ∧
        s.selected 9 = true ∧ s.selected 8 = false ∧ s.tim.sync = some (6000, 0) ∧ s.tim.reqSent = some 0 ∧ s.tim.st = st ∧
        s.tim.accept = false ∧ s.fb F.TIM_CFG_EN = true ∧ s.reaches 0 .operator 0x1D000C ∧ s.may 0 .installer = true) ∧
    (let lim := (timed 1).f F.TIM_STEP_MAX_VALUE * 1000
     (Int.tdiv ((6000 - 0) + (0 - 0)) 2).natAbs ≤ lim ∧ lim ≠ 0 ∧ lim < (Int.tdiv ((6000 - 0) + (2 - 0)) 2).natAbs ∧
       0 ≤ ((timed 0).tim.total : Int) + 3000 ∧ ((timed 0).tim.total : Int) + 3000 < 2 ^ 48 * 1000000000) ∧
    (seat .idle).ptpOn 0 = false ∧
    (let s := (timed 1).onTim fun t => { t with masters := [(9, 5), (8, 6)] }
     s.operates ∧ s.tim.masters.drop 1 = (8, 6) :: [] ∧ (timed 1).tim.masters.drop 1 = []) ∧
    (∀ b ∈ [true, false],
      let s := cold.onTim fun t => { t with gens := Vector.replicate 4 { due := some 7, again := b } }
      s.operates ∧ s.tim.gens[(3 : Fin 4)].due = some 7 ∧ s.tim.gens[(3 : Fin 4)].again = b ∧ s.inMode .idle = true ∧ s.sys.cold = true) ∧
    (seat .idle).tim.gens[(0 : Fin 4)].due = none := by and_intros <;> decide +kernel

/-- A holder with a RUN_REQ, a GP_IN and a STOP_REQ pin. -/
def pinned (m : Mode) (f : Tbl → Tbl) : State :=
  ((seat m).onTbl fun t => f { t with holder := true }).fields [(F.PAD_GPIO_CFG_FUNC 0, 3), (F.PAD_GPIO_CFG_FUNC 5, 1), (F.PAD_GPIO_CFG_FUNC 31, 4)]

theorem witness_PinsReachTheSeat :
    (let s := pinned .print fun t => { t with inStep := true, replayBytes := replayCap - 28 }
     s.operates ∧ s.pad.estop = true ∧ s.inMode .print = true ∧ s.mot.stop = none ∧ s.pinActs 31 4 = true ∧ s.tbl.holder = true ∧
       s.sys.req = none ∧ s.sys.stopping = false ∧ s.pinActs 5 3 = false ∧ s.pinActs 5 4 = false ∧ s.pinFunc 31 ≠ 1 ∧ s.pinFunc 5 = 1 ∧
       s.inMode .standby = false ∧ s.tbl.inStep = true ∧ s.tbl.replayBytes + 28 ≤ replayCap ∧ s.sys.seqStep = .none) ∧
    (let s := pinned .ready id
     s.operates ∧ s.pinActs 0 3 = true ∧ s.inMode .ready = true ∧ s.sys.flow = .none ∧ s.sys.req = none ∧ s.sys.stopping = false) ∧
    (∀ m ∈ [Mode.boot, .standby, .frozen], (pinned m id).operates ∧ (pinned m id).pad.estop = true ∧ (pinned m id).inMode m = true ∧
      (pinned m id).pinFunc 5 = 1) ∧
    ((seat .idle).onPad fun p => { p with estop := false }).pad.estop = false := by and_intros <;> decide +kernel

/-! ### Ill-formed commands (well-formedness refuses each) -/

theorem test_entry_of_another_class : (Instr.queueEntryWrite 47 (.lane {})).wf = false ∧ (Instr.queueEntryWrite 59 (.evt {})).wf = false := by
  decide

theorem test_open_payload_length : (Instr.open_ 0 { len := 2 } [0, 0, 0]).wf = false := by decide

theorem test_data_object_number : (Instr.data 0 { obj := 65536 } []).wf = false := by decide

theorem test_close_payload_limit : (Instr.close 0 { len := 4294967296 } []).wf = false := by decide

/-! ### The manual's worked examples

Expected values are those the manual prints. -/

/-- Section 00: nozzle 3.17.40.63 is on bar 3, slice 2 of it: lane 17; its position is that of R129's example. -/
theorem test_nozzle_lane : 3 * 5 + laneSlice 17 = 17 := by decide

theorem test_nozzle_position : Head.position { rows := 4, grouped := true, n := 2688 } 2623 = 2671 := by decide

/-- R80–R82: the 38-byte stream of section 05. -/
def streamRaw : List Byte := [0x41, 0x42, 0x43, 0x41, 0x42, 0x43, 0x41, 0x42, 0x43, 0x44] ++ List.replicate 20 0xFF

theorem test_stream_coded_block :
    decodeBlock [0xD5, 0x01, 0x00, 0xC0, 0x1D, 0x00, 0x09, 0x00, 0x02, 0x41, 0x42, 0x43, 0x58, 0x02, 0x00, 0x44, 0xD0, 0xFF, 0xD5, 0x03] []
      = .raw streamRaw.reverse [0xD5, 0x03] false := by decide +kernel

theorem test_stream_end_block :
    decodeBlock ([0xD5, 0x03, 0x00, 0xD6, 0x0B, 0x00, 0x0B, 0x00, 0x1E] ++ List.replicate 7 0 ++ leBytes 4 (crc32c streamRaw)) streamRaw.reverse
      = .fin 30 (crc32c streamRaw) [] := by decide +kernel

/-- R81: b[5:0] = 63 followed by 255 and 10 is a long match of 331 bytes. -/
theorem test_long_match_length : runLen 63 3 [255, 10, 7] = some (331, [7]) := by decide

/-- R104, R113, R115, R118, R123, R127: the worked example of chapters 06 and 07. -/
theorem test_blend_over : blend 0 800 3000 204 = 2560 := by decide

theorem test_tone_curve : toneMap (fun i => if i = 468 then 1800 else 1804) 0 30000 = 1803 := by decide

theorem test_tone_offset : toneOfs (fun i => if i = 7 then 12 else 20) 1803 = 1815 := by decide

theorem test_correction : correct (eWord 0x2100 (-6)) 1815 = 1866 := by decide

theorem test_seam : seamRand 46143 1000 = 3464 ∧ seamHi 64 32 63 46143 1000 = false := by decide

theorem test_screen_levels : level3 410 1720 2950 1866 = 2 ∧ level1 1400 1866 = 2 := by decide

/-- R156: the width example of section 09. -/
theorem test_width :
    widthOf { id := 0, noz := 0, pitch := 0, rows := 1, grouped := false, rowOfs := [], fmax := 0, tref := 640, vref := 32000, kt := -4194, kv := 31457, wmin := 0, wmax := 4095 }
      520 704 31800 = (515, false) := by decide

/-- R173: three widths in five bytes, and a delay in three. -/
theorem test_width_block : ((widthBlock 0 [(0, 356, 515, 673)] 0).body.drop 3).take 5 = [0x64, 0x31, 0x20, 0xA1, 0x02] := by decide +kernel

theorem test_fire_block : ((fireBlock [2143] 0 0 0).body.drop 1).take 3 = [0x5F, 0x08, 0x00] := by decide +kernel

/-- R165: the check value of the CRC-8. -/
theorem test_crc8 : crc8 [0x31, 0x32, 0x33, 0x34, 0x35, 0x36, 0x37, 0x38, 0x39] = 0xF4 := by decide +kernel

/-- R195, R196: the address example of section 11. -/
theorem test_memory_map :
    ((State.reset.onMem fun m => { m with ch := Vector.replicate 8 { st := .active } }).memMap 0x212345680) = some (5, 0x42468680) := by
  decide +kernel

theorem test_memory_decode :
    (dramDecode 1 1 0 0x42468680).col = 33 ∧ (dramDecode 1 1 0 0x42468680).bg = 3 ∧ (dramDecode 1 1 0 0x42468680).bank = 1 ∧
      (dramDecode 1 1 0 0x42468680).row = 4241 := by decide

/-- R195: with channel 2 retired the same address is channel 3's. -/
theorem test_memory_map_after_retirement :
    ((State.reset.onMem fun m => { m with ch := vset (Vector.replicate 8 { st := .active }) 2 { st := .retired } }).memMap 0x212345680)
      = some (3, 310245 * 4096 + 0x680) := by decide +kernel

/-- R257: the thresholds of the worked microstep. -/
theorem test_microstep : dacOf 153 16 = 59 ∧ dacOf 153 80 = 141 := by decide +kernel

/-- R351: LTM_HEAD_FINE[137] and LNK_EYE_W[17], by address, as section 21 works them out. -/
theorem test_register_addresses :
    (regAt 0x110C24).map (·.2) = some [137] ∧ (F.LTM_HEAD_FINE_FINE 137).addr = 0x110C24 ∧
    (regAt 0x124494).map (·.2) = some [17] := by decide +kernel

end Sys2Proof.Tests
end

section
/-! The frame of every command, and obligation O2: no step leaves a retirement to carry out. -/
namespace Sys2Proof.Machine

/-! ### The frame of every command -/

/-- Every command leaves the queue alone, keeps the register maps canonical and changes no part but those it names.  Each
case cites the law of the command's own meaning, whose mask the list of parts covers. -/
theorem exec_keeps {c : Instr} {s t : State} (h : exec c s = .next t) : Keeps (partMask (touched c)) s t := by
  cases c with dsimp only [touched]
  | registerWrite _ _ _ => exact execRegisterWrite_keeps _ _ _ (by rfl) (Keeps.refl _ _) t h
  | readClear _ _ => exact execReadClear_keeps _ _ (by rfl) (Keeps.refl _ _) t h
  | loReadLatch _ _ => exact execLoReadLatch_keeps _ _ (by rfl) (Keeps.refl _ _) t h
  | powerOn => exact execPowerOn_keeps (by rfl) (Keeps.refl _ _) t h
  | powerLoss => exact execPowerLoss_keeps (by rfl) (Keeps.refl _ _) t h
  | supplyDip => exact execSupplyDip_keeps (by rfl) (Keeps.refl _ _) t h
  | resetNLow _ => exact execResetNLow_keeps _ (by rfl) (Keeps.refl _ _) t h
  | resetNRise _ _ => exact execResetNRise_keeps _ _ (by rfl) (Keeps.refl _ _) t h
  | bootDone _ => exact execBootDone_keeps _ (by rfl) (Keeps.refl _ _) t h
  | postResetCompletions _ => exact execPostResetCompletions_keeps _ (by rfl) (Keeps.refl _ _) t h
  | reqIdleWarm _ => exact execReqIdleWarm_keeps _ (by rfl) (Keeps.refl _ _) t h
  | reqIdleCold _ => exact execReqIdleCold_keeps _ (by rfl) (Keeps.refl _ _) t h
  | reqBindJob _ _ => exact execReqBindJob_keeps _ _ (by rfl) (Keeps.refl _ _) t h
  | reqRun _ => exact execReqRun_keeps _ (by rfl) (Keeps.refl _ _) t h
  | reqEnterService _ _ => exact execReqEnterService_keeps _ _ (by rfl) (Keeps.refl _ _) t h
  | reqStop _ => exact execReqStop_keeps _ (by rfl) (Keeps.refl _ _) t h
  | reqClearHalt _ => exact execReqClearHalt_keeps _ (by rfl) (Keeps.refl _ _) t h
  | reqJoinStandby _ => exact execReqJoinStandby_keeps _ (by rfl) (Keeps.refl _ _) t h
  | reqLeaveService _ => exact execReqLeaveService_keeps _ (by rfl) (Keeps.refl _ _) t h
  | requestTimeout => exact execRequestTimeout_keeps (by rfl) (Keeps.refl _ _) t h
  | pendingRequestApply => exact execPendingRequestApply_keeps (by rfl) (Keeps.refl _ _) t h
  | idleTimerExpiry => exact execIdleTimerExpiry_keeps (by rfl) (Keeps.refl _ _) t h
  | idleColdEntry => exact execIdleColdEntry_keeps (by rfl) (Keeps.refl _ _) t h
  | coldWakeComplete => exact execColdWakeComplete_keeps (by rfl) (Keeps.refl _ _) t h
  | warmReset _ _ => exact execWarmReset_keeps _ _ (by rfl) (Keeps.refl _ _) t h
  | islandReset _ _ _ => exact execIslandReset_keeps _ _ _ (by rfl) (Keeps.refl _ _) t h
  | hardResetCommand _ _ => exact execHardResetCommand_keeps _ _ (by rfl) (Keeps.refl _ _) t h
  | stopComplete => exact execStopComplete_keeps (by rfl) (Keeps.refl _ _) t h
  | calCommit _ _ => exact execCalCommit_keeps _ _ (by rfl) (Keeps.refl _ _) t h
  | activateImageBank _ _ => exact execActivateImageBank_keeps _ _ (by rfl) (Keeps.refl _ _) t h
  | commitStagedCalSet _ _ _ => exact execCommitStagedCalSet_keeps _ _ _ (by rfl) (Keeps.refl _ _) t h
  | calAutoCommit => exact execCalAutoCommit_keeps (by rfl) (Keeps.refl _ _) t h
  | calCopyVerified _ => exact execCalCopyVerified_keeps _ (by rfl) (Keeps.refl _ _) t h
  | calOldCopyErased => exact execCalOldCopyErased_keeps (by rfl) (Keeps.refl _ _) t h
  | imageTransfer _ _ => exact execImageTransfer_keeps _ _ (by rfl) (Keeps.refl _ _) t h
  | imageTransferDequeue => exact execImageTransferDequeue_keeps (by rfl) (Keeps.refl _ _) t h
  | imageBankVerify => exact execImageBankVerify_keeps (by rfl) (Keeps.refl _ _) t h
  | nozzleUseRecord => exact execNozzleUseRecord_keeps (by rfl) (Keeps.refl _ _) t h
  | freeBlockErase _ => exact execFreeBlockErase_keeps _ (by rfl) (Keeps.refl _ _) t h
  | login _ _ _ => exact execLogin_keeps _ _ _ (by rfl) (Keeps.refl _ _) t h
  | loginLockoutExpiry _ => exact execLoginLockoutExpiry_keeps _ (by rfl) (Keeps.refl _ _) t h
  | logout _ => exact execLogout_keeps _ (by rfl) (Keeps.refl _ _) t h
  | sessionTimeout _ => exact execSessionTimeout_keeps _ (by rfl) (Keeps.refl _ _) t h
  | auditBurstEnd _ => exact execAuditBurstEnd_keeps _ (by rfl) (Keeps.refl _ _) t h
  | auditPageProgram => exact execAuditPageProgram_keeps (by rfl) (Keeps.refl _ _) t h
  | commitGo _ _ => exact execCommitGo_keeps _ _ (by rfl) (Keeps.refl _ _) t h
  | commitDiscard _ _ => exact execCommitDiscard_keeps _ _ (by rfl) (Keeps.refl _ _) t h
  | commitTakeEffect _ => exact execCommitTakeEffect_keeps _ (by rfl) (Keeps.refl _ _) t h
  | queueEntryWrite _ _ => exact execQueueEntryWrite_keeps _ _ (by rfl) (Keeps.refl _ _) t h
  | moverTransfer _ => exact execMoverTransfer_keeps _ (by rfl) (Keeps.refl _ _) t h
  | queueEntryConsume _ => exact execQueueEntryConsume_keeps _ (by rfl) (Keeps.refl _ _) t h
  | producerResume _ => exact execProducerResume_keeps _ (by rfl) (Keeps.refl _ _) t h
  | evqLostInsert _ => exact execEvqLostInsert_keeps _ (by rfl) (Keeps.refl _ _) t h
  | queuePointerMismatch _ => exact execQueuePointerMismatch_keeps _ (by rfl) (Keeps.refl _ _) t h
  | duneRingWrite _ _ _ _ => exact execDuneRingWrite_keeps _ _ _ _ (by rfl) (Keeps.refl _ _) t h
  | ringDoorbell _ _ => exact execRingDoorbell_keeps _ _ (by rfl) (Keeps.refl _ _) t h
  | ringEnable _ _ => exact execRingEnable_keeps _ _ (by rfl) (Keeps.refl _ _) t h
  | ringReset _ => exact execRingReset_keeps _ (by rfl) (Keeps.refl _ _) t h
  | cplAckWrite _ _ => exact execCplAckWrite_keeps _ _ (by rfl) (Keeps.refl _ _) t h
  | functionLevelReset => exact execFunctionLevelReset_keeps (by rfl) (Keeps.refl _ _) t h
  | busMasterDisable => exact execBusMasterDisable_keeps (by rfl) (Keeps.refl _ _) t h
  | pcieReadError _ => exact execPcieReadError_keeps _ (by rfl) (Keeps.refl _ _) t h
  | open_ _ _ _ => exact execOpen_keeps _ _ _ (by rfl) (Keeps.refl _ _) t h
  | data _ _ _ => exact execData_keeps _ _ _ (by rfl) (Keeps.refl _ _) t h
  | close _ _ _ => exact execClose_keeps _ _ _ (by rfl) (Keeps.refl _ _) t h
  | abort _ _ => exact execAbort_keeps _ _ (by rfl) (Keeps.refl _ _) t h
  | duneBlockDecode _ => exact execDuneBlockDecode_keeps _ (by rfl) (Keeps.refl _ _) t h
  | objectEndVerify _ => exact execObjectEndVerify_keeps _ (by rfl) (Keeps.refl _ _) t h
  | dataDescriptorComplete _ => exact execDataDescriptorComplete_keeps _ (by rfl) (Keeps.refl _ _) t h
  | decompressResume _ => exact execDecompressResume_keeps _ (by rfl) (Keeps.refl _ _) t h
  | jobEndingComplete _ => exact execJobEndingComplete_keeps _ (by rfl) (Keeps.refl _ _) t h
  | jobDrained _ => exact execJobDrained_keeps _ (by rfl) (Keeps.refl _ _) t h
  | archiveExhausted _ => exact execArchiveExhausted_keeps _ (by rfl) (Keeps.refl _ _) t h
  | compressFlushTimeout _ => exact execCompressFlushTimeout_keeps _ (by rfl) (Keeps.refl _ _) t h
  | barComposeLine _ => exact execBarComposeLine_keeps _ (by rfl) (Keeps.refl _ _) t h
  | slewerWriteback _ => exact execSlewerWriteback_keeps _ (by rfl) (Keeps.refl _ _) t h
  | idleTableUpdate _ _ => exact execIdleTableUpdate_keeps _ _ (by rfl) (Keeps.refl _ _) t h
  | correctionWindowWrite _ _ _ => exact execCorrectionWindowWrite_keeps _ _ _ (by rfl) (Keeps.refl _ _) t h
  | toneCurveWindowWrite _ _ _ => exact execToneCurveWindowWrite_keeps _ _ _ (by rfl) (Keeps.refl _ _) t h
  | matrixWindowWrite _ _ _ => exact execMatrixWindowWrite_keeps _ _ _ (by rfl) (Keeps.refl _ _) t h
  | descriptorWindowWrite _ _ _ => exact execDescriptorWindowWrite_keeps _ _ _ (by rfl) (Keeps.refl _ _) t h
  | segmentTableWrite _ _ _ => exact execSegmentTableWrite_keeps _ _ _ (by rfl) (Keeps.refl _ _) t h
  | aceVerdict _ _ _ => exact execAceVerdict_keeps _ _ _ (by rfl) (Keeps.refl _ _) t h
  | aceRejectPulseEnd => exact execAceRejectPulseEnd_keeps (by rfl) (Keeps.refl _ _) t h
  | encoderSample _ _ _ _ => exact execEncoderSample_keeps _ _ _ _ (by rfl) (Keeps.refl _ _) t h
  | encArm _ _ => exact execEncArm_keeps _ _ (by rfl) (Keeps.refl _ _) t h
  | encPosSet _ _ => exact execEncPosSet_keeps _ _ (by rfl) (Keeps.refl _ _) t h
  | encCal _ _ => exact execEncCal_keeps _ _ (by rfl) (Keeps.refl _ _) t h
  | encCalComplete _ => exact execEncCalComplete_keeps _ (by rfl) (Keeps.refl _ _) t h
  | encCalTimeout _ => exact execEncCalTimeout_keeps _ (by rfl) (Keeps.refl _ _) t h
  | encStillTimeout _ => exact execEncStillTimeout_keeps _ (by rfl) (Keeps.refl _ _) t h
  | ltmSampleArrival => exact execLtmSampleArrival_keeps (by rfl) (Keeps.refl _ _) t h
  | lineTrigger => exact execLineTrigger_keeps (by rfl) (Keeps.refl _ _) t h
  | governorSample => exact execGovernorSample_keeps (by rfl) (Keeps.refl _ _) t h
  | laneReceiverDetect _ => exact execLaneReceiverDetect_keeps _ (by rfl) (Keeps.refl _ _) t h
  | laneDetectTimeout _ => exact execLaneDetectTimeout_keeps _ (by rfl) (Keeps.refl _ _) t h
  | laneDetectRetry _ => exact execLaneDetectRetry_keeps _ (by rfl) (Keeps.refl _ _) t h
  | laneClockRecovered _ => exact execLaneClockRecovered_keeps _ (by rfl) (Keeps.refl _ _) t h
  | laneCommaAligned _ => exact execLaneCommaAligned_keeps _ (by rfl) (Keeps.refl _ _) t h
  | laneBlockLock _ => exact execLaneBlockLock_keeps _ (by rfl) (Keeps.refl _ _) t h
  | laneTrainingDone _ => exact execLaneTrainingDone_keeps _ (by rfl) (Keeps.refl _ _) t h
  | capPageSend _ => exact execCapPageSend_keeps _ (by rfl) (Keeps.refl _ _) t h
  | laneCapPagesReceived _ _ => exact execLaneCapPagesReceived_keeps _ _ (by rfl) (Keeps.refl _ _) t h
  | laneCapTimeout _ => exact execLaneCapTimeout_keeps _ (by rfl) (Keeps.refl _ _) t h
  | laneTrainingTimeout _ => exact execLaneTrainingTimeout_keeps _ (by rfl) (Keeps.refl _ _) t h
  | laneLockLost _ => exact execLaneLockLost_keeps _ (by rfl) (Keeps.refl _ _) t h
  | blockReceive _ _ _ _ => exact execBlockReceive_keeps _ _ _ _ (by rfl) (Keeps.refl _ _) t h
  | moduleStatusBlock _ _ => exact execModuleStatusBlock_keeps _ _ (by rfl) (Keeps.refl _ _) t h
  | moduleReport _ _ => exact execModuleReport_keeps _ _ (by rfl) (Keeps.refl _ _) t h
  | patternTestGo _ _ => exact execPatternTestGo_keeps _ _ (by rfl) (Keeps.refl _ _) t h
  | laneTestEnd _ _ _ _ => exact execLaneTestEnd_keeps _ _ _ _ (by rfl) (Keeps.refl _ _) t h
  | errorInject _ _ _ _ _ _ _ _ => exact execErrorInject_keeps _ _ _ _ _ _ _ _ (by rfl) (Keeps.refl _ _) t h
  | eyeScanGo _ _ _ => exact execEyeScanGo_keeps _ _ _ (by rfl) (Keeps.refl _ _) t h
  | eyeScanStop _ _ => exact execEyeScanStop_keeps _ _ (by rfl) (Keeps.refl _ _) t h
  | eyeScanComplete _ _ _ => exact execEyeScanComplete_keeps _ _ _ (by rfl) (Keeps.refl _ _) t h
  | refreshDue _ _ => exact execRefreshDue_keeps _ _ (by rfl) (Keeps.refl _ _) t h
  | mr4Poll _ _ => exact execMr4Poll_keeps _ _ (by rfl) (Keeps.refl _ _) t h
  | delaySetLoadDone => exact execDelaySetLoadDone_keeps (by rfl) (Keeps.refl _ _) t h
  | correctedError _ _ => exact execCorrectedError_keeps _ _ (by rfl) (Keeps.refl _ _) t h
  | uncorrectableError _ _ => exact execUncorrectableError_keeps _ _ (by rfl) (Keeps.refl _ _) t h
  | diagRead _ _ _ => exact execDiagRead_keeps _ _ _ (by rfl) (Keeps.refl _ _) t h
  | scrubRead _ => exact execScrubRead_keeps _ (by rfl) (Keeps.refl _ _) t h
  | channelRetirement => exact execChannelRetirement_keeps (by rfl) (Keeps.refl _ _) t h
  | retirementFillDone => exact execRetirementFillDone_keeps (by rfl) (Keeps.refl _ _) t h
  | frameStart _ _ _ _ => exact execFrameStart_keeps _ _ _ _ (by rfl) (Keeps.refl _ _) t h
  | linePacket _ _ _ _ _ _ => exact execLinePacket_keeps _ _ _ _ _ _ (by rfl) (Keeps.refl _ _) t h
  | frameEnd _ _ _ => exact execFrameEnd_keeps _ _ _ (by rfl) (Keeps.refl _ _) t h
  | frameTimeout _ => exact execFrameTimeout_keeps _ (by rfl) (Keeps.refl _ _) t h
  | triggerTimeout _ => exact execTriggerTimeout_keeps _ (by rfl) (Keeps.refl _ _) t h
  | cameraTriggerEnd _ => exact execCameraTriggerEnd_keeps _ (by rfl) (Keeps.refl _ _) t h
  | sensorSequenceSend _ _ => exact execSensorSequenceSend_keeps _ _ (by rfl) (Keeps.refl _ _) t h
  | pipelineGroupStart _ => exact execPipelineGroupStart_keeps _ (by rfl) (Keeps.refl _ _) t h
  | pipelineGroupDone _ => exact execPipelineGroupDone_keeps _ (by rfl) (Keeps.refl _ _) t h
  | statsRecord _ => exact execStatsRecord_keeps _ (by rfl) (Keeps.refl _ _) t h
  | blindTimeout _ => exact execBlindTimeout_keeps _ (by rfl) (Keeps.refl _ _) t h
  | calTempCheck => exact execCalTempCheck_keeps (by rfl) (Keeps.refl _ _) t h
  | chlCalCmd _ _ => exact execChlCalCmd_keeps _ _ (by rfl) (Keeps.refl _ _) t h
  | calRunStart => exact execCalRunStart_keeps (by rfl) (Keeps.refl _ _) t h
  | calRunComplete _ _ => exact execCalRunComplete_keeps _ _ (by rfl) (Keeps.refl _ _) t h
  | generatorTick => exact execGeneratorTick_keeps (by rfl) (Keeps.refl _ _) t h
  | webAtRest => exact execWebAtRest_keeps (by rfl) (Keeps.refl _ _) t h
  | parkSelect _ => exact execParkSelect_keeps _ (by rfl) (Keeps.refl _ _) t h
  | motGo _ _ => exact execMotGo_keeps _ _ (by rfl) (Keeps.refl _ _) t h
  | motStop _ _ => exact execMotStop_keeps _ _ (by rfl) (Keeps.refl _ _) t h
  | targetWrite _ _ _ => exact execTargetWrite_keeps _ _ _ (by rfl) (Keeps.refl _ _) t h
  | chopperTrip _ _ _ => exact execChopperTrip_keeps _ _ _ (by rfl) (Keeps.refl _ _) t h
  | chopperOnMax _ _ => exact execChopperOnMax_keeps _ _ (by rfl) (Keeps.refl _ _) t h
  | chopperOffEnd _ _ => exact execChopperOffEnd_keeps _ _ (by rfl) (Keeps.refl _ _) t h
  | shortHoldEnd _ _ => exact execShortHoldEnd_keeps _ _ (by rfl) (Keeps.refl _ _) t h
  | seqCommand _ _ => exact execSeqCommand_keeps _ _ (by rfl) (Keeps.refl _ _) t h
  | sequenceDone _ => exact execSequenceDone_keeps _ (by rfl) (Keeps.refl _ _) t h
  | sequenceTimeout _ => exact execSequenceTimeout_keeps _ (by rfl) (Keeps.refl _ _) t h
  | lampFrame _ _ => exact execLampFrame_keeps _ _ (by rfl) (Keeps.refl _ _) t h
  | trumpRenew => exact execTrumpRenew_keeps (by rfl) (Keeps.refl _ _) t h
  | renewalReceived _ _ mode => exact execRenewalReceived_keeps _ _ mode (by rfl) (Keeps.refl _ _) t h
  | leaseExpiry => exact execLeaseExpiry_keeps (by rfl) (Keeps.refl _ _) t h
  | startupTrumpTake => exact execStartupTrumpTake_keeps (by rfl) (Keeps.refl _ _) t h
  | yield_ _ g => exact execYield_keeps _ g (by rfl) (Keeps.refl _ _) t h
  | handover _ _ => exact execHandover_keeps _ _ (by rfl) (Keeps.refl _ _) t h
  | testTakeover _ _ => exact execTestTakeover_keeps _ _ (by rfl) (Keeps.refl _ _) t h
  | testHoldExpiry => exact execTestHoldExpiry_keeps (by rfl) (Keeps.refl _ _) t h
  | revertQualified => exact execRevertQualified_keeps (by rfl) (Keeps.refl _ _) t h
  | revert deal => exact execRevert_keeps deal (by rfl) (Keeps.refl _ _) t h
  | padHoldExpiry => exact execPadHoldExpiry_keeps (by rfl) (Keeps.refl _ _) t h
  | forwardRecord _ _ => exact execForwardRecord_keeps _ _ (by rfl) (Keeps.refl _ _) t h
  | replay _ => exact execReplay_keeps _ (by rfl) (Keeps.refl _ _) t h
  | ack _ => exact execAck_keeps _ (by rfl) (Keeps.refl _ _) t h
  | ackSend => exact execAckSend_keeps (by rfl) (Keeps.refl _ _) t h
  | lineEvent _ _ _ _ _ => exact execLineEvent_keeps _ _ _ _ _ (by rfl) (Keeps.refl _ _) t h
  | digest _ _ _ => exact execDigest_keeps _ _ _ (by rfl) (Keeps.refl _ _) t h
  | fill _ _ => exact execFill_keeps _ _ (by rfl) (Keeps.refl _ _) t h
  | fillSend => exact execFillSend_keeps (by rfl) (Keeps.refl _ _) t h
  | suspect _ => exact execSuspect_keeps _ (by rfl) (Keeps.refl _ _) t h
  | left _ => exact execLeft_keeps _ (by rfl) (Keeps.refl _ _) t h
  | timeExchange _ _ => exact execTimeExchange_keeps _ _ (by rfl) (Keeps.refl _ _) t h
  | standbySilence => exact execStandbySilence_keeps (by rfl) (Keeps.refl _ _) t h
  | resyncCopyDone _ => exact execResyncCopyDone_keeps _ (by rfl) (Keeps.refl _ _) t h
  | autoJoin => exact execAutoJoin_keeps (by rfl) (Keeps.refl _ _) t h
  | diodeReading _ => exact execDiodeReading_keeps _ (by rfl) (Keeps.refl _ _) t h
  | riseHistorySample => exact execRiseHistorySample_keeps (by rfl) (Keeps.refl _ _) t h
  | throttleStepDown => exact execThrottleStepDown_keeps (by rfl) (Keeps.refl _ _) t h
  | scoreboardBucket _ => exact execScoreboardBucket_keeps _ (by rfl) (Keeps.refl _ _) t h
  | telemetryInterval => exact execTelemetryInterval_keeps (by rfl) (Keeps.refl _ _) t h
  | ptpAnnounce _ _ _ => exact execPtpAnnounce_keeps _ _ _ (by rfl) (Keeps.refl _ _) t h
  | ptpSync _ _ _ => exact execPtpSync_keeps _ _ _ (by rfl) (Keeps.refl _ _) t h
  | ptpDelayResp _ _ _ => exact execPtpDelayResp_keeps _ _ _ (by rfl) (Keeps.refl _ _) t h
  | ptpDelayReqSend => exact execPtpDelayReqSend_keeps (by rfl) (Keeps.refl _ _) t h
  | announceTimeout => exact execAnnounceTimeout_keeps (by rfl) (Keeps.refl _ _) t h
  | timeAccept _ _ => exact execTimeAccept_keeps _ _ (by rfl) (Keeps.refl _ _) t h
  | clrChg _ _ => exact execClrChg_keeps _ _ (by rfl) (Keeps.refl _ _) t h
  | timeMark => exact execTimeMark_keeps (by rfl) (Keeps.refl _ _) t h
  | timePulseDue _ => exact execTimePulseDue_keeps _ (by rfl) (Keeps.refl _ _) t h
  | timePulseEnd _ => exact execTimePulseEnd_keeps _ (by rfl) (Keeps.refl _ _) t h
  | estop _ => exact execEstop_keeps _ (by rfl) (Keeps.refl _ _) t h
  | runReq _ => exact execRunReq_keeps _ (by rfl) (Keeps.refl _ _) t h
  | stopReq _ => exact execStopReq_keeps _ (by rfl) (Keeps.refl _ _) t h
  | gpIn _ _ => exact execGpIn_keeps _ _ (by rfl) (Keeps.refl _ _) t h
  | estopRelease => exact execEstopRelease_keeps (by rfl) (Keeps.refl _ _) t h
  | timePulseWake _ => exact execTimePulseWake_keeps _ (by rfl) (Keeps.refl _ _) t h
  | busMasterEnable => exact execBusMasterEnable_keeps (by rfl) (Keeps.refl _ _) t h

/-! ### Retirements that are due -/

/-- The mask of every part but the due retirements. -/
def allButDue : Nat := 2 ^ 24 - 1

theorem Keeps.due {s t : State} (h : Keeps allButDue s t) (hd : s.flt.due = []) : t.flt.due = [] := (h.parts .due rfl).trans hd

/-- A command that does not name the due retirements leaves them as they are. -/
theorem exec_due_of_untouched {c : Instr} {s t : State} (h : exec c s = .next t) (hc : Part.due ∉ touched c)
    (hd : s.flt.due = []) : t.flt.due = [] := ((exec_keeps h).parts .due (partMask_off hc)).trans hd

/-- Every retirement that is due is carried out. -/
theorem State.settleFaults_due (s : State) : s.settleFaults.flt.due = [] := by
  unfold State.settleFaults
  refine (State.healthTry_keeps (msk := allButDue) false rfl (Keeps.refl _ _)).due ?_
  split
  · rename_i h; exact List.isEmpty_iff.mp h
  · rfl

theorem State.live_due {s : State} (hd : s.flt.due = []) {f : State → State} (hf : (f s).flt.due = []) : (s.live f).flt.due = [] := by
  unfold State.live; split
  · exact hf
  · exact hd

theorem State.when_due {s : State} (hd : s.flt.due = []) (c : Bool) {f : State → State} (hf : (f s).flt.due = []) :
    (s.when c f).flt.due = [] := by
  unfold State.when; split
  · exact hf
  · exact hd

theorem State.liveF_due {s : State} (hd : s.flt.due = []) (f : State → State) : (s.liveF f).flt.due = [] :=
  State.live_due hd (f s).settleFaults_due

/-- A fold of steps that each keep the list of due retirements empty keeps it empty. -/
theorem foldl_due {α : Type} {f : State → α → State} (hf : ∀ s a, s.flt.due = [] → (f s a).flt.due = []) :
    ∀ (l : List α) {s : State}, s.flt.due = [] → (l.foldl f s).flt.due = []
  | [], _, h => h
  | a :: l, s, h => foldl_due hf l (hf s a h)

/-! ### Commands on the queues, which make no retirement due -/

/-- A MISSING group whose frame was dropped is no upset (R229), so no retirement falls due. -/
theorem State.missing_dropped_keeps {sb s : State} (k : Fin 8) (g : Grp) (hK : Keeps allButDue sb s) :
    Keeps allButDue sb (s.missing k g true) :=
  State.frameOnly_keeps _ _ _ rfl (State.bump_keeps _ rfl hK)

theorem State.segPut_keepsDue {sb s : State} (k : Fin 8) (n : Nat) (x : FrameSeg) (hK : Keeps allButDue sb s) :
    Keeps allButDue sb (s.segPut k n x) := by
  unfold State.segPut
  split
  · exact hK
  · extract_lets q
    split
    · exact hK
    · split
      · exact State.visTake_keeps _ rfl (State.missing_dropped_keeps _ _ (State.onGrp_keeps _ _ _ rfl (State.bump_keeps _ rfl hK)))
      · exact State.visTake_keeps _ rfl (State.qPut_keeps _ _ rfl hK)

theorem State.segOffer_keepsDue {sb s : State} (q : Fin 64) (x : FrameSeg) (hK : Keeps allButDue sb s) :
    Keeps allButDue sb (s.segOffer q x) := by
  unfold State.segOffer
  split
  · extract_lets k s0
    split
    · exact State.when_keeps _ _ (fun y hy => State.onCam_keeps _ _ rfl hy) rfl hK
    · have h0 : Keeps allButDue sb s0 := State.settle_keeps q rfl hK
      split
      · exact State.qPut_keeps _ _ rfl h0
      · exact State.missing_dropped_keeps _ _ (State.onCam_keeps _ _ rfl (State.bump_keeps _ rfl h0))
  · exact hK

/-- An entry offered to a queue makes no retirement due. -/
theorem State.entryIn_keepsDue {sb s : State} (q : Fin 64) (e : Entry) (hK : Keeps allButDue sb s) :
    Keeps allButDue sb (s.entryIn q e) := by
  unfold State.entryIn
  split
  · exact hK
  · split
    · split
      · exact State.segPut_keepsDue _ _ _ hK
      · exact State.segOffer_keepsDue _ _ hK
    · exact State.qOffer_keeps _ _ rfl hK

theorem State.framesLost_keepsDue {sb s : State} (l : List (Nat × Nat)) (hK : Keeps allButDue sb s) :
    Keeps allButDue sb (s.framesLost l) := by
  unfold State.framesLost
  refine Keeps.foldl (fun y x hy => ?_) hK
  split
  · extract_lets k
    split
    · split
      · exact hy
      · exact State.onCam_keeps _ _ rfl (State.missing_dropped_keeps _ _ (State.onGrp_keeps _ _ _ rfl hy))
    · exact hy
  · exact hy

/-- What a queue's reset costs is no retirement. -/
theorem State.qResetCost_keepsDue {sb s : State} (q : Fin 64) (l : List Entry) (hK : Keeps allButDue sb s) :
    Keeps allButDue sb (s.qResetCost q l) := by
  unfold State.qResetCost
  split
  · exact State.when_keeps _ _ (fun y hy => Keeps.setTbl _ rfl hy fun _ => rfl) rfl hK
  · split
    · exact Keeps.setIng _ rfl hK
    · split
      · exact State.framesLost_keepsDue _ hK
      · split
        · exact State.statsLost_keeps _ rfl hK
        · split
          · split
            · exact hK
            · exact State.raise_keeps _ _ _ rfl (State.markLost_keeps (msk := allButDue) rfl hK _)
          · exact hK

theorem State.pointerReset_keepsDue {sb s : State} (q : Fin 64) (hK : Keeps allButDue sb s) :
    Keeps allButDue sb (s.pointerReset q) := by
  unfold State.pointerReset
  extract_lets lost s1
  have h1 : Keeps allButDue sb s1 := State.bump_keeps _ rfl (State.onQ_keeps _ _ rfl hK)
  split
  · exact State.evqLost_keeps _ rfl (State.evtStore_keeps _ _ rfl h1)
  · exact State.event_keeps _ _ rfl (State.qResetCost_keepsDue _ _ h1)

/-- A retirement carried out is due no more; where none was due, none is. -/
theorem State.fillDone_due {s : State} (hd : s.flt.due = []) : s.fillDone.flt.due = [] := by
  unfold State.fillDone
  extract_lets s1
  have h1 : Keeps allButDue s s1 := Keeps.foldl (fun y b hy => State.onBar_keeps (msk := allButDue) _ _ rfl hy) (Keeps.refl _ _)
  have hm : ∀ (y : State) (j : Nat), y.flt.due = [] → (y.markRetired j).flt.due = [] := fun y j hy => by
    change (y.flt.due.filter (· ≠ j)) = []
    rw [hy]; rfl
  refine foldl_due (fun y c hy => ?_) _ ((State.onMem_keeps (msk := allButDue) _ rfl (Keeps.refl _ s1)).due (h1.due hd))
  exact (State.event_keeps (msk := allButDue) _ _ rfl (Keeps.refl _ _)).due (hm y _ hy)

/-- A restart clears the scoreboards and all that is due. -/
theorem State.hardReset_due (s : State) (kind : Nat) (low : Bool) : (s.hardReset kind low).flt.due = [] := rfl

/-! ### Every step -/

theorem next_due {x t : State} (h : (.next x : Host.Outcome State Fault Refusal) = .next t) (hx : x.flt.due = []) :
    t.flt.due = [] := by
  injection h with h
  exact h ▸ hx

theorem execRegisterWrite_due {p : Port} {addr : BitVec 24} {w : Word} {s t : State} (h : execRegisterWrite p addr w s = .next t)
    (hd : s.flt.due = []) : t.flt.due = [] := by
  cases p with
  | session n => exact next_due h (State.settleFaults_due _)
  | host => exact next_due h ((State.hostWrite_keeps (msk := allButDue) _ _ rfl (Keeps.refl _ s)).due hd)

theorem State.resetLow_due {s : State} (ns : Nat) (hd : s.flt.due = []) : (s.resetLow ns).flt.due = [] := by
  unfold State.resetLow
  split
  · exact hd
  · split
    · exact s.hardReset_due 1 true
    · split
      · exact s.drawn.hardReset_due 1 true
      · exact hd

/-- A session's write makes no retirement due, whatever shuts it out, if what it does makes none due. -/
theorem State.sesReach_due {s : State} (hd : s.flt.due = []) (ses : Fin 5) (need : Role) (a : Nat) (w : Word) {f : State → State}
    (hf : ∀ x : State, x.flt.due = [] → (f x).flt.due = []) : (s.sesReach ses need a w f).flt.due = [] := by
  unfold State.sesReach
  refine State.live_due hd ?_
  extract_lets s1
  have h1 : Keeps allButDue s s1 := State.burstCut_keeps ses a rfl (Keeps.refl _ _)
  split
  · exact h1.due hd
  split
  · exact h1.due hd
  split
  · exact h1.due hd
  split
  · exact (State.wake_keeps (msk := allButDue) rfl h1).due hd
  split
  · exact h1.due hd
  · exact hf s1 (h1.due hd)

/-- The code byte of a command word is the low byte it was made of. -/
theorem bits_confirmWord (confirm : Byte) {n : Nat} (h : n < 256) : bits (confirmWord confirm n).toNat 0 8 = n := by
  have hc := confirm.isLt
  simp only [bits, confirmWord, BitVec.toNat_ofNat, Nat.shiftRight_zero]
  omega

/-- A hard reset by command restarts the seat, or does nothing that makes a retirement due. -/
theorem State.resetCmd_hard_due {s : State} (ses : Fin 5) {w : Word} (hw : bits w.toNat 0 8 = 3) (hd : s.flt.due = []) :
    (s.resetCmd ses w).flt.due = [] := by
  unfold State.resetCmd
  refine State.sesReach_due hd _ _ _ _ fun x hx => ?_
  split
  · exact hx
  · exact State.hardReset_due _ 2 false

/-- No command leaves a retirement to carry out: it carries out those it makes due, or makes none due. -/
theorem exec_due {c : Instr} {s t : State} (h : exec c s = .next t) (hd : s.flt.due = []) : t.flt.due = [] := by
  cases c
  case registerWrite => exact execRegisterWrite_due h hd
  case powerOn | powerLoss => exact next_due h rfl
  case supplyDip => exact next_due h (State.when_due hd _ rfl)
  case resetNLow ns => exact next_due h (State.resetLow_due ns hd)
  case hardResetCommand ses confirm =>
    exact next_due h (State.resetCmd_hard_due ses (bits_confirmWord confirm (by decide)) hd)
  case warmReset | islandReset | reqIdleWarm | reqIdleCold | reqBindJob | reqRun | reqEnterService | reqStop | reqClearHalt |
      reqJoinStandby | reqLeaveService => exact next_due h (State.settleFaults_due _)
  case coldWakeComplete | auditPageProgram => exact next_due h (State.live_due hd (State.settleFaults_due _))
  case queueEntryWrite q e =>
    exact next_due h (State.live_due hd ((State.entryIn_keepsDue q e (Keeps.refl _ s)).due hd))
  case queuePointerMismatch q =>
    exact next_due h (State.live_due hd ((State.pointerReset_keepsDue q (Keeps.refl _ s)).due hd))
  case retirementFillDone =>
    have hf := State.fillDone_due hd
    exact next_due h (State.live_due hd (State.when_due hd _ (State.when_due hf _
      ((State.memRetire_keeps (msk := allButDue) rfl (Keeps.refl _ _)).due hf))))
  case encoderSample | governorSample | laneDetectTimeout | laneDetectRetry | laneClockRecovered | laneCommaAligned |
      laneTrainingDone | capPageSend | laneCapPagesReceived | laneCapTimeout | laneTrainingTimeout | laneLockLost |
      moduleStatusBlock | moduleReport | laneTestEnd | eyeScanComplete | correctedError | uncorrectableError |
      channelRetirement | linePacket | triggerTimeout | sensorSequenceSend | chopperTrip | chopperOnMax | runReq | stopReq |
      requestTimeout | laneReceiverDetect | laneBlockLock | blockReceive | lampFrame | diodeReading | riseHistorySample |
      estop | barComposeLine | ltmSampleArrival | lineTrigger | frameStart | frameEnd | frameTimeout | forwardRecord |
      lineEvent => exact next_due h (State.liveF_due hd _)
  all_goals exact exec_due_of_untouched h (by dsimp only [touched]; decide) hd

/-- A step leaves the queue's rest, keeps the register maps canonical and leaves no retirement to carry out. -/
theorem step_keeps {s t : State} (h : step s = .next t) :
    t.pending = s.pending.tail ∧ (s.regs.wf = true → t.regs.wf = true) ∧ (s.flt.due = [] → t.flt.due = []) := by
  unfold step at h
  split at h
  next hp =>
    injection h with h
    subst h
    have hk : Keeps allButDue s s.idleTick := State.idleTick_keeps rfl (Keeps.refl _ _)
    exact ⟨by rw [hk.pending, hp]; rfl, hk.regs, hk.due⟩
  next c rest hp => exact ⟨by rw [(exec_keeps h).pending, hp]; rfl, (exec_keeps h).regs, fun hd => exec_due h hd⟩

/-- Settles O2: every command keeps what a step must keep, by the frame of the commands and the carrying out of retirements. -/
theorem everyStepKeepsQueueAndRegisters : Obligations.EveryStepKeepsQueueAndRegisters := by
  unfold Obligations.EveryStepKeepsQueueAndRegisters State.inv State.queueWf
  intro s t h
  obtain ⟨hp, hr, hd⟩ := step_keeps h
  refine ⟨fun ⟨hq, hw⟩ => ⟨fun c hc => hq c ?_, hr hw⟩, hd⟩
  rw [hp] at hc
  exact List.mem_of_mem_tail hc

end Sys2Proof.Machine
end

section
/-! A session's write of a register that has no command of its own, and obligation O7 (R6, R7, R53). -/
namespace Sys2Proof.Machine

/-! ### Bits of a field put into a word -/

/-- Inside the field the bits are those put in, outside it those that were there. -/
theorem testBit_insBits (v lo w x i : Nat) :
    (insBits v lo w x).testBit i = if lo ≤ i ∧ i < lo + w then x.testBit (i - lo) else v.testBit i := by
  rw [insBits_split, Nat.pow_add, ← Nat.mul_assoc, Nat.mul_right_comm, ← Nat.add_mul, Nat.mul_comm,
    Nat.testBit_two_pow_mul_add _ (Nat.mod_lt _ (Nat.two_pow_pos lo))]
  by_cases h1 : i < lo
  · rw [if_pos h1, if_neg (by omega), Nat.testBit_mod_two_pow, decide_eq_true h1, Bool.true_and]
  · rw [if_neg h1, Nat.mul_comm, Nat.testBit_two_pow_mul_add _ (Nat.mod_lt _ (Nat.two_pow_pos w))]
    by_cases h2 : i - lo < w
    · rw [if_pos h2, if_pos (by omega), Nat.testBit_mod_two_pow, decide_eq_true h2, Bool.true_and]
    · rw [if_neg h2, if_neg (by omega), ← Nat.pow_add, Nat.testBit_div_two_pow]
      congr 1; omega

theorem testBit_bits (v lo w i : Nat) : (bits v lo w).testBit i = (decide (i < w) && v.testBit (lo + i)) := by
  unfold bits
  rw [Nat.testBit_mod_two_pow, Nat.testBit_shiftRight]

/-! ### A write on its way to its register -/

@[simp] theorem State.audit_sess (s : State) (kind who a b c : Nat) : (s.audit kind who a b c).cfg.sess = s.cfg.sess := by
  unfold State.audit; dsimp only; split <;> rfl

theorem State.endBurst_burst (s : State) (ses : Fin 5) : (s.endBurst ses).cfg.sess[ses].burst = none := by
  unfold State.endBurst
  split
  · assumption
  · rw [State.audit_sess]
    exact congrArg Session.burst (vmod_self _ _ _)

/-- A burst once cut is not cut again. -/
@[simp] theorem State.burstCut_burstCut (s : State) (ses : Fin 5) (a : Nat) :
    (s.burstCut ses a).burstCut ses a = s.burstCut ses a := by
  by_cases h : s.burstGoesOn ses a = true
  · unfold State.burstCut; rw [if_pos h, if_pos h]
  · refine State.burstCut_none ?_ a
    unfold State.burstCut
    rw [if_neg h]
    exact s.endBurst_burst ses

theorem State.burstCut_alive (s : State) (ses : Fin 5) (a : Nat) : (s.burstCut ses a).alive = s.alive := by
  have h := (s.burstCut_keeps2 ses a).parts .pad rfl
  unfold State.alive
  rw [State.burstCut_sys, show (s.burstCut ses a).pad = s.pad from h]

/-- A write reaches its register whether or not the burst it does not continue has been ended before. -/
theorem State.reaches_burstCut {s : State} {ses : Fin 5} {need : Role} {a : Nat} (h : s.reaches ses need a) :
    (s.burstCut ses a).reaches ses need a := by
  unfold State.reaches State.audited at *
  simpa only [State.burstCut_alive, State.burstCut_may, State.burstCut_inMode, State.burstCut_sys, State.burstCut_burstCut] using h

/-- The registers that are commands of their own. -/
def cmdReg (a : Nat) : Bool :=
  [0x104, 0x110, 0x10010, 0x150028, 0x170A04, 0x182060, 0x1A0020, 0x1D000C].contains a || (elem? 0x20108 32 64 a).isSome ||
    (elem? 0x2010C 32 64 a).isSome || (elem? 0x10011C 0x100 4 a).isSome || (elem? 0x18001C 0x200 16 a).isSome ||
    (elem? 0x180018 0x200 16 a).isSome || (elem? 0x120068 0x400 40 a).isSome || (elem? 0x120080 0x400 40 a).isSome ||
    (elem? 0x120090 0x400 40 a).isSome || (elem? 0x1A0110 0x40 12 a).isSome

/-- The address is no window's, no active view, no commit register and no command register. -/
def plainReg (a : Nat) : Bool := decide (a < 0x200000) && (groupAt a).isNone && !cmdReg a

theorem winOf_low {a : Nat} (h : a < 0x400000) : winOf a = 0 := by unfold winOf; rw [if_pos h]

theorem State.cmdAt_none {a : Nat} (h : cmdReg a = false) (s : State) (ses : Fin 5) (w : Word) :
    s.cmdAt ses a w = none ∧ s.laneCmdAt ses a w = none := by
  simp only [cmdReg, List.contains_cons, List.contains_nil, Bool.or_eq_false_iff, beq_eq_false_iff_ne, Option.isSome_eq_false_iff,
    Option.isNone_iff_eq_none, ne_eq, and_true] at h
  obtain ⟨⟨⟨⟨⟨⟨⟨⟨⟨⟨h1, h2, h3, h4, h5, h6, h7, h8⟩, e1⟩, e2⟩, e3⟩, e4⟩, e5⟩, l1⟩, l2⟩, l3⟩, l4⟩ := h
  constructor
  · unfold State.cmdAt
    simp only [h1, h2, h3, h4, h5, h6, h7, h8, e1, e2, e3, e4, e5, if_false]
  · unfold State.laneCmdAt
    simp only [l1, l2, l3, l4]

/-- A session's write of a register without a command of its own. -/
theorem State.writeAt_plain {s : State} (hs : s.alive = true) {a : Nat} (h : plainReg a = true) (ses : Fin 5) (w : Word) :
    s.writeAt ses a w = (s.burstCut ses a).regCmd ses a w := by
  simp only [plainReg, Bool.and_eq_true, decide_eq_true_eq, Option.isNone_iff_eq_none, Bool.not_eq_true'] at h
  obtain ⟨⟨h1, h2⟩, h3⟩ := h
  have hw : ¬ winOf a ≠ 0 := fun h => h (winOf_low (by omega))
  obtain ⟨hc, hl⟩ := State.cmdAt_none h3 (s.burstCut ses a) ses w
  unfold State.writeAt
  rw [State.live_eq hs]
  simp only [if_neg hw, if_neg (Nat.not_le.mpr h1), h2, hc, hl]

/-! ### What a register's write does -/

@[simp] theorem State.forward_yieldFor (s : State) (i : FwdItem) : (s.forward i).tbl.yieldFor = s.tbl.yieldFor := by
  unfold State.forward
  split
  · rfl
  · split <;> rfl

/-- A write that is taken: the fields put into their words, then its record and its forwarded copy. -/
def State.regWritten (s : State) (ses : Fin 5) (a : Nat) (r : RegRow) (ix : List Nat) (w : Word) : State :=
  let c := s.burstCut ses a
  let t := c.putReg a ix r.base r.fields w
  (t.auditWrite ses a (c.auditVal a r) (t.auditNew a r w)).fwdBy (c.writer ses) a w (c.writeLine a)

theorem State.regWritten_keeps (s : State) (ses : Fin 5) (a : Nat) (r : RegRow) (ix : List Nat) (w : Word) :
    Keeps 16390 s (s.regWritten ses a r ix w) :=
  State.fwdBy_keeps _ _ _ _ rfl (State.auditWrite_keeps _ _ _ _ rfl (State.putReg_keeps _ _ _ _ _ rfl
    (State.burstCut_keeps _ _ rfl (Keeps.refl _ _))))

theorem State.regWritten_settled {s : State} (h : s.calm) (ses : Fin 5) (a : Nat) (r : RegRow) (ix : List Nat) (w : Word) :
    (s.regWritten ses a r ix w).settleFaults = s.regWritten ses a r ix w := by
  have hk := s.regWritten_keeps ses a r ix w
  refine (hk.sameBut (l := [.cfg, .regs, .tbl]) rfl).settled h (by decide) (congrArg Sys.freezePend (hk.parts .sys rfl)) ?_
  have h1 : Keeps 6 s (((s.burstCut ses a).putReg a ix r.base r.fields w).auditWrite ses a ((s.burstCut ses a).auditVal a r)
      (((s.burstCut ses a).putReg a ix r.base r.fields w).auditNew a r w)) :=
    State.auditWrite_keeps _ _ _ _ rfl (State.putReg_keeps _ _ _ _ _ rfl (State.burstCut_keeps _ _ rfl (Keeps.refl _ _)))
  exact (State.forward_yieldFor _ _).trans (congrArg Tbl.yieldFor (h1.parts .tbl rfl))

/-- A register with no rule of its own for a write. -/
def simpleReg (base : Nat) : Bool :=
  !([0x160024, 0x180014, 0x30010, 0x30014, 0x88004, 0x8C1AC, 0x160000, 0x160100, 0x88000, 0x100100, 0x1A0000, 0x170100, 0x15000C,
    0x182000, 0x191008].contains base)

theorem simpleReg_ne {b : Nat} (h : simpleReg b = true) {n : Nat} (hn : simpleReg n = false) : b ≠ n := by
  rintro rfl
  rw [h] at hn
  exact Bool.false_ne_true hn.symm

theorem State.clampWrite_simple {b : Nat} (h : simpleReg b = true) (s : State) (ix : List Nat) (f : RegField) (word v : Nat) :
    s.clampWrite b ix f word v = v := by
  unfold State.clampWrite
  simp only [simpleReg_ne h (n := 0x170100) rfl, simpleReg_ne h (n := 0x15000C) rfl, simpleReg_ne h (n := 0x182000) rfl,
    simpleReg_ne h (n := 0x191008) rfl, false_and, if_false]

theorem State.loShut_simple {b : Nat} (h : simpleReg b = true) (s : State) (ix : List Nat) : s.loShut b ix = false := by
  unfold State.loShut
  rw [decide_eq_false (simpleReg_ne h rfl), Bool.false_and]

/-! ### The maps after a write -/

/-- The word of the fields of one access type, as a write leaves it. -/
def RegRow.put (r : RegRow) (k : Acc) (val : RegField → Nat) (old : Word) : Word := putFields (r.fields.filter fun f => f.acc = k) val old

/-- R7: a W1C field keeps the bits that are not written with 1. -/
def w1cVal (old w : Word) (f : RegField) : Nat := bits old.toNat f.lo f.w - (bits old.toNat f.lo f.w &&& bits w.toNat f.lo f.w)

/-- R6, R7, R53: RW fields take the word, RWG fields take it in the shadow alone, W1C flags written with 1 clear; of the other
words only the peak of `TBL_FWD_LVL` can change. -/
theorem State.regWritten_regs {r : RegRow} (hb : simpleReg r.base = true) (s : State) (ses : Fin 5) (a : Nat) (ix : List Nat) (w : Word) :
    let u := s.regWritten ses a r ix w
    u.regs.rw = rset s.regs.rw a (r.put .rw (fun f => bits w.toNat f.lo f.w) (rget s.regs.rw a)) ∧
      u.regs.shadow = rset s.regs.shadow a (r.put .rwg (fun f => bits w.toNat f.lo f.w) (rget s.regs.shadow a)) ∧
      u.regs.act = s.regs.act ∧ u.regs.pend = s.regs.pend ∧
      ∀ c, c ≠ 0x1A0034 → rget u.regs.hw c =
        rget (rset s.regs.hw a (r.put .w1c (w1cVal (rget s.regs.hw a) w) (rget s.regs.hw a))) c := by
  intro u
  have hr : (s.burstCut ses a).regs = s.regs := State.burstCut_regs _ _ _
  have ht : ((s.burstCut ses a).putReg a ix r.base r.fields w).regs = { s.regs with
      rw := rset s.regs.rw a (r.put .rw (fun f => bits w.toNat f.lo f.w) (rget s.regs.rw a))
      shadow := rset s.regs.shadow a (r.put .rwg (fun f => bits w.toNat f.lo f.w) (rget s.regs.shadow a))
      hw := rset s.regs.hw a (r.put .w1c (w1cVal (rget s.regs.hw a) w) (rget s.regs.hw a)) } := by
    unfold State.putReg
    simp only [State.onRegs_regs, State.clampWrite_simple hb, hr]
    rfl
  obtain ⟨h1, h2, h3, h4, -, h6⟩ := State.forward_regs
    (((s.burstCut ses a).putReg a ix r.base r.fields w).auditWrite ses a ((s.burstCut ses a).auditVal a r)
      (((s.burstCut ses a).putReg a ix r.base r.fields w).auditNew a r w))
    (.write ((s.burstCut ses a).writer ses).ses ((s.burstCut ses a).writer ses).role a w ((s.burstCut ses a).writeLine a))
  rw [State.auditWrite_regs, ht] at h1 h2 h3 h4 h6
  exact ⟨h1, h2, h3, h4, h6⟩

/-- The fields of a row that a role writes. -/
def RegRow.writable (r : RegRow) (q : Role) : Bool :=
  !r.fields.isEmpty && r.fields.all fun f => decide (f.acc = .rw ∨ f.acc = .rwg ∨ f.acc = .w1c) &&
    f.role.any fun n => covers q n

/-- A simple register whose every field the writer may write takes them all. -/
theorem State.regFx_simple {r : RegRow} (hb : simpleReg r.base = true) {w : Writer} (hw : r.writable w.role = true) (s : State)
    (a : Nat) (ix : List Nat) (d : Word) : s.regFx w false a r ix d = some (s.putReg a ix r.base r.fields d) := by
  simp only [RegRow.writable, Bool.and_eq_true, Bool.not_eq_true', List.all_eq_true] at hw
  obtain ⟨hne, hall⟩ := hw
  have hfs : (r.fields.filter fun f => s.reach w false r.base f && (false || !s.fldShut r.base (ix.headD 0) f)) = r.fields := by
    rw [List.filter_eq_self]
    intro f hf
    obtain ⟨h1, h2⟩ := hall f hf
    obtain ⟨n, hn, hc⟩ := (Option.any_eq_true _ _).mp h2
    simp only [State.reach, State.fldShut, h1, hn, hc, beq_eq_false_iff_ne.mpr (simpleReg_ne hb (n := 0x100100) rfl),
      beq_eq_false_iff_ne.mpr (simpleReg_ne hb (n := 0x1A0000) rfl), beq_eq_false_iff_ne.mpr (simpleReg_ne hb (n := 0x88000) rfl)]
    rfl
  have hshut : s.regShut r.base (ix.headD 0) = false := by
    unfold State.regShut
    simp only [simpleReg_ne hb (n := 0x30010) rfl, simpleReg_ne hb (n := 0x30014) rfl, simpleReg_ne hb (n := 0x88004) rfl,
      simpleReg_ne hb (n := 0x8C1AC) rfl, simpleReg_ne hb (n := 0x160000) rfl, simpleReg_ne hb (n := 0x160100) rfl, false_or, if_false]
  have hafter : ∀ t : State, t.regAfter s r.base ix d = t := fun t => by
    unfold State.regAfter
    simp only [simpleReg_ne hb (n := 0x170100) rfl, simpleReg_ne hb (n := 0x30010) rfl, simpleReg_ne hb (n := 0x30014) rfl,
      simpleReg_ne hb (n := 0x1A0000) rfl, false_or, if_false]
  unfold State.regFx
  simp only [hfs, hne, hshut, State.loShut_simple hb, hafter, simpleReg_ne hb (n := 0x160024) rfl, Bool.not_false, Bool.and_false,
    Bool.or_false, Bool.false_eq_true, if_false]

theorem covers_trans {r q n : Role} (h : covers r q = true) (k : covers q n = true) : covers r n = true := by
  simp only [covers, decide_eq_true_eq] at *
  omega

theorem RegRow.writable_of_covers {r : RegRow} {p q : Role} (h : covers p q = true) (hq : r.writable q = true) :
    r.writable p = true := by
  simp only [RegRow.writable, Bool.and_eq_true, List.all_eq_true] at *
  refine ⟨hq.1, fun f hf => ⟨(hq.2 f hf).1, ?_⟩⟩
  obtain ⟨n, hn, hc⟩ := (Option.any_eq_true _ _).mp (hq.2 f hf).2
  exact (Option.any_eq_true _ _).mpr ⟨n, hn, covers_trans h hc⟩

/-- A session's write of a simple register, by a role that may write its fields, is taken. -/
theorem exec_registerWrite_simple {s : State} {ses : Fin 5} {q : Role} {addr : BitVec 24} {a : Nat} {r : RegRow} {ix : List Nat}
    (ho : s.operates) (hq : s.may ses q = true) (h : s.reaches ses .operator a) (ha : addr.toNat / 4 * 4 = a)
    (hp : plainReg a = true) (hl : localReg a = false) (hr : regAt a = some (r, ix)) (hb : simpleReg r.base = true)
    (hw : r.writable q = true) (w : Word) :
    exec (.registerWrite (.session ses) addr w) s = .next (s.regWritten ses a r ix w) := by
  obtain ⟨role, hrole, hc⟩ := State.may_role hq
  have hwr : ((s.burstCut ses a).writer ses).role = role := by
    unfold State.writer; rw [State.burstCut_role, hrole]; rfl
  have hfx := State.regFx_simple hb (w := (s.burstCut ses a).writer ses) (by rw [hwr]; exact RegRow.writable_of_covers hc hw)
    (s.burstCut ses a) a ix w
  have hcmd := State.regCmd_taken (State.reaches_burstCut h) hr (by rw [State.burstCut_burstCut]; exact hfx) hl
    (State.loShut_simple hb _ ix)
  rw [State.burstCut_burstCut] at hcmd
  change Host.Outcome.next (s.writeAt ses (addr.toNat / 4 * 4) w).settleFaults = _
  rw [ha, State.writeAt_plain ho.1 hp, hcmd]
  exact congrArg _ (s.regWritten_settled ho.2 ses a r ix w)

/-! ### The three registers of O7 -/

/-- No field of a type: the word stays. -/
theorem RegRow.put_none {r : RegRow} {k : Acc} (h : (r.fields.filter fun f => f.acc = k) = []) (val : RegField → Nat) (old : Word) :
    r.put k val old = old := by
  unfold RegRow.put putFields
  rw [h]
  exact BitVec.ofNat_toNat _ _

def gpioOutRow : RegRow := ⟨"PAD_GPIO_OUT", 0x1E0084, [], .none, [⟨0, 32, .rw, some .operator⟩]⟩
def govVminRow : RegRow := ⟨"LTM_GOV_VMIN", 0x11010C, [], .ltmGov, [⟨0, 16, .rwg, some .installer⟩]⟩
def motFlagsRow : RegRow := ⟨"MOT_FLAGS", 0x180030, [(16, 0x200)], .none, (List.range 6).map fun i => ⟨i, 1, .w1c, some .operator⟩⟩

theorem regAt_gpioOut : regAt 0x1E0084 = some (gpioOutRow, []) := by decide +kernel
theorem regAt_govVmin : regAt 0x11010C = some (govVminRow, []) := by decide +kernel
theorem regAt_motFlags : ∀ x : Fin 16, regAt (0x180030 + x.val * 0x200) = some (motFlagsRow, [x.val]) := by decide +kernel
theorem plainReg_motFlags : ∀ x : Fin 16, plainReg (0x180030 + x.val * 0x200) = true := by decide +kernel
theorem localReg_motFlags : ∀ x : Fin 16, localReg (0x180030 + x.val * 0x200) = false := by decide

/-- A field of all 32 bits takes the word written. -/
theorem gpioOut_put (w old : Word) : gpioOutRow.put .rw (fun f => bits w.toNat f.lo f.w) old = w := by
  apply BitVec.eq_of_getLsbD_eq
  intro i hi
  change (BitVec.ofNat 32 (insBits old.toNat 0 32 (bits w.toNat 0 32))).getLsbD i = _
  rw [BitVec.getLsbD_ofNat, testBit_insBits, if_pos (by omega), testBit_bits, decide_eq_true hi]
  simp [hi, BitVec.getLsbD]

/-- A field of the low 16 bits leaves the upper 16. -/
theorem govVmin_put (w old : Word) : govVminRow.put .rwg (fun f => bits w.toNat f.lo f.w) old =
    (old &&& 0xFFFF0000#32) ||| (w &&& 0xFFFF#32) := by
  apply BitVec.eq_of_getLsbD_eq
  intro i hi
  have hm : (0xFFFF0000#32).getLsbD i = decide (16 ≤ i) ∧ (0xFFFF#32).getLsbD i = decide (i < 16) := by
    revert i; decide
  change (BitVec.ofNat 32 (insBits old.toNat 0 16 (bits w.toNat 0 16))).getLsbD i = _
  rw [BitVec.getLsbD_ofNat, testBit_insBits, testBit_bits, BitVec.getLsbD_or, BitVec.getLsbD_and, BitVec.getLsbD_and, hm.1, hm.2]
  by_cases h : i < 16
  · simp [h, hi, BitVec.getLsbD, Nat.not_le.mpr h]
  · simp [h, hi, BitVec.getLsbD, Nat.not_lt.mp h]

/-- One flag: kept where it is not written with 1. -/
theorem testBit_w1cVal (old w : Word) (i : Nat) (q : Option Role) :
    (w1cVal old w ⟨i, 1, .w1c, q⟩).testBit 0 = (old.getLsbD i && !w.getLsbD i) := by
  have hb : ∀ v : Word, bits v.toNat i 1 = (v.getLsbD i).toNat := fun v => by
    unfold bits BitVec.getLsbD
    rw [Nat.toNat_testBit, Nat.shiftRight_eq_div_pow, Nat.pow_one]
  unfold w1cVal
  dsimp only
  rw [hb, hb]
  cases old.getLsbD i <;> cases w.getLsbD i <;> rfl

theorem motFlags_put (w old : Word) (j : Fin 6) :
    (motFlagsRow.put .w1c (w1cVal old w) old).getLsbD j.val = (old.getLsbD j.val && !w.getLsbD j.val) := by
  rw [← testBit_w1cVal old w j.val (some .operator)]
  unfold RegRow.put putFields
  rw [BitVec.getLsbD_ofNat]
  match j with
  | ⟨0, _⟩ | ⟨1, _⟩ | ⟨2, _⟩ | ⟨3, _⟩ | ⟨4, _⟩ | ⟨5, _⟩ =>
    simp [motFlagsRow, testBit_insBits, List.range, List.range.loop, -Nat.testBit_zero]

/-- Settles O7: each of the three registers is simple, so its write is taken, and its fields' access type says the rest. -/
theorem sessionWritesFollowAccessType : Obligations.SessionWritesFollowAccessType := by
  unfold Obligations.SessionWritesFollowAccessType
  intro s ses w ho hm
  refine ⟨fun h => ?_, fun h => ?_, fun x h => ?_⟩
  · obtain ⟨h1, h2, h3, -, -⟩ := State.regWritten_regs (r := gpioOutRow) rfl s ses 0x1E0084 [] w
    refine ⟨_, exec_registerWrite_simple ho hm h rfl (by decide +kernel) (by decide) regAt_gpioOut rfl (by decide) w,
      (State.regWritten_keeps s ses _ _ _ w).sameBut rfl, ?_, fun a ha => ?_, fun a => ?_, h3⟩
    · rw [h1, rget_rset_self, gpioOut_put]
    · rw [h1, rget_rset_ne _ ha]
    · rw [h2, RegRow.put_none rfl, rget_rset]
      split
      · rename_i e; rw [e]
      · rfl
  · obtain ⟨-, h2, h3, h4, -⟩ := State.regWritten_regs (r := govVminRow) rfl s ses 0x11010C [] w
    refine ⟨_, exec_registerWrite_simple ho hm h rfl (by decide +kernel) (by decide) regAt_govVmin rfl (by decide) w,
      (State.regWritten_keeps s ses _ _ _ w).sameBut rfl, ?_, fun a ha => ?_, h3, h4⟩
    · rw [h2, rget_rset_self, govVmin_put]
    · rw [h2, rget_rset_ne _ ha]
  · have hx := x.isLt
    obtain ⟨-, -, -, -, h5⟩ := State.regWritten_regs (r := motFlagsRow) rfl s ses (0x180030 + x.val * 0x200) [x.val] w
    refine ⟨_, exec_registerWrite_simple ho hm h (by simp only [BitVec.toNat_ofNat]; omega) (plainReg_motFlags x)
      (localReg_motFlags x) (regAt_motFlags x) rfl (by decide) w, (State.regWritten_keeps s ses _ _ _ w).sameBut rfl, fun j => ?_⟩
    rw [h5 _ (by omega), rget_rset_self, motFlags_put]

end Sys2Proof.Machine
end

section
/-! A session's read of a register, and obligation O8 (R7, R354). -/
namespace Sys2Proof.Machine

/-! ### What a read answers -/

/-- What a register shows a session: its latched word where the session has one, else the register as it stands (R354). -/
def State.shown (s : State) (ses : Fin 5) (a : Nat) (r : RegRow) (ix : List Nat) : Nat :=
  if s.cfg.sess[ses].latched.contains a then (rget s.cfg.sess[ses].latch a).toNat else s.regWord ses a r ix

/-- The register is none whose reads have an effect or a value of their own. -/
def plainRead (base : Nat) : Bool := !(base == 0x160024) && !freeCount base

/-- A read that is made at once, of a register at an address that responds. -/
structure State.ReadsAt (s : State) (ses : Fin 5) (a : Nat) (r : RegRow) (ix : List Nat) : Prop where
  alive : s.alive = true
  may : s.may ses .operator = true
  awake : (s.inMode .idle && s.sys.cold && coldGated a) = false
  responds : (s.inMode .frozen && !frozenDiag a) = false
  low : a < 0x200000
  row : regAt a = some (r, ix)
  plain : plainRead r.base = true

/-- A read answers the fields the session may read, clears what it has returned of RC fields, and latches HI words. -/
theorem State.sesRead_eq {s : State} {ses : Fin 5} {a : Nat} {r : RegRow} {ix : List Nat} (h : s.ReadsAt ses a r ix) {addr : Nat}
    (ha : addr / 4 * 4 = a) :
    s.sesRead ses addr = ((s.rcClear ses a r ix).latchHi ses (latchesOf r.base a)).onSys fun y => { y with
      resp := BitVec.ofNat 32 (maskFields (r.fields.filter fun f => s.readable ses r.base f) (s.shown ses a r ix)) } := by
  obtain ⟨halive, hmay, hawake, hresp, hlow, hrow, hplain⟩ := h
  simp only [plainRead, Bool.and_eq_true, Bool.not_eq_true', beq_eq_false_iff_ne] at hplain
  have hr : s.regRead ses a r ix = ((s.rcClear ses a r ix).latchHi ses (latchesOf r.base a),
      BitVec.ofNat 32 (maskFields (r.fields.filter fun f => s.readable ses r.base f) (s.shown ses a r ix))) := by
    unfold State.regRead State.shown
    simp only [hplain.1, hplain.2, Bool.false_eq_true, if_false]
  have hat : s.readAt ses a = s.regRead ses a r ix := by
    unfold State.readAt
    simp only [hmay, Nat.mod_eq_of_lt hlow, if_neg (show ¬ 0x400000 ≤ a by omega), Nat.add_zero, hresp, winOf_low (show a < 0x400000 by omega),
      if_neg (Nat.not_le.mpr hlow), hrow, Bool.not_true, Bool.false_eq_true, ne_eq, not_true_eq_false, if_false]
  unfold State.sesRead
  rw [State.live_eq halive]
  simp only [ha, hmay, Bool.true_and, hawake, Bool.false_eq_true, if_false, hat, hr]

/-- A register with no RC field is left as it is. -/
theorem State.rcClear_none {r : RegRow} (h : (r.fields.any fun f => f.acc = .rc) = false) (s : State) (ses : Fin 5) (a : Nat)
    (ix : List Nat) : s.rcClear ses a r ix = s := by
  have hf : (r.fields.filter fun f => decide (f.acc = .rc) && s.readable ses r.base f) = [] := by
    rw [List.filter_eq_nil_iff]
    intro f hf
    rw [Bool.and_eq_true, not_and]
    exact fun hrc => absurd hrc (List.any_eq_false.mp h f hf)
  unfold State.rcClear
  rw [hf]
  rfl

/-- A field that names no role is read by every role (R8). -/
theorem State.readable_all {s : State} {ses : Fin 5} {base : Nat} {l : List RegField} (h : s.may ses .operator = true)
    (hb : auditReg base = false) (hl : ∀ f ∈ l, f.role = none) : (l.filter fun f => s.readable ses base f) = l := by
  rw [List.filter_eq_self]
  intro f hf
  unfold State.readable
  simp only [hl f hf, hb, Bool.false_eq_true, if_false, h]

/-! ### The registers of O8 -/

def reqRejRow : RegRow := ⟨"SYS_REQ_REJ", 0x10C, [], .none, [⟨0, 16, .rc, none⟩]⟩
def gridLoRow : RegRow := ⟨"LTM_GRID_LO", 0x110144, [], .none, [⟨0, 32, .ro, none⟩]⟩
def gridHiRow : RegRow := ⟨"LTM_GRID_HI", 0x110148, [], .none, [⟨0, 16, .ro, none⟩]⟩

theorem regAt_reqRej : regAt 0x10C = some (reqRejRow, []) := by decide +kernel
theorem regAt_gridLo : regAt 0x110144 = some (gridLoRow, []) := by decide +kernel
theorem regAt_gridHi : regAt 0x110148 = some (gridHiRow, []) := by decide +kernel

theorem State.pendAt_none {a : Nat} (h : groupAt a = none) (s : State) : s.pendAt a = 0 := by
  unfold State.pendAt; rw [h]

theorem bits_bits (v lo w : Nat) : bits (bits v lo w) 0 w = bits v lo w := by
  unfold bits; rw [Nat.shiftRight_zero, Nat.mod_mod]

theorem toNat_ofNat_bits {w : Nat} (hw : w ≤ 32) (v lo : Nat) : (BitVec.ofNat 32 (bits v lo w)).toNat = bits v lo w := by
  rw [BitVec.toNat_ofNat]
  exact Nat.mod_eq_of_lt (Nat.lt_of_lt_of_le (bits_lt v lo w) (Nat.pow_le_pow_right (by decide) hw))

/-- The count as it stands: no part of the seat but its register holds it. -/
theorem State.regWord_reqRej (s : State) (ses : Fin 5) : s.regWord ses 0x10C reqRejRow [] = s.f F.SYS_REQ_REJ_COUNT := by
  unfold State.regWord
  rw [State.pendAt_none (by decide +kernel), Nat.or_zero]
  change (0 ||| s.f F.SYS_REQ_REJ_COUNT * 2 ^ 0) ||| 0 = _
  rw [Nat.or_zero, Nat.zero_or, Nat.pow_zero, Nat.mul_one]

theorem State.rcClear_reqRej {s : State} {ses : Fin 5} (h : s.may ses .operator = true) :
    s.rcClear ses 0x10C reqRejRow [] = s.setF F.SYS_REQ_REJ_COUNT 0 := by
  have hf : (reqRejRow.fields.filter fun f => decide (f.acc = .rc) && s.readable ses reqRejRow.base f) = reqRejRow.fields := by
    rw [List.filter_eq_self]
    intro f hf
    obtain rfl := List.mem_singleton.mp hf
    exact (congrArg (true && ·) h).trans rfl
  unfold State.rcClear
  rw [hf]
  rfl

theorem State.regWord_gridLo {s : State} (h : rget s.regs.hw 0x110144 = 0) (ses : Fin 5) :
    s.regWord ses 0x110144 gridLoRow [] = s.ltm.g.toNat % 2 ^ 32 := by
  unfold State.regWord
  rw [State.pendAt_none (by decide +kernel), Nat.or_zero]
  change (0 ||| bits (rget s.regs.hw 0x110144).toNat 0 32 * 2 ^ 0) ||| s.ltm.g.toNat % 2 ^ 32 = _
  rw [h]
  exact Nat.zero_or _

theorem State.regWord_gridHi {s : State} (h : rget s.regs.hw 0x110148 = 0) (ses : Fin 5) :
    s.regWord ses 0x110148 gridHiRow [] = s.ltm.g.toNat / 2 ^ 32 := by
  unfold State.regWord
  rw [State.pendAt_none (by decide +kernel), Nat.or_zero]
  change (0 ||| bits (rget s.regs.hw 0x110148).toNat 0 16 * 2 ^ 0) ||| s.ltm.g.toNat / 2 ^ 32 % 2 ^ 16 = _
  rw [h]
  have hg := s.ltm.g.isLt
  refine (Nat.zero_or _).trans (Nat.mod_eq_of_lt ?_)
  omega

/-- A register of one field from bit 0 that every role reads: the answer is that field. -/
theorem State.answer_single {s : State} {ses : Fin 5} {base w : Nat} {k : Acc} (h : s.may ses .operator = true)
    (hb : auditReg base = false) (v : Nat) :
    maskFields ([⟨0, w, k, none⟩].filter fun f => s.readable ses base f) v = bits v 0 w := by
  rw [State.readable_all h hb (by simp)]
  change 0 ||| bits v 0 w * 2 ^ 0 = _
  rw [Nat.zero_or, Nat.pow_zero, Nat.mul_one]

/-- R7: a read of `SYS_REQ_REJ` answers the count and clears it. -/
theorem State.sesRead_reqRej {s : State} {n : Fin 5} (ha : s.alive = true) (hm : s.may n .operator = true)
    (hl : s.cfg.sess[n].latched.contains 0x10C = false) :
    s.sesRead n 0x10C = (s.setF F.SYS_REQ_REJ_COUNT 0).onSys fun y => { y with
      resp := BitVec.ofNat 32 (s.f F.SYS_REQ_REJ_COUNT) } := by
  have hr : s.ReadsAt n 0x10C reqRejRow [] :=
    ⟨ha, hm, Bool.and_false _, Bool.and_false _, by decide, regAt_reqRej, by decide⟩
  have hs : s.shown n 0x10C reqRejRow [] = s.f F.SYS_REQ_REJ_COUNT := by
    unfold State.shown; rw [hl]; exact s.regWord_reqRej n
  rw [State.sesRead_eq hr rfl, State.rcClear_reqRej hm, hs, show reqRejRow.fields = [⟨0, 16, .rc, none⟩] from rfl,
    State.answer_single hm (by decide)]
  rw [show bits (s.f F.SYS_REQ_REJ_COUNT) 0 16 = s.f F.SYS_REQ_REJ_COUNT from bits_bits _ 0 16]
  rfl

/-- R354: a session with a HI word latched. -/
def Session.latchWord (x : Session) (a v : Nat) : Session :=
  { x with latch := rset x.latch a (BitVec.ofNat 32 v), latched := if x.latched.contains a then x.latched else a :: x.latched }

theorem Session.latchWord_latched (x : Session) (a v : Nat) : (x.latchWord a v).latched.contains a = true := by
  unfold Session.latchWord
  dsimp only
  split
  · assumption
  · rw [List.contains_cons, beq_self_eq_true, Bool.true_or]

/-- R354: a read of `LTM_GRID_LO` answers G[31:0] and latches G[47:32] for the session. -/
theorem State.sesRead_gridLo {s : State} {n : Fin 5} (ha : s.alive = true) (hm : s.may n .operator = true)
    (hf : s.inMode .frozen = false) (hc : s.sys.cold = false) (hl : s.cfg.sess[n].latched.contains 0x110144 = false)
    (hlo : rget s.regs.hw 0x110144 = 0) (hhi : rget s.regs.hw 0x110148 = 0) :
    s.sesRead n 0x110144 = (s.onSes n fun x => x.latchWord 0x110148 (s.ltm.g.toNat / 2 ^ 32)).onSys fun y => { y with
      resp := BitVec.ofNat 32 (s.ltm.g.toNat % 2 ^ 32) } := by
  have hr : s.ReadsAt n 0x110144 gridLoRow [] :=
    ⟨ha, hm, by rw [hc, Bool.and_false, Bool.false_and], by rw [hf, Bool.false_and], by decide, regAt_gridLo, by decide⟩
  have hs : s.shown n 0x110144 gridLoRow [] = s.ltm.g.toNat % 2 ^ 32 := by
    unfold State.shown; rw [hl]; exact s.regWord_gridLo hlo n
  have hn : s.nowWord n 0x110148 = s.ltm.g.toNat / 2 ^ 32 := by
    unfold State.nowWord; rw [regAt_gridHi]; exact s.regWord_gridHi hhi n
  rw [State.sesRead_eq hr rfl, State.rcClear_none rfl, hs, show gridLoRow.fields = [⟨0, 32, .ro, none⟩] from rfl,
    State.answer_single hm (by decide), ← hn]
  rw [show bits (s.ltm.g.toNat % 2 ^ 32) 0 32 = s.ltm.g.toNat % 2 ^ 32 from Nat.mod_mod _ _]
  rfl

/-- A read of `LTM_GRID_HI` answers what it shows the session. -/
theorem State.sesRead_gridHi {s : State} {n : Fin 5} (ha : s.alive = true) (hm : s.may n .operator = true)
    (hf : s.inMode .frozen = false) (hc : s.sys.cold = false) :
    (s.sesRead n 0x110148).sys.resp.toNat = s.shown n 0x110148 gridHiRow [] % 2 ^ 16 := by
  have hr : s.ReadsAt n 0x110148 gridHiRow [] :=
    ⟨ha, hm, by rw [hc, Bool.and_false, Bool.false_and], by rw [hf, Bool.false_and], by decide, regAt_gridHi, by decide⟩
  rw [State.sesRead_eq hr rfl, show gridHiRow.fields = [⟨0, 16, .ro, none⟩] from rfl, State.answer_single hm (by decide)]
  exact toNat_ofNat_bits (by decide) _ 0

/-- G[47:32] has 16 bits. -/
theorem State.gridHi_lt (s : State) : s.ltm.g.toNat / 2 ^ 32 < 2 ^ 16 := by
  have := s.ltm.g.isLt
  omega

theorem runs_readClear {s t : State} {n : Fin 5} {a : BitVec 24} {post : State → Prop} (h : s.sesRead n a.toNat = t) (hp : post t) :
    Runs (.readClear n a) s post := ⟨t, congrArg Host.Outcome.next h, hp⟩

theorem runs_loReadLatch {s t : State} {n : Fin 5} {a : BitVec 24} {post : State → Prop} (h : s.sesRead n a.toNat = t) (hp : post t) :
    Runs (.loReadLatch n a) s post := ⟨t, congrArg Host.Outcome.next h, hp⟩

/-- A session with `LTM_GRID_HI` latched reads the latched value, whatever the register holds. -/
theorem State.shown_latched {u : State} {n : Fin 5} {x : Session} {a v : Nat} (h : u.cfg.sess[n] = x.latchWord a v) (hv : v < 2 ^ 32)
    (r : RegRow) (ix : List Nat) : u.shown n a r ix = v := by
  unfold State.shown
  rw [h, if_pos (x.latchWord_latched a v)]
  unfold Session.latchWord
  rw [rget_rset_self, BitVec.toNat_ofNat, Nat.mod_eq_of_lt hv]

/-- Settles O8: the answers of the three reads, and what they clear and latch. -/
theorem readsClearAndLatch : Obligations.ReadsClearAndLatch := by
  unfold Obligations.ReadsClearAndLatch
  intro s n ho hm
  have hg := s.gridHi_lt
  refine ⟨fun hl => runs_readClear (State.sesRead_reqRej ho.1 hm hl) ⟨?_, rfl, ?_, ?_, fun g hne => ?_⟩,
    fun hf hc hl hlo hhi => runs_loReadLatch (State.sesRead_gridLo ho.1 hm hf hc hl hlo hhi) ⟨?_, ?_, fun u hu hua huf huc => ?_⟩,
    fun hf hc hl hhi => runs_readClear rfl ?_⟩
  · refine Keeps.sameBut (m := 5) (l := [.sys, .regs]) ?_ rfl
    exact State.onSys_keeps _ rfl (State.setF_keeps _ _ rfl (Keeps.refl _ s)) fun _ _ => rfl
  · exact toNat_ofNat_bits (w := 16) (by decide) _ _
  · exact s.f_setF_self F.SYS_REQ_REJ_COUNT 0 (by decide)
  · exact s.f_setF_ne F.SYS_REQ_REJ_COUNT g 0 hne
  · refine Keeps.sameBut (m := 3) (l := [.sys, .cfg]) ?_ rfl
    exact State.onSys_keeps _ rfl (State.onSes_keeps _ _ rfl (Keeps.refl _ s) fun _ _ => rfl) fun _ _ => rfl
  · exact Nat.mod_eq_of_lt (Nat.mod_lt _ (by decide))
  · have hx : u.cfg.sess[n] = s.cfg.sess[n].latchWord 0x110148 (s.ltm.g.toNat / 2 ^ 32) := hu.trans (vmod_self _ _ _)
    have hum : u.may n .operator = true := by
      unfold State.may at hm ⊢
      rw [hx]
      exact hm
    refine runs_readClear rfl ((State.sesRead_gridHi hua hum huf huc).trans ?_)
    rw [State.shown_latched hx (by omega), Nat.mod_eq_of_lt hg]
  · refine (State.sesRead_gridHi ho.1 hm hf hc).trans ?_
    unfold State.shown
    rw [hl, State.regWord_gridHi hhi]
    exact Nat.mod_eq_of_lt hg

end Sys2Proof.Machine
end

section
/-! The table windows: what a word of a window reads after a write, and obligation O33 (R3, R114, R119, R128, R171, R249, R352). -/
namespace Sys2Proof.Machine

/-! ### What a window's word is made of -/

/-- The stored word behind a word of a window, for bar b where the window is a bar's. -/
def State.winCell (s : State) (b : Fin 8) (a : Nat) : Word :=
  match winOf a with
  | 1 => rget s.bars[b].tgt (corrIdx a)
  | 2 => rget s.bars[b].matrix (matIdx a)
  | 3 => rget s.bars[b].tone (toneIdx a)
  | 4 => rget s.lnk.desc (descIdx a)
  | _ => rget s.mot.seg[segAxis a] (segIdx a)

/-- The bits a word of a window holds. -/
def State.winMask (s : State) (b : Fin 8) (a : Nat) : Word :=
  match winOf a with
  | 1 => 0x0FFFFFFF#32
  | 2 => matMask (s.fb (F.HTN_CFG_FMT b.val)) (matIdx a)
  | 3 => 0xFFF#32
  | 4 => descMask (descIdx a % 64)
  | _ => segMask (segIdx a)

/-- The numbers of the windows. -/
theorem winOf_cases (a : Nat) : winOf a = 0 ∨ winOf a = 1 ∨ winOf a = 2 ∨ winOf a = 3 ∨ winOf a = 4 ∨ winOf a = 5 := by
  unfold winOf
  (repeat' split) <;> simp

theorem State.winWord_eq (s : State) (a : Nat) :
    s.winWord a = if s.winHas s.tblBar a then s.winCell s.tblBar a &&& s.winMask s.tblBar a else 0 := by
  unfold State.winWord State.winCell State.winMask
  cases hh : s.winHas s.tblBar a
  · simp only [hh, Bool.not_false, if_true, Bool.false_eq_true, if_false]
  · simp only [hh, Bool.not_true, Bool.false_eq_true, if_false, if_true]
    rcases winOf_cases a with h | h | h | h | h | h <;> simp only [h]

/-- All that a window's words are made of is the same in two states. -/
structure State.SameWin (s t : State) : Prop where
  rw : t.regs.rw = s.regs.rw
  act : t.regs.act = s.regs.act
  desc : t.lnk.desc = s.lnk.desc
  seg : t.mot.seg = s.mot.seg
  bars : t.bars = s.bars

theorem State.f_rw_congr {s t : State} (h : t.regs.rw = s.regs.rw) {f : Fld} (hf : f.acc = .rw) : t.f f = s.f f := by
  unfold State.f State.word
  simp only [hf, h]

theorem State.f_rwg_congr {s t : State} (h : t.regs.act = s.regs.act) {f : Fld} (hf : f.acc = .rwg) : t.f f = s.f f := by
  unfold State.f State.word
  simp only [hf, h]

theorem State.tblBar_congr {s t : State} (h : t.regs.rw = s.regs.rw) : t.tblBar = s.tblBar := by
  unfold State.tblBar
  simp only [State.f_rw_congr h (f := F.NZM_TBL_BAR_BAR) rfl]

theorem State.winMask_congr {s t : State} (h : t.regs.rw = s.regs.rw) (b : Fin 8) (a : Nat) : t.winMask b a = s.winMask b a := by
  unfold State.winMask State.fb
  simp only [State.f_rw_congr h (f := F.HTN_CFG_FMT b.val) rfl]

/-- The heads of a bar follow from the active geometry and the descriptors. -/
theorem State.headsOf_congr {s t : State} (ha : t.regs.act = s.regs.act) (hd : t.lnk.desc = s.lnk.desc) (b : Nat) :
    t.headsOf b = s.headsOf b := by
  have hh : t.headAt b = s.headAt b := by
    funext h
    unfold State.headAt State.htype State.descWord State.fb
    simp only [State.f_rwg_congr ha (f := F.NZM_GEOM_EN b h) rfl, State.f_rwg_congr ha (f := F.NZM_GEOM_TYPE b h) rfl,
      State.f_rwg_congr ha (f := F.NZM_GEOM_START b h) rfl, State.f_rwg_congr ha (f := F.NZM_GEOM_MIRROR b h) rfl, hd]
  unfold State.headsOf
  rw [hh]

/-- Which words a window has: a bar's windows ask for its heads, the others for the address alone. -/
theorem State.winHas_congr {s t : State} {b : Fin 8} {a : Nat} (h : winOf a ≤ 3 → t.headsOf b.val = s.headsOf b.val) :
    t.winHas b a = s.winHas b a := by
  unfold State.winHas State.hasHeads State.cols
  rcases winOf_cases a with e | e | e | e | e | e <;> simp only [e] at h ⊢
  · rw [h (by decide)]
  · rw [h (by decide)]
  · rw [h (by decide)]

theorem State.SameWin.winWord {s t : State} (h : s.SameWin t) (a : Nat) : t.winWord a = s.winWord a := by
  rw [State.winWord_eq, State.winWord_eq, State.tblBar_congr h.rw, State.winHas_congr fun _ => State.headsOf_congr h.act h.desc _,
    State.winMask_congr h.rw]
  unfold State.winCell
  rw [h.bars, h.desc, h.seg]

/-! ### A word put into a window -/

/-- R351: where the windows lie. -/
theorem winOf_range (a : Nat) : (winOf a = 1 → 0x400000 ≤ a) ∧ (winOf a = 2 → 0x480000 ≤ a) ∧ (winOf a = 3 → 0x4C0000 ≤ a) ∧
    (winOf a = 4 → 0x4E0000 ≤ a) := by
  refine ⟨?_, ?_, ?_, ?_⟩ <;> intro h <;> unfold winOf at h <;> (repeat' split at h) <;> omega

/-- Two words of an axis' table have two places in it. -/
theorem segIdx_ne {a c : Nat} (ha : a % 4 = 0) (hc : c % 4 = 0) (h : c ≠ a) (ha1 : 0x500000 ≤ a) (ha2 : a < 0x540000)
    (hc1 : 0x500000 ≤ c) (hc2 : c < 0x540000) (hx : segAxis c = segAxis a) : segIdx c ≠ segIdx a := by
  have hv : (c - 0x500000) / 0x4000 % 16 = (a - 0x500000) / 0x4000 % 16 := congrArg Fin.val hx
  unfold segIdx
  omega

theorem State.columnWritten_bars (s : State) (b : Fin 8) (col : Nat) : (s.columnWritten b col).bars = s.bars := rfl

/-- R114, R119, R128: each of a bar's windows writes its own table of the bar and leaves the other two. -/
theorem State.winPut_bar (s : State) (b : Fin 8) (a : Nat) (w : Word) :
    (s.winPut b a w).bars[b].tgt =
        (if winOf a = 1 then rset s.bars[b].tgt (corrIdx a) (w &&& s.winMask b a) else s.bars[b].tgt) ∧
      (s.winPut b a w).bars[b].matrix =
        (if winOf a = 2 then rset s.bars[b].matrix (matIdx a) (w &&& s.winMask b a) else s.bars[b].matrix) ∧
      (s.winPut b a w).bars[b].tone =
        (if winOf a = 3 then rset s.bars[b].tone (toneIdx a) (w &&& s.winMask b a) else s.bars[b].tone) := by
  unfold State.winPut State.winMask
  rcases winOf_cases a with e | e | e | e | e | e <;>
    simp [e, State.columnWritten_bars, Bar.winPut, Bar.mark, -Fin.getElem_fin]

theorem State.winPut_desc (s : State) (b : Fin 8) (a : Nat) (w : Word) : (s.winPut b a w).lnk.desc =
    if winOf a = 4 then rset s.lnk.desc (descIdx a) (w &&& s.winMask b a) else s.lnk.desc := by
  unfold State.winPut State.winMask
  rcases winOf_cases a with e | e | e | e | e | e <;> simp only [e] <;> rfl

theorem State.winPut_seg (s : State) (b : Fin 8) {a : Nat} (w : Word) (h : winOf a ≠ 0) : (s.winPut b a w).mot.seg =
    if winOf a = 5 then vmod s.mot.seg (segAxis a) fun t => rset t (segIdx a) (w &&& s.winMask b a) else s.mot.seg := by
  unfold State.winPut State.winMask
  rcases (winOf_cases a).resolve_left h with e | e | e | e | e <;> simp only [e] <;> rfl

theorem State.winPut_regs (s : State) (b : Fin 8) (a : Nat) (w : Word) : (s.winPut b a w).regs = s.regs :=
  (State.winPut_keeps (msk := 10528) b a w rfl (Keeps.refl _ s)).parts .regs rfl

/-- A write of one place of one map leaves every other place of every map. -/
theorem rget_vmod_rset {n : Nat} (v : Vector RegMap n) {i j : Fin n} {k l : Nat} (x : Word) (h : j = i → l ≠ k) :
    rget (vmod v i fun t => rset t k x)[j] l = rget v[j] l := by
  by_cases e : j = i
  · subst e
    rw [vmod_self, rget_rset_ne _ (h rfl)]
  · rw [vmod_ne _ _ e]

/-- A word put into a window is kept, cut to its bits. -/
theorem State.winPut_cell (s : State) (b : Fin 8) {a : Nat} (w : Word) (h : winOf a ≠ 0) :
    (s.winPut b a w).winCell b a = w &&& s.winMask b a := by
  obtain ⟨htgt, hmatrix, htone⟩ := s.winPut_bar b a w
  unfold State.winCell
  rcases (winOf_cases a).resolve_left h with e | e | e | e | e <;> simp only [e]
  · rw [htgt, if_pos e, rget_rset_self]
  · rw [hmatrix, if_pos e, rget_rset_self]
  · rw [htone, if_pos e, rget_rset_self]
  · rw [s.winPut_desc b a w, if_pos e, rget_rset_self]
  · rw [s.winPut_seg b w h, if_pos e, vmod_self, rget_rset_self]

/-- Every other word of the windows is kept as it was. -/
theorem State.winPut_cell_ne (s : State) (b : Fin 8) {a c : Nat} (w : Word) (h : winOf a ≠ 0) (ha : a % 4 = 0) (hc : c % 4 = 0)
    (hne : c ≠ a) (hha : s.winHas b a = true) (hhc : s.winHas b c = true) : (s.winPut b a w).winCell b c = s.winCell b c := by
  obtain ⟨htgt, hmatrix, htone⟩ := s.winPut_bar b a w
  obtain ⟨a1, a2, a3, a4⟩ := winOf_range a
  obtain ⟨c1, c2, c3, c4⟩ := winOf_range c
  unfold State.winCell
  rcases winOf_cases c with e | e | e | e | e | e <;> simp only [e]
  · unfold State.winHas at hhc
    simp [e] at hhc
  · rw [htgt]
    split
    · rename_i f
      have := a1 f; have := c1 e
      exact rget_rset_ne _ (by unfold corrIdx; omega) _
    · rfl
  · rw [hmatrix]
    split
    · rename_i f
      have := a2 f; have := c2 e
      exact rget_rset_ne _ (by unfold matIdx; omega) _
    · rfl
  · rw [htone]
    split
    · rename_i f
      have := a3 f; have := c3 e
      exact rget_rset_ne _ (by unfold toneIdx; omega) _
    · rfl
  · rw [s.winPut_desc b a w]
    split
    · rename_i f
      have := a4 f; have := c4 e
      exact rget_rset_ne _ (by unfold descIdx; omega) _
    · rfl
  · rw [s.winPut_seg b w h]
    split
    · rename_i f
      unfold State.winHas at hha hhc
      simp only [e, f, Bool.and_eq_true, decide_eq_true_eq] at hha hhc
      exact rget_vmod_rset _ _ (segIdx_ne ha hc hne hha.1 hha.2 hhc.1 hhc.2)
    · rfl

/-- The words a window has stay those it had, but for the bars' words where a descriptor is written. -/
theorem State.winPut_winHas (s : State) (b d : Fin 8) {a c : Nat} (w : Word) (h : winOf a = 4 → 4 ≤ winOf c) :
    (s.winPut b a w).winHas d c = s.winHas d c := by
  refine State.winHas_congr fun hc => State.headsOf_congr (by rw [State.winPut_regs]) ?_ _
  rw [State.winPut_desc, if_neg (by omega)]

/-- What was put into a window is what it reads, cut to its bits. -/
theorem State.winPut_winWord {s : State} {a : Nat} (w : Word) (h : winOf a ≠ 0) (hh : s.winHas s.tblBar a = true) :
    (s.winPut s.tblBar a w).winWord a = w &&& s.winMask s.tblBar a := by
  have hr : (s.winPut s.tblBar a w).regs.rw = s.regs.rw := by rw [State.winPut_regs]
  rw [State.winWord_eq, State.tblBar_congr hr, State.winPut_winHas s s.tblBar _ w (fun e => e ▸ Nat.le_refl _), if_pos hh,
    State.winPut_cell s s.tblBar w h, State.winMask_congr hr, BitVec.and_assoc, BitVec.and_self]

/-- Every other word reads as before. -/
theorem State.winPut_winWord_ne {s : State} {a c : Nat} (w : Word) (h : winOf a ≠ 0) (ha : a % 4 = 0) (hc : c % 4 = 0) (hne : c ≠ a)
    (hh : s.winHas s.tblBar a = true) (hw : winOf a = 4 → 4 ≤ winOf c) : (s.winPut s.tblBar a w).winWord c = s.winWord c := by
  have hr : (s.winPut s.tblBar a w).regs.rw = s.regs.rw := by rw [State.winPut_regs]
  rw [State.winWord_eq, State.winWord_eq, State.tblBar_congr hr, State.winPut_winHas s s.tblBar _ w hw, State.winMask_congr hr]
  split
  · rename_i hhc
    rw [State.winPut_cell_ne s s.tblBar w h ha hc hne hh hhc]
  · rfl

/-! ### A session's write of a window -/

/-- A burst cut off changes CFG, which no window asks. -/
theorem State.burstCut_onCfg (s : State) (ses : Fin 5) (a : Nat) : ∃ f, s.burstCut ses a = s.onCfg f := by
  unfold State.burstCut State.endBurst State.audit
  split
  · exact ⟨id, rfl⟩
  · split
    · exact ⟨id, rfl⟩
    · dsimp only
      split <;> exact ⟨fun _ => _, rfl⟩

theorem State.winFx_none {s : State} (wr : Writer) {a : Nat} (w : Word) (h : s.winShut s.tblBar a = true ∨ s.winHas s.tblBar a = false) :
    s.winFx wr a w = none := by
  unfold State.winFx
  exact if_pos (by rcases h with h | h <;> simp [h])

/-- R119: a correction entry of a bar with a job bound waits. -/
theorem State.winFx_wait {s : State} (wr : Writer) {a : Nat} (w : Word) (hs : s.winShut s.tblBar a = false)
    (hh : s.winHas s.tblBar a = true) (h1 : winOf a = 1) (hb : s.boundOn s.tblBar.val = true) :
    s.winFx wr a w = some (s.onBar s.tblBar fun x => { x with winQ := x.winQ ++ [(corrIdx a, w, wr.ses, wr.role)] }) := by
  unfold State.winFx
  simp only [hs, hh, h1, hb, Bool.not_true, Bool.or_false, Bool.false_eq_true, if_false, and_self, if_true]

theorem State.winFx_put {s : State} (wr : Writer) {a : Nat} (w : Word) (hs : s.winShut s.tblBar a = false)
    (hh : s.winHas s.tblBar a = true) (hb : winOf a = 1 → s.boundOn s.tblBar.val = false) :
    ∃ x line, s.winFx wr a w = some ((s.winPut s.tblBar a w).fwdBy wr x w line) := by
  have hnb : ¬ (winOf a = 1 ∧ s.boundOn s.tblBar.val = true) := fun ⟨h1, h2⟩ => by
    rw [hb h1] at h2
    exact Bool.false_ne_true h2
  refine ⟨if barWin a then winAddr s.tblBar a else a, s.lineOf (if barWin a then s.tblBar.val else 0), ?_⟩
  unfold State.winFx
  simp only [hs, hh, hnb, Bool.not_true, Bool.or_false, Bool.false_eq_true, if_false]

/-- A window's row with an address of that window, by a write that reaches it, is decided by the window. -/
theorem State.winRow_eq {s : State} {ses : Fin 5} {n a : Nat} {addr : BitVec 24} (ha : addr.toNat / 4 * 4 = a) (hn : winOf a = n)
    (h : s.reaches ses (winRole a) a) (w : Word) :
    s.winRow ses n addr w = (((s.burstCut ses a).winFx ((s.burstCut ses a).writer ses) a w).map fun t => t.burstWrite ses a w).getD
      (s.burstCut ses a) := by
  subst ha
  unfold State.winRow State.winCmd State.winWrite
  rw [if_pos hn, State.sesReach_eq h]
  dsimp only
  cases (s.burstCut ses (addr.toNat / 4 * 4)).winFx ((s.burstCut ses (addr.toNat / 4 * 4)).writer ses) (addr.toNat / 4 * 4) w <;> rfl

/-- What a window's command asks of the seat is not changed by the end of a burst. -/
theorem State.burstCut_win (s : State) (ses : Fin 5) (a : Nat) : (s.burstCut ses a).tblBar = s.tblBar ∧
    (∀ b, (s.burstCut ses a).winShut b a = s.winShut b a ∧ (s.burstCut ses a).winHas b a = s.winHas b a ∧
      (s.burstCut ses a).boundOn b.val = s.boundOn b.val ∧ (s.burstCut ses a).winMask b a = s.winMask b a) ∧
    s.SameWin (s.burstCut ses a) := by
  obtain ⟨f, hf⟩ := s.burstCut_onCfg ses a
  rw [hf]
  exact ⟨rfl, fun b => ⟨rfl, rfl, rfl, rfl⟩, ⟨rfl, rfl, rfl, rfl, rfl⟩⟩

/-- A word's forwarded copy and its place in the session's burst change nothing a window asks. -/
theorem State.sameWin_sent (s : State) (wr : Writer) (x : Nat) (w : Word) (line : Nat) (ses : Fin 5) (a : Nat) :
    s.SameWin ((s.fwdBy wr x w line).burstWrite ses a w) := by
  have hk : Keeps 16390 s ((s.fwdBy wr x w line).burstWrite ses a w) :=
    State.burstWrite_keeps _ _ _ rfl (State.fwdBy_keeps _ _ _ _ rfl (Keeps.refl _ _))
  have hb : ((s.fwdBy wr x w line).burstWrite ses a w).regs = (s.fwdBy wr x w line).regs :=
    (State.burstWrite_keeps (msk := 2) ses a w rfl (Keeps.refl _ (s.fwdBy wr x w line))).parts .regs rfl
  obtain ⟨hrw, -, hact, -⟩ := State.forward_regs s (.write wr.ses wr.role x w line)
  exact ⟨(congrArg Regs.rw hb).trans hrw, (congrArg Regs.act hb).trans hact, congrArg Lnk.desc (hk.parts .lnk rfl),
    congrArg Mot.seg (hk.parts .mot rfl), hk.parts .bars rfl⟩

/-- Command i is a write of word w at address a, in window n, that the window decides. -/
structure WinWrites (s : State) (ses : Fin 5) (a : Nat) (w : Word) (n : Nat) (i : Instr) : Prop where
  runs : exec i s = .next ((((s.burstCut ses a).winFx ((s.burstCut ses a).writer ses) a w).map fun t => t.burstWrite ses a w).getD
    (s.burstCut ses a))
  aligned : a % 4 = 0
  num : winOf a = n
  pos : n ≠ 0

section
variable {s : State} {ses : Fin 5} {a n : Nat} {w : Word} {i : Instr}

/-- A word the window takes is what it then reads, cut to its bits, and every other word reads as before. -/
theorem WinWrites.put (h : WinWrites s ses a w n i) (hs : s.winShut s.tblBar a = false) (hh : s.winHas s.tblBar a = true)
    (hb : n = 1 → s.boundOn s.tblBar.val = false) :
    Runs i s fun t => s.sameBut t [.cfg, .regs, .bars, .lnk, .chl, .mot, .tbl] ∧ t.winWord a = w &&& s.winMask s.tblBar a ∧
      ∀ c, c % 4 = 0 → c ≠ a → (n = 4 → 4 ≤ winOf c) → t.winWord c = s.winWord c := by
  obtain ⟨hruns, hal, hnum, hpos⟩ := h
  subst hnum
  obtain ⟨hbar, hwin, hsame⟩ := s.burstCut_win ses a
  have hk : Keeps 26918 s (s.burstCut ses a) := State.burstCut_keeps ses a rfl (Keeps.refl _ s)
  generalize s.burstCut ses a = c at *
  generalize s.tblBar = b at *
  subst hbar
  obtain ⟨w1, w2, w3, w4⟩ := hwin c.tblBar
  obtain ⟨x, line, hfx⟩ := State.winFx_put (c.writer ses) w (w1.trans hs) (w2.trans hh) fun e => w3.trans (hb e)
  rw [hfx] at hruns
  have hsent := State.sameWin_sent (c.winPut c.tblBar a w) (c.writer ses) x w line ses a
  refine ⟨_, hruns, Keeps.sameBut (m := 26918) (l := [.cfg, .regs, .bars, .lnk, .chl, .mot, .tbl]) ?_ rfl, ?_,
    fun d hd hne h4 => ?_⟩
  · exact State.burstWrite_keeps _ _ _ rfl (State.fwdBy_keeps _ _ _ _ rfl (State.winPut_keeps _ _ _ rfl hk))
  · exact (hsent.winWord a).trans ((State.winPut_winWord w hpos (w2.trans hh)).trans (by rw [w4]))
  · exact (hsent.winWord d).trans ((State.winPut_winWord_ne w hpos hal hd hne (w2.trans hh) h4).trans (hsame.winWord d))

/-- R119: a correction entry of a bar with a job bound waits for the bar's next line. -/
theorem WinWrites.wait (h : WinWrites s ses a w n i) {b : Fin 8} (hbar : s.tblBar = b) (h1 : n = 1) (hs : s.winShut b a = false)
    (hh : s.winHas b a = true) (hb : s.boundOn b.val = true) :
    Runs i s fun t => s.sameBut t [.cfg, .bars] ∧
      t.bars[b].winQ = s.bars[b].winQ ++ [(corrIdx a, w, ses.val, (s.roleOf ses).getD .operator)] := by
  obtain ⟨hruns, -, hnum, -⟩ := h
  obtain ⟨hbar', hwin, hsame⟩ := s.burstCut_win ses a
  have hk : Keeps 34 s (s.burstCut ses a) := State.burstCut_keeps ses a rfl (Keeps.refl _ s)
  have hrole := s.burstCut_role ses ses a
  generalize s.burstCut ses a = c at *
  obtain rfl := hbar'.trans hbar
  obtain ⟨w1, w2, w3, -⟩ := hwin c.tblBar
  rw [State.winFx_wait (c.writer ses) w (w1.trans hs) (w2.trans hh) (hnum.trans h1) (w3.trans hb)] at hruns
  refine ⟨_, hruns, Keeps.sameBut (m := 34) (l := [.cfg, .bars]) ?_ rfl, ?_⟩
  · exact State.burstWrite_keeps _ _ _ rfl (State.onBar_keeps _ _ rfl hk)
  · have hbars : ∀ y : State, (y.burstWrite ses a w).bars = y.bars := fun y =>
      (State.burstWrite_keeps (msk := 2) ses a w rfl (Keeps.refl _ y)).parts .bars rfl
    change ((c.onBar c.tblBar _).burstWrite ses a w).bars[c.tblBar].winQ = _
    rw [hbars, State.onBar_bars, vmod_self, ← hsame.bars, ← hrole]
    rfl

/-- A shut window ignores a write, and so does a word that is not there. -/
theorem WinWrites.ignored (h : WinWrites s ses a w n i) (hx : s.winShut s.tblBar a = true ∨ s.winHas s.tblBar a = false) :
    exec i s = .next (s.burstCut ses a) := by
  obtain ⟨hbar, hwin, -⟩ := s.burstCut_win ses a
  obtain ⟨w1, w2, -, -⟩ := hwin (s.burstCut ses a).tblBar
  rw [h.runs, State.winFx_none _ w (by rw [w1, w2, hbar]; exact hx)]
  rfl

end

/-- Settles O33: each of the five commands is a write that its window decides. -/
theorem windowsHoldTheirBits : Obligations.WindowsHoldTheirBits := by
  unfold Obligations.WindowsHoldTheirBits
  intro s ses addr w ho a mask x hx hn hr
  simp only [List.mem_cons, List.not_mem_nil, or_false] at hx
  have hmask : mask x.1 = s.winMask s.tblBar a := by
    unfold State.winMask
    rcases hx with rfl | rfl | rfl | rfl | rfl <;> rw [hn] <;> rfl
  have hrow : exec x.2 s = .next (s.winRow ses x.1 addr w) ∧ x.1 ≠ 0 := by
    rcases hx with rfl | rfl | rfl | rfl | rfl <;> exact ⟨rfl, Nat.succ_ne_zero _⟩
  have hw : WinWrites s ses a w x.1 x.2 :=
    ⟨hrow.1.trans (congrArg _ (State.winRow_eq rfl hn hr w)), Nat.mul_mod_left _ _, hn, hrow.2⟩
  refine ⟨fun hs hh hb => ?_, fun h1 hs hh hb => hw.wait rfl h1 hs hh hb, hw.ignored⟩
  rw [hmask]
  exact hw.put hs hh hb

end Sys2Proof.Machine
end

section
/-! Corrections on their way to the table in force, and obligation O32 (R120, R121). -/
namespace Sys2Proof.Machine

/-! ### A block of a correction table -/

theorem mem_blockCols {cols blk c : Nat} : c ∈ blockCols cols blk ↔ c / 1024 = blk ∧ c < cols := by
  simp only [blockCols, upto, List.mem_filter, List.mem_map, List.mem_range, decide_eq_true_eq, and_congr_left_iff]
  intro _
  constructor
  · rintro ⟨i, hi, rfl⟩
    omega
  · rintro rfl
    exact ⟨c % 1024, Nat.mod_lt c (by decide), Nat.div_add_mod' c 1024⟩

theorem blockCols_nodup (cols blk : Nat) : (blockCols cols blk).Nodup :=
  List.Pairwise.filter _ (List.Pairwise.map _ (fun _ _ hne h => hne (Nat.add_left_cancel h)) List.nodup_range)

/-- A map of which the listed indexes, each once, are changed by `f`. -/
theorem rget_foldl_rset (f : Nat → Word → Word) (c : Nat) : ∀ (l : List Nat) (m : RegMap), l.Nodup →
    rget (l.foldl (fun m a => rset m a (f a (rget m a))) m) c = if c ∈ l then f c (rget m c) else rget m c
  | [], _, _ => rfl
  | a :: l, m, h => by
    obtain ⟨ha, hl⟩ := List.nodup_cons.mp h
    rw [List.foldl_cons, rget_foldl_rset f c l _ hl]
    by_cases hc : c = a
    · subst hc
      rw [if_neg ha, rget_rset_self, if_pos List.mem_cons_self]
    · simp only [rget_rset_ne m hc, List.mem_cons, hc, false_or]

/-- The columns of a block merged from `v` into a table, every other column left. -/
theorem rget_mergeBlock (v m : RegMap) (cols blk c : Nat) :
    rget ((blockCols cols blk).foldl (fun m c => rset m c (eMerge (rget m c) (rget v c))) m) c =
      if c / 1024 = blk ∧ c < cols then eMerge (rget m c) (rget v c) else rget m c := by
  rw [rget_foldl_rset (fun a w => eMerge w (rget v a)) c _ m (blockCols_nodup cols blk)]
  simp only [mem_blockCols]

/-! ### The bar's two ways to the table in force -/

/-- R120: a visit's results reach the columns of its block. -/
theorem Bar.writeback_inf (x : Bar) (cols : Nat) (f : Flight) (c : Nat) : rget (x.writeback cols f).inf c =
    if c / 1024 = f.block ∧ c < cols then eMerge (rget x.inf c) (rget f.vals c) else rget x.inf c := by
  simp only [Bar.writeback, rget_mergeBlock]

@[simp] theorem Bar.writeback_tgt (x : Bar) (cols : Nat) (f : Flight) : (x.writeback cols f).tgt = x.tgt := by
  unfold Bar.writeback
  rfl

@[simp] theorem Bar.writeback_flight (x : Bar) (cols : Nat) (f : Flight) : (x.writeback cols f).flight = x.flight.drop 1 := by
  unfold Bar.writeback
  rfl

@[simp] theorem Bar.takeTarget_tgt (x : Bar) (cols blk : Nat) : (x.takeTarget cols blk).tgt = x.tgt := by
  unfold Bar.takeTarget
  split <;> rfl

/-- R121: a dirty block takes its target. -/
theorem Bar.takeTarget_inf {x : Bar} {blk : Nat} (h : x.dirty.contains blk = true) (cols c : Nat) : rget (x.takeTarget cols blk).inf c =
    if c / 1024 = blk ∧ c < cols then eMerge (rget x.inf c) (rget x.tgt c) else rget x.inf c := by
  simp only [Bar.takeTarget, h, if_true, rget_mergeBlock]

/-- R121: a block that took its target is dirty no more. -/
theorem Bar.takeTarget_clean (x : Bar) (cols blk : Nat) : (x.takeTarget cols blk).dirty.contains blk = false := by
  unfold Bar.takeTarget
  split
  · simp
  · exact Bool.eq_false_iff.mpr ‹_›

/-! ### The two commands -/

@[simp] theorem State.settleBar_bars (s : State) (b : Fin 8) : (s.settleBar b).bars = s.bars := rfl

/-- A command changes nothing but the parts it names. -/
theorem exec_sameBut {c : Instr} {s t : State} (h : exec c s = .next t) : s.sameBut t (touched c) :=
  (exec_keeps h).sameBut (Nat.and_self _)

theorem exec_slewerWriteback {s : State} (h : s.alive = true) (b : Fin 8) :
    exec (.slewerWriteback b) s = .next ((s.slewerWriteback b).settleBar b) :=
  congrArg Host.Outcome.next (State.live_eq h _)

theorem exec_idleTableUpdate {s : State} (h : s.alive = true) (b : Fin 8) (k : Nat) : exec (.idleTableUpdate b k) s =
    .next (s.when (!s.boundOn b.val) fun s => (s.onBar b fun x => x.takeTarget (s.cols b.val) k).settleBar b) :=
  congrArg Host.Outcome.next (State.live_eq h _)

section
variable {s : State} {b : Fin 8} {f : Flight} {rest : List Flight} {n : Nat}

/-- R120: on a bar with a job bound the oldest visit's results apply once their line is not ahead. -/
theorem State.slewerWriteback_due (hf : s.bars[b].flight = f :: rest) (hn : s.nextPrint b = some n) (hd : lineBefore n f.due = false)
    (hb : s.boundOn b.val = true) : s.slewerWriteback b = s.onBar b fun x => x.writeback (s.cols b.val) f := by
  unfold State.slewerWriteback
  simp only [hf, hn, hd, hb, Bool.not_false, Bool.and_self, if_true]

/-- R120: before their line they wait. -/
theorem State.slewerWriteback_early (hf : s.bars[b].flight = f :: rest) (hn : s.nextPrint b = some n)
    (hd : lineBefore n f.due = true) : s.slewerWriteback b = s := by
  unfold State.slewerWriteback
  simp only [hf, hn, hd, Bool.not_true, Bool.false_and, Bool.false_eq_true, if_false]

end

/-- A bar changed, and what settled on it given its settle line: the bar is as changed, every other bar as it was. -/
theorem State.onBar_settleBar_bars (s : State) (b : Fin 8) (g : Bar → Bar) :
    ((s.onBar b g).settleBar b).bars[b] = g s.bars[b] ∧ ∀ x : Fin 8, x ≠ b → ((s.onBar b g).settleBar b).bars[x] = s.bars[x] := by
  rw [State.settleBar_bars, State.onBar_bars]
  exact ⟨vmod_self _ _ _, fun _ h => vmod_ne _ _ h⟩

/-- Settles O32: both ways merge a block into the table in force, and what settles changes no bar. -/
theorem correctionsReachTheTable : Obligations.CorrectionsReachTheTable := by
  unfold Obligations.CorrectionsReachTheTable
  intro s b ⟨hs, _⟩
  refine ⟨fun f rest n hf hn hd hb => ?due, fun f rest n hf hn hd => ?early, fun k => ⟨fun hb hk => ?idle, fun hb => ?bound⟩⟩
  case due =>
    have he := exec_slewerWriteback hs b
    rw [State.slewerWriteback_due hf hn hd hb] at he
    obtain ⟨hbar, hother⟩ := s.onBar_settleBar_bars b fun x => x.writeback (s.cols b.val) f
    refine ⟨_, he, exec_sameBut he, ?_, ?_, fun c hc hlt => ?_, fun c hc => ?_, hother⟩ <;> rw [hbar]
    · rw [Bar.writeback_flight, hf]
      rfl
    · rw [Bar.writeback_tgt]
    · rw [Bar.writeback_inf, if_pos ⟨hc, hlt⟩]
    · rw [Bar.writeback_inf, if_neg fun h => hc h.1]
  case early =>
    have he := exec_slewerWriteback hs b
    rw [State.slewerWriteback_early hf hn hd] at he
    exact ⟨_, he, (State.settleBar_keeps (msk := 2048) b rfl (Keeps.refl _ s)).sameBut rfl⟩
  case idle =>
    have he := exec_idleTableUpdate hs b k
    rw [State.when_eq (by rw [hb]; rfl)] at he
    obtain ⟨hbar, hother⟩ := s.onBar_settleBar_bars b fun x => x.takeTarget (s.cols b.val) k
    refine ⟨_, he, exec_sameBut he, ?_, ?_, fun c hc hlt => ?_, hother⟩ <;> rw [hbar]
    · rw [Bar.takeTarget_clean]
    · rw [Bar.takeTarget_tgt]
    · rw [Bar.takeTarget_inf hk, if_pos ⟨hc, hlt⟩]
  case bound =>
    rw [exec_idleTableUpdate hs, State.when_not (by rw [hb]; rfl)]

end Sys2Proof.Machine
end

section
/-! Encoder channels: what one change of a channel leaves, its commands, and obligation O36 (R138, R139, R142, R291). -/
namespace Sys2Proof.Machine

/-! ### One channel changed -/

/-- An element that `f` leaves as it is leaves the vector as it is. -/
theorem vmod_fixed {α : Type} {n : Nat} {v : Vector α n} {i : Fin n} {f : α → α} (h : f v[i] = v[i]) : vmod v i f = v := by
  unfold vmod
  rw [h]
  exact Vector.set_getElem_self _

@[simp] theorem State.onCh_ch (s : State) (ch : Fin 4) (f : EncCh → EncCh) : (s.onCh ch f).enc.ch = vmod s.enc.ch ch f := rfl

@[simp] theorem State.onCh_regs (s : State) (ch : Fin 4) (f : EncCh → EncCh) : (s.onCh ch f).regs = s.regs := rfl

theorem State.onCh_self (s : State) (ch : Fin 4) (f : EncCh → EncCh) : (s.onCh ch f).enc.ch[ch] = f s.enc.ch[ch] := vmod_self _ _ _

theorem State.onCh_ne (s : State) {ch i : Fin 4} (f : EncCh → EncCh) (h : i ≠ ch) : (s.onCh ch f).enc.ch[i] = s.enc.ch[i] :=
  vmod_ne _ _ h

/-- A channel that `f` leaves as it is leaves the seat as it is. -/
theorem State.onCh_fixed {s : State} {ch : Fin 4} {f : EncCh → EncCh} (h : f s.enc.ch[ch] = s.enc.ch[ch]) : s.onCh ch f = s := by
  unfold State.onCh State.onEnc
  dsimp only
  rw [vmod_fixed h]

theorem State.onCh_enc_congr {s t : State} (h : t.enc = s.enc) (ch : Fin 4) (f : EncCh → EncCh) :
    (t.onCh ch f).enc = (s.onCh ch f).enc := by
  unfold State.onCh
  rw [State.onEnc_enc, State.onEnc_enc, h]

/-- R143: a jump goes to the web position and to no channel. -/
@[simp] theorem State.webJump_ch (s : State) (ch : Fin 4) (d : Int) : (s.webJump ch d).enc.ch = s.enc.ch := by
  unfold State.webJump
  split <;> rfl

/-- R139: POS_SET puts the position at the preset. -/
theorem State.posSet_pos (s : State) (ch : Fin 4) : (s.posSet ch).enc.ch[ch].pos = (s.encSet ch.val).preset := by
  unfold State.posSet
  rw [State.webJump_ch, State.onCh_ch, vmod_self]
  unfold EncCh.pos
  dsimp only
  omega

theorem State.posSet_ref (s : State) (ch : Fin 4) : (s.posSet ch).enc.ch[ch].ref = true := by
  unfold State.posSet
  rw [State.webJump_ch, State.onCh_ch, vmod_self]

theorem State.posSet_ne (s : State) {ch i : Fin 4} (h : i ≠ ch) : (s.posSet ch).enc.ch[i] = s.enc.ch[i] := by
  unfold State.posSet
  rw [State.webJump_ch, State.onCh_ne _ _ h]

/-- R139, R143: POS_SET on the primary that feeds the web position moves it by the same jump. -/
theorem State.posSet_pweb {s : State} {ch : Fin 4} (hact : s.enc.act = ch) (halt : s.enc.onAlt = false) (hlost : s.enc.lost = false) :
    (s.posSet ch).enc.pweb = s.enc.pweb + ((s.encSet ch.val).preset - s.enc.ch[ch].pos) := by
  unfold State.posSet State.webJump
  exact congrArg Enc.pweb (congrArg State.enc (if_pos ⟨hact, by simp [State.onCh, halt], by simp [State.onCh, hlost]⟩))

/-- R139: ARM. -/
theorem State.encFx_arm (s : State) (ch : Fin 4) : s.encFx ch 1 = s.onCh ch fun x => { x with armed := true } := rfl

/-- R139: POS_SET of an enabled channel. -/
theorem State.encFx_posSet {s : State} {ch : Fin 4} (h : s.fb (F.ENC_CFG_EN ch.val) = true) : s.encFx ch 2 = s.posSet ch :=
  State.when_eq h _

theorem State.encFx_disabled {s : State} {ch : Fin 4} (h : s.fb (F.ENC_CFG_EN ch.val) = false) : s.encFx ch 2 = s :=
  State.when_not h _

/-! ### A write of `ENC_CMD` -/

/-- A command of the channel as a seat records it, which forwards it first if it is no standby (`own`). -/
def State.encSent (s : State) (own : Bool) (ses : Fin 5) (ch : Fin 4) (w : Word) : State :=
  (s.when own fun s => s.fwdWrite ses (encCmdAddr ch) (w &&& 3#32)).auditWrite ses (encCmdAddr ch) 0 w.toNat

theorem State.encSent_keeps {m : Nat} {sb s : State} (own : Bool) (ses : Fin 5) (ch : Fin 4) (w : Word) (hm : Sub 16390 m)
    (h : Keeps m sb s) : Keeps m sb (s.encSent own ses ch w) :=
  State.auditWrite_keeps _ _ _ _ (Sub.of 16390 rfl hm)
    (State.when_keeps _ _ (fun _ hx => State.fwdWrite_keeps _ _ _ (Sub.of 16390 rfl hm) hx) (Sub.of 16390 rfl hm) h)

/-- What is forwarded and recorded is no part of the encoders. -/
@[simp] theorem State.encSent_enc (s : State) (own : Bool) (ses : Fin 5) (ch : Fin 4) (w : Word) :
    (s.encSent own ses ch w).enc = s.enc :=
  (State.encSent_keeps (m := 16390) own ses ch w rfl (Keeps.refl _ s)).parts .enc rfl

/-- The end of a burst is nothing that a channel's command asks. -/
theorem State.burstCut_enc (s : State) (ses : Fin 5) (a : Nat) : (s.burstCut ses a).enc = s.enc :=
  (s.burstCut_keeps2 ses a).parts .enc rfl

theorem State.burstCut_encSet (s : State) (ses : Fin 5) (a ch : Nat) : (s.burstCut ses a).encSet ch = s.encSet ch := by
  obtain ⟨f, hf⟩ := s.burstCut_onCfg ses a
  rw [hf]
  rfl

theorem State.burstCut_fb (s : State) (ses : Fin 5) (a : Nat) (f : Fld) : (s.burstCut ses a).fb f = s.fb f := by
  obtain ⟨g, hg⟩ := s.burstCut_onCfg ses a
  rw [hg]
  rfl

section
variable {s : State} {ses : Fin 5} {ch : Fin 4}

/-- R291: ARM and POS_SET are not a standby's own. -/
theorem State.encCmd_standby (h : s.reaches ses .installer (encCmdAddr ch)) (hsb : s.inMode .standby = true) {w : Word}
    (hw : w.getLsbD 2 = false) : s.encCmd ses ch w = s.burstCut ses (encCmdAddr ch) := by
  unfold State.encCmd State.sesCmd State.sesWriteBy
  rw [State.sesReach_eq h]
  simp only [State.burstCut_inMode, hsb, hw, Bool.not_false, Bool.and_self, if_true, Option.map_none]

/-- R139: a seat that is no standby carries ARM and POS_SET out. -/
theorem State.encCmd_own (h : s.reaches ses .installer (encCmdAddr ch)) (hsb : s.inMode .standby = false) {w : Word}
    (hw : w.getLsbD 2 = false) : s.encCmd ses ch w = ((s.burstCut ses (encCmdAddr ch)).encFx ch w).encSent true ses ch w := by
  unfold State.encCmd State.sesCmd State.sesWriteBy
  rw [State.sesReach_eq h]
  simp only [State.burstCut_inMode, hsb, hw, Bool.not_false, Bool.false_and, Bool.false_eq_true, if_false, if_true, Option.map_some]
  rfl

/-- R138, R291: CAL, of any seat, starts a run where none is under way. -/
theorem State.encCmd_cal (h : s.reaches ses .installer (encCmdAddr ch)) (hc : s.enc.ch[ch].cal = .none) :
    s.encCmd ses ch 4 = ((s.burstCut ses (encCmdAddr ch)).onCh ch fun x => { x with cal := .collect {} }).encSent
      (!s.inMode .standby) ses ch 4 := by
  have hbit : (4 : Word).getLsbD 2 = true := rfl
  have hfx : ∀ c : State, (c.when (!s.inMode .standby) fun c => c.encFx ch 4) = c := fun c => by
    unfold State.when
    exact ite_self _
  unfold State.encCmd State.sesCmd State.sesWriteBy
  rw [State.sesReach_eq h]
  simp only [State.burstCut_inMode, hfx, State.burstCut_enc, hc, hbit, Bool.not_true, Bool.and_false, Bool.false_eq_true, if_false,
    beq_self_eq_true, Bool.and_self, Option.map_some]
  cases s.inMode .standby <;> rfl

end

/-! ### A calibration run and the standstill -/

/-- R138: the slew to the offsets, gain and phase a complete run gives. -/
def EncRun.slewTo (r : EncRun) (g p : Nat) : EncCal :=
  .slew (r.result g p).1 (r.result g p).2.1 (r.result g p).2.2.1 (r.result g p).2.2.2.1 0

/-- R138: a run of 1,024 periods gives its results, to which the slew then goes, and is counted. -/
theorem State.encCalDone_complete {s : State} {ch : Fin 4} {r : EncRun} (hc : s.enc.ch[ch].cal = .collect r) (hr : 1024 ≤ r.periods) :
    ∃ g p : Nat, (s.encCalDone ch).enc = (s.onCh ch fun x => { x with cal := r.slewTo g p }).enc ∧
      (s.encCalDone ch).f (F.ENC_CAL_QUAL_COUNT ch.val) = min 65535 (s.f (F.ENC_CAL_QUAL_COUNT ch.val) + 1) := by
  refine ⟨s.freeNat, s.drawn.freeNat, ?_⟩
  unfold State.encCalDone
  simp only [hc, if_neg (Nat.not_lt.mpr hr), State.setF_enc]
  refine ⟨rfl, ?_⟩
  rw [State.f_setF_ne _ _ _ _ (by simp [F.ENC_CAL_QUAL_COUNT, F.ENC_CAL_TIME_SEC]),
    State.f_setF_self _ (F.ENC_CAL_QUAL_COUNT ch.val) _ (Nat.le_refl 32)]
  exact Nat.mod_eq_of_lt (Nat.lt_of_le_of_lt (Nat.min_le_left _ _) (show 2 ^ 16 - 1 < 2 ^ 16 by decide))

theorem State.encCalDone_early {s : State} {ch : Fin 4} {r : EncRun} (hc : s.enc.ch[ch].cal = .collect r) (hr : r.periods < 1024) :
    s.encCalDone ch = s := by
  unfold State.encCalDone
  simp only [hc, if_pos hr]

/-- R138: a run abandoned leaves the channel with none. -/
theorem State.encCalDrop_enc {s : State} {ch : Fin 4} {r : EncRun} (hc : s.enc.ch[ch].cal = .collect r) :
    (s.encCalDrop ch).enc.ch[ch] = { s.enc.ch[ch] with cal := .none } := by
  unfold State.encCalDrop
  rw [State.onChl_enc, State.onCh_self, hc]

theorem State.encCalDrop_ne (s : State) {ch i : Fin 4} (h : i ≠ ch) : (s.encCalDrop ch).enc.ch[i] = s.enc.ch[i] :=
  State.onCh_ne s _ h

/-- R142: without a boundary for the standstill timeout the channel stands still; its position is not touched. -/
theorem EncCh.restAt_still {x : EncCh} {t tmo : Nat} (h : ∀ m ∈ x.marks.head?, m + tmo ≤ t) :
    (x.restAt t tmo).still = true ∧ (x.restAt t tmo).pos = x.pos := by
  unfold EncCh.restAt
  split
  next m l hm =>
    rw [if_pos (h m (by rw [hm]; rfl))]
    exact ⟨rfl, rfl⟩
  next => exact ⟨rfl, rfl⟩

/-- R142: a boundary within the timeout leaves the channel as it is. -/
theorem EncCh.restAt_timed {x : EncCh} {t tmo m : Nat} {l : List Nat} (hm : x.marks = m :: l) (h : t < m + tmo) : x.restAt t tmo = x := by
  unfold EncCh.restAt
  simp only [hm, if_neg (Nat.not_le.mpr h)]

/-- R142: a channel that stands still has speed 0. -/
theorem State.encSpeed_still {s : State} {ch : Fin 4} (h : s.enc.ch[ch].still = true) : s.encSpeed ch = 0 := by
  unfold State.encSpeed
  simp only [h]

/-! ### The commands -/

theorem exec_encCalComplete {s : State} (h : s.alive = true) (ch : Fin 4) : exec (.encCalComplete ch) s = .next (s.encCalDone ch) :=
  congrArg Host.Outcome.next (State.live_eq h _)

theorem exec_encStillTimeout {s : State} (h : s.alive = true) (ch : Fin 4) : exec (.encStillTimeout ch) s = .next (s.restCheck ch) :=
  congrArg Host.Outcome.next (State.live_eq h _)

theorem exec_encCalTimeout {s : State} (h : s.alive = true) {ch : Fin 4} {r : EncRun} (hc : s.enc.ch[ch].cal = .collect r)
    (hr : r.periods < 1024) : exec (.encCalTimeout ch) s = .next (s.encCalDrop ch) := by
  refine congrArg Host.Outcome.next ((State.live_eq h _).trans ?_)
  simp only [hc, if_pos hr]

/-- Settles O36: each command is its own rule on the channel, and what a seat sends and records of it touches no encoder. -/
theorem encoderCommandsAct : Obligations.EncoderCommandsAct := by
  unfold Obligations.EncoderCommandsAct
  intro s ses ch ho
  extract_lets x others
  have halive := ho.1
  refine ⟨fun hr => ?commands, fun r hc => ⟨fun hp => ?complete, fun hp => ?early, fun hp => ?timeout⟩, fun hm => ?still,
    fun m l hm ht => ?timed⟩
  case commands =>
    have hcut : Keeps 16454 s (s.burstCut ses (encCmdAddr ch)) := State.burstCut_keeps _ _ rfl (Keeps.refl _ s)
    have henc := s.burstCut_enc ses (encCmdAddr ch)
    have hset := s.burstCut_encSet ses (encCmdAddr ch) ch.val
    have hfb := s.burstCut_fb ses (encCmdAddr ch) (F.ENC_CFG_EN ch.val)
    refine ⟨fun hsb => ⟨?arm, fun hen => ?posSet, fun hen => ?disabled⟩, fun hsb => ⟨?armStandby, ?posSetStandby⟩,
      fun hc => ?cal⟩
    case arm =>
      have he : (((s.burstCut ses (encCmdAddr ch)).encFx ch 1).encSent true ses ch 1).enc =
          (s.onCh ch fun x => { x with armed := true }).enc := by
        rw [State.encSent_enc, State.encFx_arm, State.onCh_enc_congr henc]
      refine ⟨_, congrArg Host.Outcome.next (State.encCmd_own hr hsb rfl),
        (State.encSent_keeps (m := 16454) _ _ _ _ rfl (State.encFx_keeps _ _ rfl hcut)).sameBut rfl, fun i hi => ?_, ?_⟩ <;> rw [he]
      · exact s.onCh_ne _ hi
      · exact s.onCh_self _ _
    case posSet =>
      have he : (((s.burstCut ses (encCmdAddr ch)).encFx ch 2).encSent true ses ch 2).enc =
          ((s.burstCut ses (encCmdAddr ch)).posSet ch).enc := by
        rw [State.encSent_enc, State.encFx_posSet (hfb.trans hen)]
      refine ⟨_, congrArg Host.Outcome.next (State.encCmd_own hr hsb rfl),
        (State.encSent_keeps (m := 16454) _ _ _ _ rfl (State.encFx_keeps _ _ rfl hcut)).sameBut rfl, fun i hi => ?_, ?_, ?_,
        fun hact halt hlost => ?_⟩ <;> rw [he]
      · rw [State.posSet_ne _ hi, henc]
      · rw [State.posSet_pos, hset]
      · exact State.posSet_ref _ _
      · have hweb := State.posSet_pweb (henc ▸ hact) (henc ▸ halt) (henc ▸ hlost)
        simp only [hweb, hset, henc, x]
    case disabled =>
      refine ⟨_, congrArg Host.Outcome.next (State.encCmd_own hr hsb rfl),
        Keeps.sameBut (m := 16390) (State.encSent_keeps _ _ _ _ rfl ?_) rfl⟩
      rw [State.encFx_disabled (hfb.trans hen)]
      exact State.burstCut_keeps _ _ rfl (Keeps.refl _ s)
    case armStandby => exact congrArg Host.Outcome.next (State.encCmd_standby hr hsb rfl)
    case posSetStandby => exact congrArg Host.Outcome.next (State.encCmd_standby hr hsb rfl)
    case cal =>
      have he : (((s.burstCut ses (encCmdAddr ch)).onCh ch fun x => { x with cal := .collect {} }).encSent (!s.inMode .standby) ses
          ch 4).enc = (s.onCh ch fun x => { x with cal := .collect {} }).enc := by
        rw [State.encSent_enc, State.onCh_enc_congr henc]
      refine ⟨_, congrArg Host.Outcome.next (State.encCmd_cal hr hc),
        (State.encSent_keeps (m := 16454) _ _ _ _ rfl (State.onCh_keeps _ _ rfl hcut)).sameBut rfl, fun i hi => ?_, ?_⟩ <;> rw [he]
      · exact s.onCh_ne _ hi
      · exact s.onCh_self _ _
  case complete =>
    obtain ⟨g, p, he, hcount⟩ := State.encCalDone_complete hc hp
    have hx := exec_encCalComplete halive ch
    refine ⟨_, hx, exec_sameBut hx, fun i hi => ?_, hcount, g, p, rfl, rfl, ?_⟩ <;> rw [he]
    · exact s.onCh_ne _ hi
    · exact s.onCh_self _ _
  case early => rw [exec_encCalComplete halive, State.encCalDone_early hc hp]
  case timeout =>
    have he := exec_encCalTimeout halive hc hp
    exact ⟨_, he, exec_sameBut he, fun i hi => s.encCalDrop_ne hi, State.encCalDrop_enc hc⟩
  case still =>
    have he := exec_encStillTimeout halive ch
    obtain ⟨hst, hpos⟩ := EncCh.restAt_still hm
    have hch : (s.restCheck ch).enc.ch[ch] = x.restAt (s.enc.tick * 250) (s.encSet ch.val).tmo := s.onCh_self _ _
    refine ⟨_, he, exec_sameBut he, fun i hi => s.onCh_ne _ hi, State.encSpeed_still ?_, ?_⟩ <;> rw [hch]
    · exact hst
    · exact hpos
  case timed =>
    rw [exec_encStillTimeout halive]
    exact congrArg _ (State.onCh_fixed (EncCh.restAt_timed hm ht))

end Sys2Proof.Machine
end

section
/-! A sample of an encoder channel, from the channel to the web position, and obligation O35 (R132–R136, R143). -/
namespace Sys2Proof.Machine

/-! ### The channel's part -/

/-- R142: a rest check sets the speed's history alone. -/
theorem EncCh.restAt_eq (x : EncCh) (t tmo : Nat) : ∃ st mk nd p,
    x.restAt t tmo = { x with still := st, marks := mk, need := nd, period := p } := by
  unfold EncCh.restAt
  split
  · split
    · exact ⟨_, _, _, _, rfl⟩
    · exact ⟨x.still, x.marks, x.need, x.period, rfl⟩
  · exact ⟨_, _, _, _, rfl⟩

/-- The sample's last act: POS_SET is no longer fresh, and a channel that has timed a boundary looks at its standstill timeout. -/
def EncCh.close (x : EncCh) (t tmo : Nat) : EncCh := { (if x.marks.isEmpty then x else x.restAt t tmo) with posSet := false }

/-- Two channels at one place: what makes the position, whether it is held and has erred, and the number of the sample. -/
structure EncCh.SamePlace (x y : EncCh) : Prop where
  k : y.k = x.k
  n : y.n = x.n
  q : y.q = x.q
  f : y.f = x.f
  ofs : y.ofs = x.ofs
  held : y.held = x.held
  errSince : y.errSince = x.errSince

theorem EncCh.close_place (x : EncCh) (t tmo : Nat) : x.SamePlace (x.close t tmo) := by
  unfold EncCh.close
  obtain ⟨_, _, _, _, h⟩ := x.restAt_eq t tmo
  split
  · exact ⟨rfl, rfl, rfl, rfl, rfl, rfl, rfl⟩
  · rw [h]
    exact ⟨rfl, rfl, rfl, rfl, rfl, rfl, rfl⟩

/-- R142: timing a boundary moves no channel. -/
theorem EncCh.mark_place (x : EncCh) (t : Nat) : x.SamePlace (x.mark t).1 := by
  unfold EncCh.mark
  dsimp only
  split
  · exact ⟨rfl, rfl, rfl, rfl, rfl, rfl, rfl⟩
  · split <;> exact ⟨rfl, rfl, rfl, rfl, rfl, rfl, rfl⟩

/-- R136: the period count after a step from quadrant q to quadrant dq. -/
def stepN (n : Int) (q dq : Nat) : Int := if stepOf q dq = 1 ∧ q = 3 then n + 1 else if stepOf q dq = -1 ∧ q = 0 then n - 1 else n

/-- R134, R136: a sample with IDX low puts the channel on its quadrant and phase, and is no index. -/
theorem EncCh.advance_low (x : EncCh) (e : EncSet) (c : Corr) (dq : Nat) :
    let z := x.advance e c dq false
    z.1.k = x.k ∧ z.1.n = stepN x.n x.q dq ∧ z.1.q = dq ∧ z.1.f = c.phase dq ∧ z.2.index = false ∧ z.2.jump = none := by
  intro z
  have hz : z = x.advance e c dq false := rfl
  unfold EncCh.advance at hz
  extract_lets st old edge n y new at hz
  clear_value edge
  split at hz
  next =>
    rw [hz]
    exact ⟨rfl, rfl, rfl, rfl, rfl, rfl⟩
  next =>
    extract_lets part m at hz
    rw [Bool.not_false, Bool.true_or, if_pos rfl] at hz
    have hm : y.SamePlace m.1 := y.mark_place (x.now - 250 + min 250 part)
    rw [hz]
    exact ⟨hm.k, hm.n, hm.q, hm.f, rfl, rfl⟩

/-- What a sample gave left the channel at n, q and f, and was no fault and no index. -/
structure EncCh.StepsTo (x : EncCh) (r : EncCh × SampleOut) (n : Int) (q f : Nat) : Prop where
  k : r.1.k = x.k
  n : r.1.n = n
  q : r.1.q = q
  f : r.1.f = f
  illegal : r.2.illegal = false
  ampFault : r.2.ampFault = false
  index : r.2.index = false
  jump : r.2.jump = none

/-- R134–R136: a sample whose quadrant is not opposite the channel's, with the radius in its limits and IDX low. -/
theorem EncCh.sample_step {x : EncCh} {e : EncSet} {sc : Int × Int} {code : Int} {dq : Nat}
    (hseen : x.seen = true) (hwoken : x.woken = false) (hfault : x.ampFault = false) (hbad : e.ampBad (e.correct sc) = false)
    (hidx : idxLevel code x.idx = false)
    (hab : (e.correct sc).lineA e.hyst x.seen x.a = x.a ∨ (e.correct sc).lineB e.hyst x.seen x.b = x.b)
    (hdq : quadOf ((e.correct sc).lineA e.hyst x.seen x.a) ((e.correct sc).lineB e.hyst x.seen x.b) = dq)
    (hnext : (dq + 4 - x.q) % 4 ≠ 2) :
    x.StepsTo (x.sample e sc code) (stepN x.n x.q dq) dq ((e.correct sc).phase dq) := by
  generalize hr : x.sample e sc code = r
  replace hr := hr.symm
  unfold EncCh.sample at hr
  extract_lets c a b dq' fresh both bad nb ng fault idx cal y o z zo r0 last at hr
  have hfresh : fresh = false := by simp only [fresh, hseen, hwoken, Bool.not_true, Bool.or_false]
  have hboth : both = false := by
    rcases hab with h | h
    · simp only [both, a, c, h, bne_self_eq_false, Bool.and_false, Bool.false_and]
    · simp only [both, b, c, h, bne_self_eq_false, Bool.and_false]
  have hok : fault = false := by simp [fault, nb, bad, c, hfault, hbad]
  have hzlow : z = y.advance e c dq false := by simp only [z, idx, hidx, dq', a, b, c, hdq]
  have hr0 : r0 = (z.1, { z.2 with illegal := both, ampFault := o.ampFault }) := by
    simp only [r0, hfresh, hboth, hok, dq', a, b, c, hdq, decide_eq_false hnext, Bool.and_false, Bool.or_false,
      Bool.false_eq_true, if_false, zo]
  obtain ⟨zk, zn, zq, zf, zi, zj⟩ := y.advance_low e c dq
  have hclose : r = (r0.1.close x.now e.tmo, r0.2) := hr
  rw [hr0] at hclose
  have hlast := z.1.close_place x.now e.tmo
  rw [hclose]
  rw [← hzlow] at zk zn zq zf zi zj
  refine ⟨hlast.k.trans zk, hlast.n.trans zn, hlast.q.trans zq, hlast.f.trans zf, hboth, ?_, zi, zj⟩
  simp only [o, hok, Bool.false_and]

/-- What a sample gave left the channel where it was, held and in error, and was an illegal transition and no index. -/
structure EncCh.HeldIllegal (x : EncCh) (r : EncCh × SampleOut) : Prop where
  pos : r.1.pos = x.pos
  held : r.1.held = true
  errSince : r.1.errSince = true
  illegal : r.2.illegal = true
  overfreq : r.2.overfreq = false
  index : r.2.index = false
  jump : r.2.jump = none

/-- R135: both lines changed: the position stays, held until a step follows. -/
theorem EncCh.sample_illegal {x : EncCh} {e : EncSet} {sc : Int × Int} {code : Int}
    (hseen : x.seen = true) (hwoken : x.woken = false)
    (ha : (e.correct sc).lineA e.hyst x.seen x.a ≠ x.a) (hb : (e.correct sc).lineB e.hyst x.seen x.b ≠ x.b) :
    x.HeldIllegal (x.sample e sc code) := by
  generalize hr : x.sample e sc code = r
  replace hr := hr.symm
  unfold EncCh.sample at hr
  extract_lets c a b dq fresh both bad nb ng fault idx cal y o z zo r0 last at hr
  have hfresh : fresh = false := by simp only [fresh, hseen, hwoken, Bool.not_true, Bool.or_false]
  have hboth : both = true := by
    simp only [both, hfresh, Bool.not_false, Bool.true_and, Bool.and_eq_true, bne_iff_ne]
    exact ⟨ha, hb⟩
  have hr0 : r0 = (y, o) := by simp only [r0, hfresh, hboth, Bool.true_or, Bool.false_eq_true, if_false, if_true]
  have hclose : r = (r0.1.close x.now e.tmo, r0.2) := hr
  rw [hr0] at hclose
  have hlast := y.close_place x.now e.tmo
  rw [hclose]
  refine ⟨?_, hlast.held.trans ?_, hlast.errSince.trans ?_, hboth, rfl, rfl, rfl⟩
  · unfold EncCh.pos
    rw [hlast.n, hlast.q, hlast.f, hlast.ofs]
  · simp only [y, hboth, Bool.or_true, Bool.true_or]
  · simp only [y, hboth, Bool.or_true, Bool.true_or]

/-! ### Registers that other registers' fields, events and upsets leave -/

theorem State.f_hw_congr {s t : State} (h : t.regs.hw = s.regs.hw) {f : Fld} (hf : f.acc = .w1c) : t.f f = s.f f := by
  unfold State.f State.word
  simp only [hf, h]

/-- A field put into a word leaves the bits outside it. -/
theorem bits_putFld_apart (w : Word) (f : Fld) (v : Nat) {lo n : Nat} (hw : f.lo + f.w ≤ 32) (h : lo + n ≤ f.lo ∨ f.lo + f.w ≤ lo) :
    bits (putFld w f v).toNat lo n = bits w.toNat lo n := by
  unfold putFld
  rw [BitVec.toNat_ofNat, Nat.mod_eq_of_lt (insBits_lt v w.isLt hw)]
  refine Nat.eq_of_testBit_eq fun i => ?_
  rw [testBit_bits, testBit_bits, testBit_insBits]
  by_cases hi : i < n
  · rw [if_neg (by omega)]
  · rw [decide_eq_false hi, Bool.false_and, Bool.false_and]

/-- A flag set leaves the flags beside it in its register. -/
theorem State.f_setF_flag_apart {f g : Fld} (hf : f.acc = .w1c) (hg : g.acc = .w1c) (ha : g.addr = f.addr) (hw : f.lo + f.w ≤ 32)
    (h : g.lo + g.w ≤ f.lo ∨ f.lo + f.w ≤ g.lo) (s : State) (v : Nat) : (s.setF f v).f g = s.f g := by
  unfold State.f State.word State.setF
  simp only [hf, hg, ha, rget_rset_self]
  exact bits_putFld_apart _ f v hw h

theorem State.f_bump_ne (s : State) (f g : Fld) (h : g.addr ≠ f.addr) : (s.bump f).f g = s.f g := s.f_setF_ne f g _ h

section
variable {g : Fld} (hg : 0x21000 ≤ g.addr)
include hg

/-- The registers of the queues lie below 0x21000. -/
theorem State.levelCross_f (s : State) (q : Fin 64) (n k : Nat) : (s.levelCross q n k).f g = s.f g := by
  have hne : g.addr ≠ (F.CVQ_LVL_FLAG_FLAG (q.val / 32)).addr := by
    simp only [F.CVQ_LVL_FLAG_FLAG]
    omega
  unfold State.levelCross
  extract_lets lvl fl s1
  split
  · split <;> exact s.f_setF_ne _ _ _ hne
  · rfl

theorem State.peak_f (s : State) (q : Fin 64) (v : Nat) : (s.peak (F.CVQ_PEAK_PEAK q) v).f g = s.f g :=
  s.f_setF_ne _ _ _ (by simp only [F.CVQ_PEAK_PEAK]; omega)

theorem State.evtStore_f (s : State) (i : Fin 4) (e : EventRec) : (s.evtStore i e).f g = s.f g := by
  unfold State.evtStore
  rw [State.peak_f hg, State.levelCross_f hg]
  rfl

theorem State.evqLost_f (s : State) (i : Fin 4) : (s.evqLost i).f g = s.f g := by
  unfold State.evqLost
  dsimp only
  split
  · rfl
  · rw [State.peak_f hg, State.levelCross_f hg]
    rfl

/-- R9, R59: an event's record changes no register but those of its queue. -/
theorem State.event_f (s : State) (code arg : Nat) : (s.event code arg).f g = s.f g := by
  have hs : ∀ i, ((((s.settle (evtQ i)).evqLost i).settle (evtQ i))).f g = s.f g := fun i => State.evqLost_f hg _ i
  unfold State.event State.raise State.evtPut
  dsimp only
  split
  · refine (State.f_bump_ne _ _ _ ?_).trans (hs _)
    simp only [F.CVQ_DROP_DROP]
    omega
  · rw [State.evtStore_f hg, hs]

end

/-- R319: upsets of a kind whose threshold is 0xFFFF are counted, and class no channel. -/
theorem State.upset_unclassed {s : State} {j : Nat} (h : s.f (F.FLT_PERM_COUNT (kindOf j)) = 0xFFFF) : s.upset j =
    if (s.board j).retired then s
    else ((s.onBoard j Board.hit).bump (F.FLT_SB_TOTAL_COUNT j)).onFlt fun t => { t with telUpsets := t.telUpsets + 1 } := by
  unfold State.upset
  extract_lets s1
  have hp : s1.f (F.FLT_PERM_COUNT (kindOf j)) = 0xFFFF := by
    have hk : kindOf j ≤ 6 := by
      unfold kindOf
      (repeat' split) <;> omega
    refine ((s.onBoard j Board.hit).f_bump_ne (F.FLT_SB_TOTAL_COUNT j) (F.FLT_PERM_COUNT (kindOf j)) ?_).trans h
    simp only [F.FLT_PERM_COUNT, F.FLT_SB_TOTAL_COUNT]
    omega
  have hover : s1.overPerm j = false := by
    unfold State.overPerm
    simp only [hp]
    rfl
  rw [hover, Bool.and_false, if_neg Bool.false_ne_true]

theorem State.upset_keeps_unclassed {m : Nat} {sb s : State} {j : Nat} (h : s.f (F.FLT_PERM_COUNT (kindOf j)) = 0xFFFF)
    (hm : Sub 65540 m) (hK : Keeps m sb s) : Keeps m sb (s.upset j) := by
  rw [State.upset_unclassed h]
  split
  · exact hK
  · exact State.onFlt_keeps _ (Sub.of 65540 rfl hm) (State.bump_keeps _ (Sub.of 65540 rfl hm)
      (State.onBoard_keeps _ _ (Sub.of 65540 rfl hm) hK)) fun _ _ => rfl

/-- An upset is counted in its own register alone. -/
theorem State.upset_f {s : State} {j : Nat} (h : s.f (F.FLT_PERM_COUNT (kindOf j)) = 0xFFFF) {g : Fld}
    (hg : g.addr ≠ (F.FLT_SB_TOTAL_COUNT j).addr) : (s.upset j).f g = s.f g := by
  rw [State.upset_unclassed h]
  split
  · rfl
  · exact (s.onBoard j Board.hit).f_bump_ne _ _ hg

/-! ### What a sample gives beside the channel -/

/-- A sample that is no fault and no index sets no more than OVERFREQ. -/
theorem State.sampleFx_quiet {ch : Fin 4} {o : SampleOut} (hill : o.illegal = false) (hamp : o.ampFault = false)
    (hidx : o.index = false) (hj : o.jump = none) (s : State) :
    s.sampleFx ch o = s.when o.overfreq fun s => s.setF (F.ENC_FLAGS_OVERFREQ ch.val) 1 := by
  unfold State.sampleFx
  rw [hill, hamp, hidx, hj]
  rfl

theorem State.when_enc (s : State) (c : Bool) {f : State → State} (h : ∀ y : State, (f y).enc = y.enc) : (s.when c f).enc = s.enc := by
  unfold State.when
  split
  · exact h s
  · rfl

/-- A sample that is no index leaves the encoders to the channel's own change. -/
theorem State.sampleFx_enc {o : SampleOut} (hj : o.jump = none) (s : State) (ch : Fin 4) : (s.sampleFx ch o).enc = s.enc := by
  unfold State.sampleFx
  extract_lets s1 s2 s3 s4
  have h1 : s1.enc = s.enc := s.when_enc _ fun y =>
    (State.upset_keeps (msk := 16842764) _ rfl (Keeps.refl _ _)).parts .enc rfl |>.trans (by rw [State.bump_enc, State.setF_enc])
  have h2 : s2.enc = s1.enc := s1.when_enc _ fun y =>
    (State.upset_keeps (msk := 16842764) _ rfl (State.event_keeps _ _ rfl (Keeps.refl _ _))).parts .enc rfl |>.trans
      (State.setF_enc _ _ _)
  have h3 : s3.enc = s2.enc := s2.when_enc _ fun y => y.setF_enc _ _
  have h4 : s4.enc = s3.enc := s3.when_enc _ fun y => y.setF_enc _ _
  rw [hj]
  exact h4.trans (h3.trans (h2.trans h1))

/-- What an illegal transition leaves so far: queues, registers, upsets are touched, ILLEGAL is set, and FLT_PERM still classes no
encoder channel. -/
structure State.IllegalMarked (s t : State) (ch : Fin 4) : Prop where
  keeps : Keeps 65612 s t
  flag : t.f (F.ENC_FLAGS_ILLEGAL ch.val) = 1
  perm : t.f (F.FLT_PERM_COUNT 4) = 0xFFFF

theorem kindOf_encoder (ch : Fin 4) : kindOf (64 + ch.val) = 4 := by
  revert ch
  decide

theorem State.IllegalMarked.upset {s t : State} {ch : Fin 4} (h : s.IllegalMarked t ch) : s.IllegalMarked (t.upset (64 + ch.val)) ch := by
  have hp : t.f (F.FLT_PERM_COUNT (kindOf (64 + ch.val))) = 0xFFFF := (kindOf_encoder ch).symm ▸ h.perm
  have hch := ch.isLt
  refine ⟨State.upset_keeps_unclassed (m := 65612) hp rfl h.keeps, ?_, ?_⟩
  · rw [State.upset_f hp (by simp only [F.ENC_FLAGS_ILLEGAL, F.FLT_SB_TOTAL_COUNT]; omega), h.flag]
  · rw [State.upset_f hp (by simp only [F.FLT_PERM_COUNT, F.FLT_SB_TOTAL_COUNT]; omega), h.perm]

/-- R137: AMP is another bit of the flags, and its event enters a queue. -/
theorem State.IllegalMarked.ampFault {s t : State} {ch : Fin 4} (h : s.IllegalMarked t ch) :
    s.IllegalMarked ((t.setF (F.ENC_FLAGS_AMP ch.val) 1).event 0x050 ch.val) ch := by
  have hch := ch.isLt
  refine ⟨State.event_keeps (msk := 65612) _ _ rfl (State.setF_keeps _ _ rfl h.keeps), ?_, ?_⟩
  · have hapart := State.f_setF_flag_apart (f := F.ENC_FLAGS_AMP ch.val) (g := F.ENC_FLAGS_ILLEGAL ch.val) rfl rfl rfl
      (by decide : 1 + 1 ≤ 32) (Or.inl (by decide : 0 + 1 ≤ 1)) t 1
    rw [State.event_f (by simp only [F.ENC_FLAGS_ILLEGAL]; omega), hapart, h.flag]
  · rw [State.event_f (by decide), State.f_setF_ne _ _ _ _ (by simp only [F.FLT_PERM_COUNT, F.ENC_FLAGS_AMP]; omega), h.perm]

/-- R135, R137: an illegal transition, with or without an amplitude fault in the same sample. -/
theorem State.sampleFx_illegal {sb s : State} {ch : Fin 4} {o : SampleOut} (hK : Keeps 65612 sb s)
    (hp : s.f (F.FLT_PERM_COUNT 4) = 0xFFFF) (hill : o.illegal = true) (hover : o.overfreq = false) (hidx : o.index = false)
    (hj : o.jump = none) : sb.IllegalMarked (s.sampleFx ch o) ch := by
  have hch := ch.isLt
  have h0 : sb.IllegalMarked ((s.setF (F.ENC_FLAGS_ILLEGAL ch.val) 1).bump (F.ENC_ILL_CNT_COUNT ch.val)) ch := by
    refine ⟨State.bump_keeps _ rfl (State.setF_keeps _ _ rfl hK), ?_, ?_⟩
    · rw [State.f_bump_ne _ _ _ (by simp only [F.ENC_FLAGS_ILLEGAL, F.ENC_ILL_CNT_COUNT]; omega)]
      exact s.f_setF_self (F.ENC_FLAGS_ILLEGAL ch.val) 1 (by decide : 0 + 1 ≤ 32)
    · rw [State.f_bump_ne _ _ _ (by simp only [F.FLT_PERM_COUNT, F.ENC_ILL_CNT_COUNT]; omega),
        State.f_setF_ne _ _ _ _ (by simp only [F.FLT_PERM_COUNT, F.ENC_FLAGS_ILLEGAL]; omega), hp]
  unfold State.sampleFx
  rw [hill, hover, hidx, hj]
  have h1 := h0.upset
  cases o.ampFault
  · exact h1
  · exact h1.ampFault.upset

/-! ### The seat's part -/

/-- R138: the slew moves the run of its channel alone. -/
theorem State.slewTick_enc (s : State) (ch : Fin 4) : ∃ c, (s.slewTick ch).enc = (s.onCh ch fun x => { x with cal := c }).enc := by
  unfold State.slewTick
  split
  · split
    · exact ⟨_, rfl⟩
    · exact ⟨_, State.onCh_enc_congr (by simp only [State.setF_enc]) _ _⟩
  · exact ⟨s.enc.ch[ch].cal, congrArg State.enc (State.onCh_fixed (s := s) rfl).symm⟩

theorem State.setF_rw_hw {f : Fld} (hf : f.acc = .rw) (s : State) (v : Nat) : (s.setF f v).regs.hw = s.regs.hw := by
  unfold State.setF
  rw [hf]

/-- R138: the slew writes RW registers. -/
theorem State.slewTick_hw (s : State) (ch : Fin 4) : (s.slewTick ch).regs.hw = s.regs.hw := by
  unfold State.slewTick
  split
  · split
    · rfl
    · dsimp only
      rw [State.onCh_regs, State.setF_rw_hw rfl, State.setF_rw_hw rfl, State.setF_rw_hw rfl, State.setF_rw_hw rfl]
  · rfl

section
variable (s : State) (ch : Fin 4) (sin cos idx : BitVec 14)

/-- What a sample makes of its channel, and gives beside it. -/
def State.sampled : EncCh × SampleOut :=
  ({ s.enc.ch[ch] with k := s.instant ch } : EncCh).sample (s.encSet ch.val)
    (sin.toInt - s.enc.adc[ch].1, cos.toInt - s.enc.adc[ch].2.1) (idx.toInt - s.enc.adc[ch].2.2)

/-- The channel feeds the web position. -/
def State.feedsWeb : Bool := decide (s.enc.act = ch) && !s.enc.lost

/-- The channel as sampled, with its move passed on to the web position it feeds. -/
def State.placed : State :=
  let y := (s.sampled ch sin cos idx).1
  ((s.onEnc fun e => { e with tick := s.instant ch }).onCh ch fun _ => y).when (s.feedsWeb ch && s.enc.ch[ch].seen) fun s1 =>
    s1.moveWeb (y.pos - s.enc.ch[ch].pos)

theorem State.placed_keeps {m : Nat} (hm : Sub 64 m) : Keeps m s (s.placed ch sin cos idx) :=
  State.when_keeps _ _ (fun _ h => State.moveWeb_keeps _ hm h) (Sub.of 64 rfl hm)
    (State.onCh_keeps _ _ hm (State.onEnc_keeps _ hm (Keeps.refl m s)))

/-- R132–R143: a sample that is no index: the channel's change, what the sample gives beside it, the slew, and the position on its way. -/
theorem State.encSample_eq {s : State} {ch : Fin 4} {sin cos idx : BitVec 14} (hj : (s.sampled ch sin cos idx).2.jump = none) :
    s.encSample ch sin cos idx = (((s.placed ch sin cos idx).sampleFx ch (s.sampled ch sin cos idx).2).slewTick ch).when
      (s.feedsWeb ch) fun s3 => s3.passSample (s.instant ch * 250) := by
  unfold State.encSample
  extract_lets t x0 x ad r move web s1 s2 s3
  have hmove : move = r.1.pos - s.enc.ch[ch].pos := by
    have hr : r.2.jump = none := hj
    simp only [move, hr]
    exact Int.sub_zero _
  have hs2 : s2 = s.placed ch sin cos idx := by
    simp only [s2, hmove]
    rfl
  have hs3 : s3 = ((s.placed ch sin cos idx).sampleFx ch r.2).slewTick ch := by rw [← hs2]
  rw [show r.2 = (s.sampled ch sin cos idx).2 from rfl] at hs3
  rw [← hs3]
  rfl

end

section
variable {s : State} {ch : Fin 4} {sin cos idx : BitVec 14}

/-- R143: the web position's move touches no channel and no position on its way. -/
theorem State.moveWeb_enc (s : State) (d : Int) :
    (s.moveWeb d).enc.ch = s.enc.ch ∧ (s.moveWeb d).enc.fly = s.enc.fly ∧ (s.moveWeb d).enc.jump = s.enc.jump := by
  unfold State.moveWeb
  split <;> exact ⟨rfl, rfl, rfl⟩

theorem State.moveWeb_primary {s : State} (h : s.enc.onAlt = false) (d : Int) : (s.moveWeb d).enc.pweb = s.enc.pweb + d := by
  unfold State.moveWeb
  rw [h, if_neg Bool.false_ne_true]
  rfl

theorem State.placed_enc (s : State) (ch : Fin 4) (sin cos idx : BitVec 14) :
    (s.placed ch sin cos idx).enc.ch = vmod s.enc.ch ch (fun _ => (s.sampled ch sin cos idx).1) ∧
      (s.placed ch sin cos idx).enc.fly = s.enc.fly ∧ (s.placed ch sin cos idx).enc.jump = s.enc.jump := by
  unfold State.placed State.when
  dsimp only
  split
  · exact State.moveWeb_enc _ _
  · exact ⟨rfl, rfl, rfl⟩

/-- R143: a channel that does not feed the web position leaves it. -/
theorem State.placed_pweb_other (h : s.feedsWeb ch = false) : (s.placed ch sin cos idx).enc.pweb = s.enc.pweb := by
  unfold State.placed
  rw [h, Bool.false_and, State.when_not rfl]
  rfl

/-- R143: the primary's move is the web position's. -/
theorem State.placed_pweb (h : s.feedsWeb ch = true) (hseen : s.enc.ch[ch].seen = true) (halt : s.enc.onAlt = false) :
    (s.placed ch sin cos idx).enc.pweb = s.enc.pweb + ((s.sampled ch sin cos idx).1.pos - s.enc.ch[ch].pos) := by
  unfold State.placed
  rw [h, hseen, Bool.true_and, State.when_eq rfl, State.moveWeb_primary (by exact halt)]
  rfl

/-- Of the encoders, what follows the placing of a sample that is no index: the channel's run and the positions on their way. -/
theorem State.encSample_enc (hj : (s.sampled ch sin cos idx).2.jump = none) :
    ∃ c, (s.encSample ch sin cos idx).enc = (((s.placed ch sin cos idx).onCh ch fun x => { x with cal := c }).when (s.feedsWeb ch)
      fun y => y.passSample (s.instant ch * 250)).enc := by
  obtain ⟨c, hc⟩ := ((s.placed ch sin cos idx).sampleFx ch (s.sampled ch sin cos idx).2).slewTick_enc ch
  rw [State.onCh_enc_congr (State.sampleFx_enc hj _ _)] at hc
  refine ⟨c, ?_⟩
  rw [State.encSample_eq hj]
  cases s.feedsWeb ch
  · exact hc
  · exact congrArg (fun e : Enc => { e with fly := e.fly ++ [(s.instant ch * 250, e.pweb, e.jump)], jump := 0 }) hc

/-- The seat after a sample of channel ch that left it at n, q and f: no other channel has changed, and the web position has moved
with the channel that feeds it (the conclusion of O35). -/
def State.SampledTo (s t : State) (ch : Fin 4) (n : Int) (q f : Nat) : Prop :=
  s.sameBut t [.regs, .enc] ∧ t.enc.ch[ch].n = n ∧ t.enc.ch[ch].q = q ∧ t.enc.ch[ch].f = f ∧ t.enc.ch[ch].k = s.instant ch ∧
    (∀ i : Fin 4, i ≠ ch → t.enc.ch[i] = s.enc.ch[i]) ∧
    (s.enc.act = ch → s.enc.lost = false → s.enc.onAlt = false →
      t.enc.pweb = s.enc.pweb + (t.enc.ch[ch].pos - s.enc.ch[ch].pos) ∧
      t.enc.fly = s.enc.fly ++ [(s.instant ch * 250, t.enc.pweb, s.enc.jump)]) ∧
    (s.enc.act ≠ ch → t.enc.pweb = s.enc.pweb ∧ t.enc.fly = s.enc.fly)

/-- The sampled channel is as its sample made it but for its run; no other channel changes. -/
theorem State.encSample_ch (hj : (s.sampled ch sin cos idx).2.jump = none) :
    (∃ c, (s.encSample ch sin cos idx).enc.ch[ch] = { (s.sampled ch sin cos idx).1 with cal := c }) ∧
      ∀ i : Fin 4, i ≠ ch → (s.encSample ch sin cos idx).enc.ch[i] = s.enc.ch[i] := by
  obtain ⟨c, hc⟩ := State.encSample_enc hj
  have hch : (s.encSample ch sin cos idx).enc.ch = vmod (vmod s.enc.ch ch fun _ => (s.sampled ch sin cos idx).1) ch
      fun x => { x with cal := c } := by
    rw [hc, ← (s.placed_enc ch sin cos idx).1]
    cases s.feedsWeb ch <;> rfl
  refine ⟨⟨c, ?_⟩, fun i hi => ?_⟩ <;> rw [hch]
  · rw [vmod_self, vmod_self]
  · rw [vmod_ne _ _ hi, vmod_ne _ _ hi]

/-- R132, R143: the primary's sample moves the web position, which starts on its way to line timing. -/
theorem State.encSample_web (hj : (s.sampled ch sin cos idx).2.jump = none) (hweb : s.feedsWeb ch = true)
    (hseen : s.enc.ch[ch].seen = true) (halt : s.enc.onAlt = false) :
    (s.encSample ch sin cos idx).enc.pweb = s.enc.pweb + ((s.sampled ch sin cos idx).1.pos - s.enc.ch[ch].pos) ∧
      (s.encSample ch sin cos idx).enc.fly =
        s.enc.fly ++ [(s.instant ch * 250, (s.encSample ch sin cos idx).enc.pweb, s.enc.jump)] := by
  obtain ⟨c, hc⟩ := State.encSample_enc hj
  obtain ⟨-, hfly, hjump⟩ := s.placed_enc ch sin cos idx
  have hp := State.placed_pweb (sin := sin) (cos := cos) (idx := idx) hweb hseen halt
  rw [hweb, State.when_eq rfl] at hc
  rw [hc]
  refine ⟨hp, ?_⟩
  rw [← hfly, ← hjump]
  rfl

/-- R143: a channel that does not feed the web position sends none on its way. -/
theorem State.encSample_noWeb (hj : (s.sampled ch sin cos idx).2.jump = none) (hweb : s.feedsWeb ch = false) :
    (s.encSample ch sin cos idx).enc.pweb = s.enc.pweb ∧ (s.encSample ch sin cos idx).enc.fly = s.enc.fly := by
  obtain ⟨c, hc⟩ := State.encSample_enc hj
  rw [hweb, State.when_not rfl] at hc
  rw [hc]
  exact ⟨State.placed_pweb_other hweb, (s.placed_enc ch sin cos idx).2.1⟩

/-! ### ENCODER_SAMPLE in IDLE -/

theorem State.peakWeb_idle (h : s.inMode .idle = true) : s.peakWeb = s := by
  unfold State.inMode at h
  unfold State.peakWeb State.inMode
  rw [eq_of_beq h]
  rfl

theorem State.reversal_idle (h : s.inMode .idle = true) : s.reversal = s := by
  unfold State.inMode at h
  unfold State.reversal State.inMode
  rw [eq_of_beq h]
  rfl

theorem State.encRuns_idleWarm (h : s.idleWarm = true) (hen : s.fb (F.ENC_CFG_EN ch.val) = true) : s.encRuns ch = true := by
  unfold State.idleWarm State.inMode at h
  obtain ⟨hmode, hcold⟩ := Bool.and_eq_true_iff.mp h
  unfold State.encRuns State.inMode
  rw [eq_of_beq hmode, hcold, hen]
  rfl

/-- In IDLE a sample is no more than the channel's own, when nothing has come to wait. -/
theorem exec_encoderSample_idle (ho : s.operates) (hi : s.idleWarm = true) (hen : s.fb (F.ENC_CFG_EN ch.val) = true) {l : List Part}
    (hsame : s.sameBut (s.encSample ch sin cos idx) l) (hdue : Part.due ∉ l) (hsys : Part.sys ∉ l) (htbl : Part.tbl ∉ l) :
    exec (.encoderSample ch sin cos idx) s = .next (s.encSample ch sin cos idx) := by
  have hs : (s.encSample ch sin cos idx).sys = s.sys := hsame.2 .sys hsys
  have hidle : (s.encSample ch sin cos idx).inMode .idle = true := by
    unfold State.inMode
    rw [hs]
    exact (Bool.and_eq_true_iff.mp hi).1
  refine congrArg Host.Outcome.next ((State.liveF_eq ho.1 _).trans ?_)
  rw [State.when_eq (State.encRuns_idleWarm hi hen), State.peakWeb_idle hidle, State.reversal_idle hidle]
  exact hsame.settled ho.2 hdue (congrArg Sys.freezePend hs) (congrArg Tbl.yieldFor (hsame.2 .tbl htbl))

theorem State.encSample_keeps_of {m : Nat} (hj : (s.sampled ch sin cos idx).2.jump = none) (hm : Sub 68 m)
    (hfx : Keeps m s ((s.placed ch sin cos idx).sampleFx ch (s.sampled ch sin cos idx).2)) : Keeps m s (s.encSample ch sin cos idx) := by
  rw [State.encSample_eq hj]
  exact State.when_keeps _ _ (fun _ h => State.passSample_keeps _ (Sub.of 68 rfl hm) h) (Sub.of 68 rfl hm)
    (State.slewTick_keeps _ (Sub.of 68 rfl hm) hfx)

/-- R132–R136, R143: the seat after a sample that counts. -/
theorem State.encSample_sampledTo {n : Int} {q f : Nat} (hseen : s.enc.ch[ch].seen = true)
    (h : EncCh.StepsTo { s.enc.ch[ch] with k := s.instant ch } (s.sampled ch sin cos idx) n q f) :
    s.SampledTo (s.encSample ch sin cos idx) ch n q f := by
  obtain ⟨⟨c, hc⟩, hne⟩ := State.encSample_ch h.jump
  have hpos : (s.encSample ch sin cos idx).enc.ch[ch].pos = (s.sampled ch sin cos idx).1.pos := by rw [hc]; rfl
  have hk : Keeps 68 s (s.encSample ch sin cos idx) := by
    refine State.encSample_keeps_of h.jump rfl ?_
    rw [State.sampleFx_quiet h.illegal h.ampFault h.index h.jump]
    exact State.when_keeps _ _ (fun _ h => State.setF_keeps _ _ rfl h) rfl (s.placed_keeps ch sin cos idx rfl)
  refine ⟨hk.sameBut rfl, ?_, ?_, ?_, ?_, hne, fun hact hlost halt => ?_, fun hact => ?_⟩
  · rw [hc]; exact h.n
  · rw [hc]; exact h.q
  · rw [hc]; exact h.f
  · rw [hc]; exact h.k
  · rw [hpos]
    refine State.encSample_web h.jump ?_ hseen halt
    unfold State.feedsWeb
    rw [hlost, decide_eq_true hact]
    rfl
  · refine State.encSample_noWeb h.jump ?_
    unfold State.feedsWeb
    rw [decide_eq_false hact, Bool.false_and]

/-- R135: the seat after an illegal transition. -/
theorem State.encSample_illegal (hp : s.f (F.FLT_PERM_COUNT 4) = 0xFFFF)
    (h : EncCh.HeldIllegal { s.enc.ch[ch] with k := s.instant ch } (s.sampled ch sin cos idx)) :
    s.sameBut (s.encSample ch sin cos idx) [.regs, .cvq, .enc, .flt] ∧
      (s.encSample ch sin cos idx).enc.ch[ch].pos = s.enc.ch[ch].pos ∧ (s.encSample ch sin cos idx).enc.ch[ch].held = true ∧
      (s.encSample ch sin cos idx).enc.ch[ch].errSince = true ∧
      (s.encSample ch sin cos idx).fb (F.ENC_FLAGS_ILLEGAL ch.val) = true := by
  have hregs : (s.placed ch sin cos idx).regs = s.regs := (s.placed_keeps ch sin cos idx (m := 64) rfl).parts .regs rfl
  have hfx : s.IllegalMarked ((s.placed ch sin cos idx).sampleFx ch (s.sampled ch sin cos idx).2) ch :=
    State.sampleFx_illegal (s.placed_keeps ch sin cos idx rfl) ((State.f_rw_congr (congrArg Regs.rw hregs) rfl).trans hp) h.illegal
      h.overfreq h.index h.jump
  obtain ⟨⟨c, hc⟩, -⟩ := State.encSample_ch h.jump
  have hflag : (s.encSample ch sin cos idx).f (F.ENC_FLAGS_ILLEGAL ch.val) = 1 := by
    refine (State.f_hw_congr ?_ rfl).trans hfx.flag
    rw [State.encSample_eq h.jump]
    cases s.feedsWeb ch <;> exact State.slewTick_hw _ ch
  refine ⟨(State.encSample_keeps_of (m := 65612) h.jump rfl hfx.keeps).sameBut rfl, ?_, ?_, ?_, ?_⟩
  · rw [hc]; exact h.pos
  · rw [hc]; exact h.held
  · rw [hc]; exact h.errSince
  · unfold State.fb
    rw [hflag]
    rfl

end

/-! ### The step of the period count -/

theorem stepN_same (n : Int) (q : Nat) : stepN n q q = n := by
  simp [stepN, stepOf]

theorem stepN_next (n : Int) {q : Nat} (h : q < 4) : stepN n q ((q + 1) % 4) = if q = 3 then n + 1 else n := by
  obtain rfl | rfl | rfl | rfl : q = 0 ∨ q = 1 ∨ q = 2 ∨ q = 3 := by omega
  all_goals rfl

theorem stepN_prev (n : Int) {q : Nat} (h : q < 4) : stepN n q ((q + 3) % 4) = if q = 0 then n - 1 else n := by
  obtain rfl | rfl | rfl | rfl : q = 0 ∨ q = 1 ∨ q = 2 ∨ q = 3 := by omega
  all_goals rfl

/-- Settles O35: a sample that counts puts the channel on its quadrant and moves the web position with it; an illegal transition
leaves the place and is marked. -/
theorem encoderSamplesMoveThePosition : Obligations.EncoderSamplesMoveThePosition := by
  unfold Obligations.EncoderSamplesMoveThePosition
  intro s ch sin cos idx ho hi hen hperm
  extract_lets x e c a b at_
  refine ⟨fun hseen hwoken hfault hbad hidx hab hq => ?steps, fun hseen hwoken ha hb => ?illegal⟩
  case steps =>
    have key : ∀ dq, quadOf a b = dq → (dq + 4 - x.q) % 4 ≠ 2 →
        Runs (.encoderSample ch sin cos idx) s fun t => s.SampledTo t ch (stepN x.n x.q dq) dq (c.phase dq) := fun dq hdq hnext => by
      have ht := State.encSample_sampledTo hseen (EncCh.sample_step (x := { x with k := s.instant ch }) (e := e)
        (sc := (sin.toInt - s.enc.adc[ch].1, cos.toInt - s.enc.adc[ch].2.1)) hseen hwoken hfault hbad hidx hab hdq hnext)
      exact ⟨_, exec_encoderSample_idle ho hi hen ht.1 (by decide) (by decide) (by decide), ht⟩
    refine ⟨fun hdq => ?_, fun hdq => ?_, fun hdq => ?_⟩
    · have h := key x.q hdq (by omega)
      rw [stepN_same] at h
      exact h
    · have h := key _ hdq (by omega)
      rw [stepN_next x.n hq, ← hdq] at h
      exact h
    · have h := key _ hdq (by omega)
      rw [stepN_prev x.n hq, ← hdq] at h
      exact h
  case illegal =>
    have ht := State.encSample_illegal (idx := idx) hperm (EncCh.sample_illegal (x := { x with k := s.instant ch }) (e := e)
      (sc := (sin.toInt - s.enc.adc[ch].1, cos.toInt - s.enc.adc[ch].2.1)) hseen hwoken ha hb)
    exact ⟨_, exec_encoderSample_idle ho hi hen ht.1 (by decide) (by decide) (by decide), ht⟩

end Sys2Proof.Machine
end
